-- ==== Sys2Proof/Word.lean ====
section
/-! DEFINITION. The word types of the RHF3280: 32-bit register and packet words, and bytes. -/

namespace Sys2Proof

/-- A 32-bit register or packet word (R16). -/
abbrev Word := BitVec 32

/-- A byte of a frame or of a packet. -/
abbrev Byte := BitVec 8

end Sys2Proof
end

