-- ==== Sys2Proof/Config.lean ====
section
/-! DEFINITION. What one module fixes (its part, its fused values) and the values the manual leaves open.
Every `opaque` constant here is a FREE VALUE: it has no body, so no proof can see what it is. -/

namespace Sys2Proof

/-- The three parts of Table 0.1 (R1). -/
inductive Part where
  | rhf3280D
  | rhf3280S
  | rhf3240S
deriving DecidableEq, Repr

/-- A value the manual leaves open, as a natural number: the n-th one the machine has needed.
The step reads the machine's counter `State.freeCtr` and advances it (log 6). -/
opaque Config.freeNat : Nat → Nat

/-- SHA-384 of a string of big-endian words, as the checks of Table 16.4 use it (R458, R459). The standard that defines it is not part of
the manual, and cryptography is not computed here (log 8). -/
opaque Config.sha384 : List Word → BitVec 384

/-- Whether an ECDSA P-384 signature, r and s, verifies with a public key, X and Y, over a digest (R458, R459; log 8). -/
opaque Config.ecdsaP384 : List Word → BitVec 384 → List Word → Bool

/-- The delays of the timing sets in an engine's fuses (R389), in units of 2^-16 ns: the set, numbered as `setKey`, and one
of its five temperatures. What the factory measured on one module is not the manual's to give (log 19). -/
opaque Config.fusedDelay : Nat → Nat → Nat

/-- A lane's delays in units of 2^-16 ns when the die carries no valid calibration set: the defaults of
R389 and R391, whose values the manual does not give (log 12). -/
opaque Config.defaultDelay : Nat → Nat

/-- The Arcade cells that the start-up repair pass finds failing, and the associative-memory entries, by the machine's counter of free
values: what a die's cells do is not the manual's to give (R392, log 19). -/
opaque Config.startCells : Nat → List Nat
@[inherit_doc Config.startCells]
opaque Config.startEntries : Nat → List Nat

/-- The output synthesizer, modulo 4, that times each of the event outputs EVTOUT0 to EVTOUT7: Table 1.5 says that SYN-O0 to
SYN-O3 feed them, and no rule says which feeds which (log 120). -/
opaque Config.evtSynth : Nat → Nat

/-- Whether the effect of a configuring command cannot be expressed at an interface level, by the level, the opcode and the parameters: R349
refuses it, and no rule names one (log 116). -/
opaque Config.levelLacks : BitVec 16 → BitVec 16 → List Word → Bool

/-- The PORT field of the egress stamp record of a frame that was discarded before any copy of it was made, by its tag: R90 asks for
the record, and the frame had no egress port (log 74). -/
opaque Config.noEgressPort : Nat → Nat

end Sys2Proof
end

