-- ==== Sys2Proof/Syntax.lean ====
section
/-! DEFINITION. The commands the module takes: `Instr` has one constructor per row of the opcode table.
An event row carries what the hardware measures at that moment (a phase, a frequency, a window's
outcome) and what the outside world presents (a frame's bytes, descriptors in host memory), because the
manual gives those to the model from outside (log 2). -/

namespace Sys2Proof

/-- The two engines (R31). -/
inductive EngId where
  | a
  | b
deriving DecidableEq, Repr

/-- The units that take command packets: the engines and the supervisor (R414). -/
inductive UnitId where
  | eng (e : EngId)
  | sup
deriving DecidableEq, Repr

/-- The host channels of Table 15.1. -/
inductive Channel where
  | ring
  | mailbox
  | mgmt
  | spi
deriving DecidableEq, Repr

/-- How a command packet arrived: where, on which channel, and its header fields (Table 15.2).
`crc` is the packet's CRC word, `src` and `vlan` are the source address and the VLAN tag of a
management frame (R440), 0 and none on other channels. -/
structure Arrival where
  via : UnitId
  chan : Channel
  tag : BitVec 16
  fence : Bool
  target : BitVec 2
  crc : Word
  src : BitVec 48
  vlan : Option Word
deriving DecidableEq, Repr

/-- A descriptor of Table 15.8 as host memory holds it, with the bytes of its buffer for the rings the
engine reads, and whether PCIe can access it (R431). -/
structure Desc where
  w0 : Word
  w1 : Word
  w2 : Word
  w3 : Word
  data : List Byte
  pcieOk : Bool
deriving DecidableEq, Repr

/-- The heartbeat paths of R38: from an engine to the supervisor, from the supervisor to an engine, and
the Fofaene link into an engine. -/
inductive BeatPath where
  | toSup (e : EngId)
  | toEng (e : EngId)
  | fof (e : EngId)
deriving DecidableEq, Repr

/-- What makes a supervisor fault inside the supervisor (R39). -/
inductive SupFaultCause where
  | comparator
  | watchdog
deriving DecidableEq, Repr

/-- The loops whose lock is judged (Table 1.5, Table 1.6). -/
inductive Loop where
  | synt
  | synm
  | host
  | fof
  | txg (g : Fin 4)
  | syno (k : Fin 4)
deriving DecidableEq, Repr

/-- The lock-judging windows of R51: 8 us for analog lock, 1 s for the fine lock of SYN-T. -/
inductive LockWindow where
  | analog
  | fine
deriving DecidableEq, Repr

/-- What a frame's received FCS is: right, wrong, or carrying the stomp pattern (R197). -/
inductive FcsResult where
  | good
  | bad
  | stomped
deriving DecidableEq, Repr

/-- The conditions of R106 and R111 under which a port goes down: `ability` is a control word of H1's partner for anything
but 1000 Mb/s full duplex, `ring` an event or send ring of H0 that is disabled or stops. -/
inductive DownCause where
  | signal
  | blockLock
  | alignment
  | remoteFault
  | hiBer
  | pcieLink
  | ability
  | ring
deriving DecidableEq, Repr

/-- The PCS conditions that a port needs to be up (R108). -/
inductive PcsCond where
  | signal
  | blockLock
  | alignment
  | remoteFault
  | hiBer
deriving DecidableEq, Repr

/-- The block resets of Table 12.5. -/
inductive BlockReset where
  | monitorRestart
  | staging (ch : Fin 10)
  | repairPass
  | txPll (g : Fin 4)
  | synt
  | d8Pll
  | syno (k : Fin 4)
  | fofPll
  | fofRetrain
deriving DecidableEq, Repr

/-- What the scrubber or a read finds in a stored word after decoding (R212): no error, one or two bits
in error, three or more. -/
inductive WordOutcome where
  | clean
  | oneBit
  | twoBits
  | threeBits
deriving DecidableEq, Repr

/-- The memories under the code of R212: the Arcade, the buffer DRAM, frame descriptors and queue links (R216). -/
inductive Store where
  | arcade
  | dram
  | descriptors
deriving DecidableEq, Repr

/-- The tables of TABLE_BAD (Table 12.10). -/
inductive TableId where
  | am
  | profiles
  | parse
  | forwarding
  | indirection
  | rewrite
  | meter
  | mirror
  | multicast
deriving DecidableEq, Repr

/-- The time latches of R79, one per host channel that reads registers. -/
inductive LatchId where
  | bar0
  | mgmt
  | spi
deriving DecidableEq, Repr

/-- What a transmission opportunity meets: the Crossing's handshakes since the last event, by channel and number, and the errors that the
read of the frame's cells finds, counted in words from its first (R212). -/
structure TxRead where
  hands : List (Fin 10 × Nat)
  flaws : List (Nat × WordOutcome)
deriving DecidableEq, Repr

/-- A fetch from the Underpass: the engine whose controller makes it, and the errors that its read finds, counted in words from the
frame's first (R212). -/
structure DrainFetch where
  eng : EngId
  flaws : List (Nat × WordOutcome)
deriving DecidableEq, Repr

/-- What a partner presents in Clause 73: its technology ability in ADVERT's coding, and its requests for RS-FEC and for Clause 74 at
25 Gb/s (R102). -/
structure AnPartner where
  techs : BitVec 8
  rsFec : Bool
  baseRFec : Bool
deriving DecidableEq, Repr

/-- The commands: one constructor per row of the opcode table. A row 163 to 265 of the table is a host
command packet; every other row is an event at the module's boundary or inside it. -/
inductive Instr where
  /-- SUPPLY_VALID (R473). The stage input has been at or above 8.8 V for 1 ms, and the module starts the start-up sequence from step 1 of Table 16.1. -/
  | supplyValid
  /-- BROWN_OUT (R474). The stage input has been below 8.0 V for 10 µs, and the brown-out sequence squelches the lanes, holds the engines in reset and switches off the rails. -/
  | brownOut
  /-- POWER_CYCLE (R475). Both inputs have been below 3 V for 100 ms, and the retention latches of every RS field are cleared. -/
  | powerCycle
  /-- HOLDUP_DRAW (R477). The stage input falls below 8.8 V, and the stage draws from HOLDUP with no interruption of any internal rail. -/
  | holdupDraw
  /-- HOLDUP_RETURN (R477). An input returns to 8.8 V or above, and the stage returns to the inputs and resumes charging HOLDUP. -/
  | holdupReturn
  /-- RESET_N_ASSERT (R485). RESET_N has been low for 10 µs, and every engine is reset and held in reset. -/
  | resetNAssert
  /-- RESET_N_RELEASE (R456). RESET_N is released, and engine A, then engine B 10 ms later, restart from step 5 of Table 16.1. -/
  | resetNRelease
  /-- PCIE_PERST (R490). A PCIE_PERST_N pin is held low, and only that engine's PCIe endpoint is reset, so its link leaves L0. -/
  | pciePerst (e : EngId)
  /-- RAIL_FAULT (R356). An internal rail has stayed outside its regulation window for 10 µs, and the supervisor reports RAIL_FAULT, class F4. -/
  | railFault (rail : Word)
  /-- STEER_FAULT (R356). The read-back of the steering latches disagrees with the position last commanded, and STEER_FAULT, class F4, is reported. -/
  | steerFault
  /-- POWER_DIE_OVERTEMP (R501). The power die reaches 145 °C, and the supervisor raises RAIL_FAULT with ADDRESS 0xFF, so the module enters Cul-de-sac. -/
  | powerDieOvertemp
  /-- THERMAL_SHUTDOWN (R501). At 160 °C the power stage switches off every rail, whatever the supervisor does, as for a brown-out. -/
  | thermalShutdown
  /-- SUPERVISOR_BOOT (R460). The supervisor's boot ROM verifies a supervisor image and starts it, or serves the bootstrap subset of commands when no slot passes. -/
  | supervisorBoot
  /-- RAIL_SEQUENCE_DONE (R451). The rails have been sequenced and PWRGOOD rises, so HOLDUP charging and the governor start. -/
  | railSequenceDone
  /-- ENGINE_LEAVE_RESET (R451). An engine leaves reset at its scheduled time, and its register window answers with ROLE 0x0. -/
  | engineLeaveReset (e : EngId)
  /-- ENGINE_BOOT (R460). An engine's boot ROM chooses, loads and verifies an image, trial first, and starts the firmware or enters maintenance mode. -/
  | engineBoot (e : EngId) (recordsBad : List Nat)
  /-- INITIAL_CALIBRATION_DONE (R455). The start-up calibration in loopback completes, and INIT_DONE reads 1. -/
  | initialCalibrationDone (e : EngId)
  /-- ENGINE_READY (R453). An engine reports ready to the supervisor with every setting at its reset value. -/
  | engineReady (e : EngId)
  /-- ENGINE_B_START_TIMEOUT (R325). 1.5 s passes without engine A ready, and engine B is made active with the steering moved to it. -/
  | engineBStartTimeout
  /-- SIDEBAND_BEAT (R328). A heartbeat carrying ALIVE or GIVE_UP arrives on the sideband, and the supervisor judges the active by Table 11.2. -/
  | sidebandBeat (e : EngId) (toSup giveUp : Bool)
  /-- FOFAENE_BEAT (R38). A heartbeat arrives on the Fofaene link, and the standby reports the Fofaene beat state. -/
  | fofaeneBeat (e : EngId) (giveUp : Bool)
  /-- HEARTBEAT_LOSS (R38). Three consecutive beats are missed on the sideband or the Fofaene link, and the receiver declares the beat absent. -/
  | heartbeatLoss (p : BeatPath)
  /-- GIVE_UP_WAIT_EXPIRY (R328). The supervisor has waited 30 µs for the Fofaene beat to confirm a give-up, and it makes the switchover. -/
  | giveUpWaitExpiry
  /-- SUPERVISOR_FAULT (R39). A comparator mismatch or a supervisor watchdog expiry occurs, so each engine reports SUP_FAULT and FAULT_N is asserted. -/
  | supervisorFault (cause : SupFaultCause)
  /-- SUPERVISOR_RECOVERY (R40). The supervisor recovers and judges the role grants afresh from the engines' states as they then stand. -/
  | supervisorRecovery
  /-- SUPERVISOR_RESTART_TIMEOUT (R467). The supervisor's heartbeat has not returned 500 ms after a restart announcement, and the supervisor-fault rules apply from then. -/
  | supervisorRestartTimeout
  /-- FOF_LINK_DOWN (R347). The Fofaene link goes down, so copy and digest comparison stop, waiting commands reply unmirrored, and FOF_LINK_LOST is raised. -/
  | fofLinkDown
  /-- FOF_LINK_UP (R347). The Fofaene link returns, the copy resumes from the journal or as a full copy, and EVENT 5 is reported. -/
  | fofLinkUp
  /-- STEERING_MOVE_DONE (R331). The steering switches latch to the new active, the old engine's frames are cut off, and the lanes carry the new active's idles. -/
  | steeringMoveDone
  /-- OUTPUT_ALIGNER_HANDOVER (R334). The output phase aligner measures each output and hands it to the new active, marking it misaligned above 50 ps. -/
  | outputAlignerHandover (diffs : Vector Int 12)
  /-- SWITCHOVER_COMPLETE (R331). The switchover gap ends, the new active may start frames, and SWITCHOVERS advances. -/
  | switchoverComplete
  /-- OCCUPANCY_REPORT (R332). At each 10 µs device-time multiple the active sends the occupancy of each egress queue to the standby. -/
  | occupancyReport
  /-- RUNNING_COMMIT (R340). Every 10 µs the active closes a running commit of learned entries, servo state and counters. -/
  | runningCommit
  /-- COMMIT_MARKER_RECEIVED (R340). A commit marker arrives at the standby, which applies the records of that commit whole and in sequence order. -/
  | commitMarkerReceived
  /-- COMMIT_ACK_RECEIVED (R341). The standby's commit acknowledgement arrives, and the waiting configuring command replies with MIRRORED set. -/
  | commitAckReceived
  /-- COPY_TIMEOUT (R341). No acknowledgement arrives 10 ms after a marker, so the active replies unmirrored, sets COPY to 5 and restarts a full copy. -/
  | copyTimeout
  /-- FULL_COPY_END (R342). A full copy or journal resumption ends with the standby current, so COPY reads 2 and event 9 is written. -/
  | fullCopyEnd
  /-- TIME_WORD_SYNC (R333). The active's 1 ms time word arrives, and a standby entering SYNCING sets its device time, STEP_COUNT and TB_SET from it. -/
  | timeWordSync
  /-- TB_PHASE_MEASUREMENT (R333). A Fofaene phase measurement updates TB_PHASE_ERR and moves the standby among the SYNC states. -/
  | tbPhaseMeasurement (err : Int) (heldUs : Nat)
  /-- DIGEST_WINDOW_CLOSE (R337). A digest window closes at 4,096 frames or at 1 s, and its boundary B is fixed. -/
  | digestWindowClose
  /-- DIGEST_COMPARE (R337). At B + 100 µs the standby compares the active's count and digest with its own and updates the mismatch counters. -/
  | digestCompare
  /-- FAST_SCRUB_END (R339). The fast scrub ends, and its outcome marks engines faulty or raises DIGEST_MISMATCH as Table 11.6 gives. -/
  | fastScrubEnd (activeWords standbyWords : Nat)
  /-- SWAP_PREPARE (R345). At SW_AT − PREP_US the standby begins admitting and storing frames for a planned swap. -/
  | swapPrepare
  /-- SWAP_AT (R345). At SW_AT the outgoing active sends S_q, leaves the active role and the switchover steps follow. -/
  | swapAt
  /-- SWAP_SCHEDULE (R346). ROLE_SWAP_PERIOD has elapsed, and the supervisor attempts a scheduled swap. -/
  | swapSchedule
  /-- SWAP_RETRY (R346). A held-back scheduled swap is retried every 60 s for 1 h, then SWAP_SKIPPED is raised. -/
  | swapRetry
  /-- PROXY_MIRROR (R262). Every 100 µs the active mirrors the redundancy proxy table and sequence counters to the standby. -/
  | proxyMirror
  /-- STEP_APPLY (R72). APPLY_AT is reached, J is added to the time counter, STEP_COUNT advances, and the remainder starts slewing. -/
  | stepApply (e : EngId)
  /-- SLEW_COMPLETE (R72). The step remainder has been spent, and SLEWING clears. -/
  | slewComplete (e : EngId)
  /-- LOCK_WINDOW_END (R51). A lock-judging window of a loop ends, and analog lock, loss of lock or fine lock is declared. -/
  | lockWindowEnd (e : EngId) (loop : Loop) (window : LockWindow) (dev : Int)
  /-- SYNT_LOSS (R315). SYN-T loses analog lock, so D1 moves to the fallback multiplier and SYNT_UNLOCK is raised. -/
  | syntLoss (e : EngId) (incNew : Nat) (phase : Int)
  /-- SYNT_ANALOG_LOCK (R315). SYN-T regains analog lock after a reset. -/
  | syntAnalogLock (e : EngId)
  /-- SYNT_RETURN (R315). 100 µs after relock, D1 returns to SYN-T and INC is restored to exactly 2 ns. -/
  | syntReturn (e : EngId) (phase : Int)
  /-- SYNT_RELOCK_RETRY (R316). No lock has come 1 ms after a SYN-T reset, so another reset attempt follows and SYNT_RELOCK advances. -/
  | syntRelockRetry (e : EngId)
  /-- PHASE_PULLBACK_DONE (R315). The TX PLL and SYN-O phases are back within 1 ps of D1, so the grid is restored and A3 is offered again. -/
  | phasePullbackDone (e : EngId)
  /-- D0_LOST (R52). No D0 edge arrives for 1 µs, or D0 leaves 9 MHz to 55 MHz, so D0_LOST, class F3, is raised and lock judgements are suspended. -/
  | d0Lost (e : EngId)
  /-- EVTIN_EDGE (R91). An accepted edge on an event input is stamped and queued, or counted as close or overflowed. -/
  | evtinEdge (e : EngId) (input : Fin 8) (rise : Bool) (heldNs after : Nat)
  /-- PULSE_INPUT_EDGE (R291). A pulse-reference edge is captured and gives an offset sample of its slot's second. -/
  | pulseInputEdge (e : EngId) (ref : Fin 42) (rise : Bool) (after : Nat)
  /-- EVTOUT_EDGE (R95). A scheduled EVTOUT entry reaches its time, and the engine places the edge or pulse at the ball. -/
  | evtoutEdge (e : EngId) (out : Fin 8)
  /-- OUTPUT_SLEW_DONE (R321). An output slewed by TIME.ALIGN_OUTPUTS reaches its aligned position, and its MISALIGNED bit clears. -/
  | outputSlewDone (e : EngId) (out : Fin 12)
  /-- FRAME_HEAD_RECEIVED (R83). A frame's start arrives at an ingress MAC, is stamped, then parsed, classified, admitted and possibly cut through as its bytes arrive. -/
  | frameHeadReceived (e : EngId) (port : Fin 34) (after : Nat) (bytes : List Byte) (hands : List (Fin 10 × Nat))
  /-- FRAME_TAIL_RECEIVED (R147). A frame's tail arrives, so the FCS, tail-resolved and PRP checks take their actions, and learning and duplicate discard run. -/
  | frameTailReceived (e : EngId) (port : Fin 34) (fcs : Word)
  /-- MAC_CONTROL_RECEIVED (R224). A PFC or PAUSE frame is consumed by the MAC and sets the pause timers of class queues, or is ignored. -/
  | macControlReceived (e : EngId) (port : Fin 34) (opcode : BitVec 16) (vec : BitVec 8) (quanta : Vector (BitVec 16) 8) (len : Nat)
  /-- AHNUD_FRAME_RECEIVED (R121). An Ahnud frame is accepted or discarded and drives the capability exchange state. -/
  | ahnudFrameReceived (e : EngId) (port : Fin 32) (bytes : List Byte) (fcs : Word)
  /-- MGMT_FRAME_RECEIVED (R439). A 0x88B5 frame on the management port is taken as a command, passed to H1 or discarded for its source. -/
  | mgmtFrameReceived (e : EngId) (bytes : List Byte) (fcs : Word)
  /-- ROUNDABOUT_PASS1 (R167). A recirculated frame whose tail has arrived is parsed and classified again from its resume header. -/
  | roundaboutPass1 (e : EngId)
  /-- FLIP_AT (R163). FLIP_AT is reached, the shadow bank goes live, the rule epoch advances and the drain begins. -/
  | flipAt (e : EngId)
  /-- DRAIN_END (R164). The old-epoch drain ends, stragglers are discarded, and the FLIP_BANK reply is formed. -/
  | drainEnd (e : EngId)
  /-- HOST_SEND_FETCH (R434). The engine fetches a frame from a send ring and injects it on H0, or refuses it. -/
  | hostSendFetch (e : EngId) (ring : Fin 2)
  /-- TX_OPPORTUNITY (R243). At a transmission opportunity the egress MAC chooses the next frame by the order of service, guard and launch rules. -/
  | txOpportunity (e : EngId) (port : Fin 34) (after : Nat) (read : TxRead)
  /-- COPY_TRANSMIT_END (R196). A copy finishes transmission, whole or stomped, its cells are released and its stamp and sample records complete. -/
  | copyTransmitEnd (e : EngId) (port : Fin 34)
  /-- DRAIN_FETCH_DONE (R235). The Underpass controller completes a fetch of a spilled frame into drain staging, and its queue may move. -/
  | drainFetchDone (fetch : DrainFetch)
  /-- MC_RESIDUE_RETRY (R203). A multicast residue copy is retried when its queue's occupancy falls or SF rises, and enqueued if admitted. -/
  | mcResidueRetry (e : EngId) (port : Fin 34) (cls : Fin 8)
  /-- MC_RESIDUE_AGE_EXPIRY (R203). A lossy residue copy reaches MC_RESIDUE_AGE and is dropped for its port. -/
  | mcResidueAgeExpiry (e : EngId) (port : Fin 34) (cls : Fin 8)
  /-- CROSS_STALL (R182). A Crossing handshake stays unacknowledged for 10 µs, and CROSS_STALL, class F3, is raised. -/
  | crossStall (e : EngId) (channel : Fin 10)
  /-- PFC_REPEAT (R223). While XOFF lasts, a PFC or PAUSE frame is repeated every PAUSE_QUANTA × 256 bit times. -/
  | pfcRepeat (e : EngId) (port : Fin 34)
  /-- PAUSE_TIMER_EXPIRY (R224). A received pause timer runs out, and its class queues are released. -/
  | pauseTimerExpiry (e : EngId) (port : Fin 34) (prio : Fin 8)
  /-- PFC_STORM (R226). A class queue has been paused longer than PFC_WD_MS, so STORM is set and PFC_STORM is raised. -/
  | pfcStorm (e : EngId) (port : Fin 34) (cls : Fin 8)
  /-- AGE_CHECK (R237). Every 100 µs the head of a blocked queue and each lossless residue copy is checked against AGE_US. -/
  | ageCheck (e : EngId)
  /-- PORT_DOWN (R106). A port's PCS loses its up condition, so it is declared down, its hold starts and an event record is offered. -/
  | portDown (e : EngId) (port : Fin 34) (cause : DownCause)
  /-- PORT_UP_CONDITION (R108). The PCS reaches the up condition of its mode, and debounce starts. -/
  | portUpCondition (e : EngId) (port : Fin 34)
  /-- PORT_UP (R108). UP_DEBOUNCE expires with the condition held, and the port is declared up. -/
  | portUp (e : EngId) (port : Fin 34)
  /-- HOLD_EXPIRY (R116). LINK_DOWN_HOLD expires with the port still down, so its queued frames are flushed. -/
  | holdExpiry (e : EngId) (port : Fin 34)
  /-- AN_RESOLVED (R102). Clause 73 negotiation resolves a mode, and Clause 72 training starts. -/
  | anResolved (e : EngId) (port : Fin 34) (partner : AnPartner) (pause : Bool)
  /-- AN_FAILURE (R103). Negotiation or training fails or exceeds 500 ms, and AN_STATE is set to 3 with CAUSE 8. -/
  | anFailure (e : EngId) (port : Fin 34)
  /-- AN_RESTART (R103). 100 ms after a failure, negotiation restarts and AN_RESTARTS advances. -/
  | anRestart (e : EngId) (port : Fin 34)
  /-- PARALLEL_DETECT_STEP (R105). A parallel-detect candidate's 100 ms slot ends or its lock holds for 10 ms, so the next candidate is tried or the mode settles. -/
  | parallelDetectStep (e : EngId) (port : Fin 34) (locked : Bool)
  /-- HOST_PORT_DOWN (R111). H0 or H1 goes down on its cause, and an event record with port 32 or 33 is offered. -/
  | hostPortDown (e : EngId) (h1 : Bool) (cause : DownCause)
  /-- HOST_PORT_UP (R111). H0 or H1 comes up after debounce, and an event record is offered. -/
  | hostPortUp (e : EngId) (h1 : Bool)
  /-- PREEMPT_VERIFY_TIMER (R251). A VERIFY_MS interval ends, so a verify mPacket is resent or verification fails after three attempts. -/
  | preemptVerifyTimer (e : EngId) (port : Fin 32)
  /-- AHNUD_OFFER_TIMER (R121). The Offering or Fallback interval ends, and an OFFER is sent. -/
  | ahnudOfferTimer (e : EngId) (port : Fin 32)
  /-- AHNUD_ANEG_WAIT (R121). ANEG_WAIT expires with no valid Ahnud frame, and the port enters Fallback. -/
  | ahnudAnegWait (e : EngId) (port : Fin 32)
  /-- AHNUD_KEEP_TIMER (R121). In Settled a KEEP is sent every 1 s. -/
  | ahnudKeepTimer (e : EngId) (port : Fin 32)
  /-- AHNUD_PARTNER_TIMEOUT (R121). A settled port hears no valid Ahnud frame for 3 s and enters Fallback. -/
  | ahnudPartnerTimeout (e : EngId) (port : Fin 32)
  /-- GCL_ENTRY_CHANGE (R247). A gate control list entry's interval ends, and the next entry's gate states take effect. -/
  | gclEntryChange (e : EngId) (port : Fin 32)
  /-- GCL_CHANGE_TIME (R248). At CT the administrative list becomes operational, or all gates open. -/
  | gclChangeTime (e : EngId) (port : Fin 32)
  /-- TC_2STEP_AGE (R89). A two-step table entry whose Follow_Up has not passed within 1 s is discarded. -/
  | tc2stepAge (e : EngId)
  /-- DUP_FORGET (R261). A duplicate table entry older than FORGET_MS is removed. -/
  | dupForget (e : EngId)
  /-- PROXY_AGE (R260). A proxy table entry unused for 60 s is removed. -/
  | proxyAge (e : EngId)
  /-- FDB_AGE_SWEEP (R173). The ageing sweep removes dynamic entries with a clear hit bit and clears the others. -/
  | fdbAgeSweep (e : EngId)
  /-- PTP_SYNC_SEND (R269). On a MASTER port a Sync, with Follow_Up if two-step, is sent every 2^LOG_SYNC s. -/
  | ptpSyncSend (e : EngId) (dom : Fin 2) (port : Fin 34)
  /-- PTP_DELAY_REQ_SEND (R269). A Delay_Req or Pdelay_Req is sent every 2^LOG_DREQ s. -/
  | ptpDelayReqSend (e : EngId) (dom : Fin 2) (port : Fin 34)
  /-- PTP_NO_SAMPLE (R271). A SLAVE port yields no sample for 1 s and is reported to reference selection as having lost its signal. -/
  | ptpNoSample (e : EngId) (dom : Fin 2)
  /-- ANCHOR_SAMPLE (R279). Every 1 ms an anchored port at A3 gives the servo a fine sample from the phase detector. -/
  | anchorSample (e : EngId) (port : Fin 32) (phi : Int)
  /-- ANCHOR_RESET (R265). Loss of block lock or a lane restart ends the detector unwrap, and the anchor is invalidated. -/
  | anchorReset (e : EngId) (port : Fin 32)
  /-- SERVO_UPDATE (R301). At each 1 ms servo update, reference states are applied, both selections of each slot are remade, and the servo steers. -/
  | servoUpdate (e : EngId)
  /-- BUILD_OUT_SLEW_DONE (R285). A BUILD_OUT slew reaches 0, and BO_SLEW clears. -/
  | buildOutSlewDone (e : EngId)
  /-- ASYM_MODEL_RECOMPUTE (R280). Every 1 s MODEL is recomputed from the filtered mean path delay. -/
  | asymModelRecompute (e : EngId) (port : Fin 32)
  /-- CAL_ASYM_WINDOW_END (R282). The TIME.CAL_ASYM window ends, ε is formed, TRIM_PS may be written and the reply is sent. -/
  | calAsymWindowEnd (e : EngId)
  /-- REF_MEASURE (R294). Once a second each reference's frequency is measured and its drift slope and ramp mark are updated. -/
  | refMeasure (e : EngId) (ref : Fin 42) (frq phase : Int)
  /-- REF_LOSS_OF_SIGNAL (R290). A reference's input gives no edge for its detection time, and loss of signal is declared. -/
  | refLossOfSignal (e : EngId) (ref : Fin 42)
  /-- REF_QUALIFY_TIMER (R298). A reference's QUAL_S or WTR_S timer expires with every test passed, and it becomes Available. -/
  | refQualifyTimer (e : EngId) (ref : Fin 42)
  /-- GOVERNOR_SAMPLE (R57). Every 10 µs the governor reads MIN_SPEED and raises or lowers VCORE. -/
  | governorSample (e : EngId)
  /-- SPEED_MONITOR_WINDOW (R185). A 1 µs monitor window ends, SPEED is reported, and monitors are excluded or included. -/
  | speedMonitorWindow (e : EngId) (speeds : Vector Nat 12)
  /-- PACE_REPLY_TIMEOUT (R62). The SYS.SET_PACE reply is formed at every running engine's SETTLED = 1, or 2 ms after acceptance. -/
  | paceReplyTimeout
  /-- FAULT_MESSAGE_ARRIVAL (R354). A fault message reaches the collector and is stamped, latched, counted, recorded and windowed. -/
  | faultMessageArrival (e : EngId)
  /-- F2_WINDOW_END (R357). An F2 window ends, and the fault's reaction is taken, simulated or skipped because its condition has cleared. -/
  | f2WindowEnd (e : EngId) (source kind : Byte) (inj : Bool)
  /-- F3_WINDOW_END (R357). An F3 window ends, and the engine gives up. -/
  | f3WindowEnd (e : EngId) (inj : Bool)
  /-- BLOCK_RESET_READY (R366). A block reset reports ready, its shadow window closes and its probation begins. -/
  | blockResetReady (e : EngId) (reset : BlockReset)
  /-- BLOCK_RESET_OVERDUE (R366). A block reset is not ready within its bound, and it raises its own fault again. -/
  | blockResetOverdue (e : EngId) (reset : BlockReset)
  /-- COLLECTOR_CHECK (R375). The independent checker finds a check-word mismatch, so COLLECTOR_CHECK, class F4, starts Cul-de-sac. -/
  | collectorCheck (e : EngId)
  /-- RING_WATCHDOG (R375). The fault-ring token has not returned within 50 µs, so RING_WATCHDOG, class F4, is raised. -/
  | ringWatchdog (e : EngId)
  /-- FW_WATCHDOG (R356). Firmware misses its 2 ms watchdog service, and FW_WATCHDOG, class F3, is raised. -/
  | fwWatchdog (e : EngId)
  /-- BUFFER_SCRUB (R214). The scrubber reads a buffer word and corrects it, poisons it or retires its cell. -/
  | bufferScrub (e : EngId) (store : Store) (wordNo : Nat) (outcome : WordOutcome) (late : Bool)
  /-- TABLE_SCRUB (R365). The table scrubber reads a table word, and corrects it, rewrites it from its golden copy or invalidates it. -/
  | tableScrub (e : EngId) (table : TableId) (index : Nat) (corrected : Bool)
  /-- CAL_DUE (R382). A calibration falls due one period after it started. -/
  | calDue (e : EngId) (kind : Fin 7) (idx : Nat)
  /-- CAL_PROBE (R382). A probe is taken in a gap, or discarded when a frame begins. -/
  | calProbe (e : EngId) (kind : Fin 7) (idx : Nat) (ok : Bool) (value : Int)
  /-- CAL_STARVE (R394). CAL_STARVE_MAX passes without the probes, so the calibration is deferred and CAL_STARVED may be raised. -/
  | calStarve (e : EngId) (kind : Fin 7) (idx : Nat)
  /-- TRIM_STEP (R385). Every 1 ms a phase trim moves by up to 4 steps towards its target. -/
  | trimStep (e : EngId)
  /-- DIE_TEMP_READ (R389). Every 1 ms the die sensor is read and RX_PHY and TX_PHY are reinterpolated. -/
  | dieTempRead (e : EngId) (raw : Int)
  /-- REPAIR_PASS_END (R392). A repair pass ends, with retired cells and entries returned to use or mapped to spares. -/
  | repairPassEnd (e : EngId)
  /-- SNAPSHOT_INSTANT (R404). At a multiple of SNAP_PERIOD_MS the counter array is latched, or the snapshot is dropped. -/
  | snapshotInstant (e : EngId)
  /-- SNAPSHOT_WRITTEN (R405). The eight records of a latched snapshot have been written to the snapshot ring. -/
  | snapshotWritten (e : EngId)
  /-- SAMPLE_RECORD_MOVE (R410). Sample records move from the on-die ring or the overflow region to the sample ring as room appears. -/
  | sampleRecordMove (e : EngId)
  /-- RING_RECORD_DELIVERY (R433). A waiting record is written to its ring once posted buffers can hold it. -/
  | ringRecordDelivery (e : EngId) (ring : Fin 8)
  /-- RING_DOORBELL_WRITE (R431). A DOORBELL write posts descriptors, or stops the ring when it overposts. -/
  | ringDoorbellWrite (e : EngId) (ring : Fin 8) (idx : Word) (descs : List Desc)
  /-- MBOX_CMD_WRITE (R437). Software writes packet bytes into MBOX_CMD. -/
  | mboxCmdWrite (e : EngId) (offset : Nat) (bytes : List Byte)
  /-- MBOX_DOORBELL_WRITE (R437). A write of the packet length to MBOX_DOORBELL submits the mailbox packet, or is ignored while busy. -/
  | mboxDoorbellWrite (e : EngId) (len : Word)
  /-- MBOX_READY_CLEAR (R437). Writing 1 to READY releases the mailbox. -/
  | mboxReadyClear (e : EngId)
  /-- PCIE_LINK_DOWN (R429). The PCIe link leaves L0 or the D8 PLL loses lock, and every ring of the engine stops with ERR 4. -/
  | pcieLinkDown (e : EngId)
  /-- IRQ_MODERATION_EXPIRY (R445). MOD_US passes since a ring bit's last signal, and a held-back interrupt is signalled. -/
  | irqModerationExpiry (e : EngId) (bit : Fin 6)
  /-- SPI_WRITE_PACKET (R442). A WRITE_PACKET transaction delivers a command packet, or sets FRAMING or LAST_REFUSED. -/
  | spiWritePacket (bytes : List Byte) (complete : Bool)
  /-- SPI_READ_STATUS (R442). A READ_STATUS transaction returns the status byte and reply length, and clears LAST_REFUSED and FRAMING. -/
  | spiReadStatus
  /-- SPI_READ_REPLY (R442). A READ_REPLY transaction returns the oldest reply and removes it when read whole. -/
  | spiReadReply (whole : Bool)
  /-- SPI_UNKNOWN_INSTRUCTION (R442). An unknown SPI instruction returns 0xFF bytes and sets FRAMING. -/
  | spiUnknownInstruction
  /-- TIME_NSEC_READ (R79). A read of TIME_NSEC latches the time word, qualifier and TB_CYCLES on one D1 edge for the channel. -/
  | timeNsecRead (e : EngId) (latch : LatchId)
  /-- MONITOR_REG_READ (R186). A read of a monitor register returns LOW and resets it to 4,095. -/
  | monitorRegRead (e : EngId) (k : Fin 12)
  /-- RING_STAT_READ (R18). A read of a ring status word returns DROPS and clears it. -/
  | ringStatRead (e : EngId) (ring : Fin 8)
  /-- CHANNEL_STAT_READ (R18). A read of a channel status word returns BAD_FRAMING, TAG_DUP and CRC_ERR and clears them. -/
  | channelStatRead (e : EngId) (ch : Fin 4)
  /-- DOMAIN_LOSS_CLEAR (R53). A write of 1 clears the DOMAIN_LOSS bits written. -/
  | domainLossClear (e : EngId) (mask : Word)
  /-- PACE_DROPPED_CLEAR (R60). A write of 1 clears PACE_DROPPED. -/
  | paceDroppedClear (e : EngId)
  /-- EVT_STATUS_CLEAR (R94). A write of 1 clears EDGE_LATE or EVT_OVF bits. -/
  | evtStatusClear (e : EngId) (mask : Word)
  /-- PORT_LINK_CHG_CLEAR (R111). A write of 1 clears PORT_LINK_CHG bits. -/
  | portLinkChgClear (e : EngId) (mask : Word)
  /-- HOST_LINK_CHG_CLEAR (R111). A write of 1 clears H0_CHG or H1_CHG. -/
  | hostLinkChgClear (e : EngId) (mask : Word)
  /-- STORM_CLEAR (R226). A write of 1 clears STORM bits of a port. -/
  | stormClear (e : EngId) (port : Fin 34) (mask : Word)
  /-- REF_HIST_CLEAR (R299). A write of 1 clears HIST bits of a reference. -/
  | refHistClear (e : EngId) (ref : Fin 42) (mask : Word)
  /-- FIRST_VALID_CLEAR (R361). A write of 1 to FIRST_VALID clears FIRST_VALID and FIRST_OVF so that FAULT_FIRST can latch again. -/
  | firstValidClear (e : EngId)
  /-- INJ_VALID_CLEAR (R361). A write of 1 to INJ_VALID clears INJ_VALID and INJ_OVF. -/
  | injValidClear (e : EngId)
  /-- IRQ_STATUS_CLEAR (R444). A write of 1 clears the W1C bits of IRQ_STATUS. -/
  | irqStatusClear (e : EngId) (mask : Word)
  /-- REGISTER_WRITE_IGNORED (R17). A write to a register or field without behaviour of its own is ignored. -/
  | registerWriteIgnored (e : EngId) (offset : Nat) (value : Word)
  /-- FW_SESSION_TIMEOUT (R463). A firmware write session sees no write for 60 s and is abandoned, so the slot reads INCOMPLETE. -/
  | fwSessionTimeout (u : UnitId)
  /-- FW_RESTART_EXECUTE (R466). 1 ms after a FW.RESTART reply the unit restarts. -/
  | fwRestartExecute (u : UnitId)
  /-- FUSE_BURN_DONE (R461). The SVN and revoke fuse burns started by an advance complete. -/
  | fuseBurnDone (u : UnitId)
  /-- SYS_READ_REG (R447). Reads up to 16 registers from an offset. -/
  | sysReadReg (a : Arrival) (ps : List Word)
  /-- SYS_SET_PACE (R61). Sets the module's pace on every running engine. -/
  | sysSetPace (a : Arrival) (ps : List Word)
  /-- SYS_SET_RING (R449). Enables or disables one host ring. -/
  | sysSetRing (a : Arrival) (ps : List Word)
  /-- SYS_SET_IRQ (R446). Sets the interrupt enables, the signalling mode and the moderation. -/
  | sysSetIrq (a : Arrival) (ps : List Word)
  /-- SYS_NOP (R448). Echoes its parameters and changes nothing. -/
  | sysNop (a : Arrival) (ps : List Word)
  /-- SYS_SET_MGMT (R438). Sets the command service of the management Ethernet port. -/
  | sysSetMgmt (a : Arrival) (ps : List Word)
  /-- PORT_SET_MODE (R114). Sets a front port's mode, abilities and address, taking the link down when these change. -/
  | portSetMode (a : Arrival) (ps : List Word)
  /-- PORT_SET_LINK_TIMERS (R113). Sets LINK_DOWN_HOLD and UP_DEBOUNCE of one port. -/
  | portSetLinkTimers (a : Arrival) (ps : List Word)
  /-- PORT_SET_TIME_LEVELS (R120). Sets a port's allowed time levels, its fallback and its wait. -/
  | portSetTimeLevels (a : Arrival) (ps : List Word)
  /-- PORT_SET_AHNUD_ETYPE (R124). Sets the Ahnud EtherType and restarts the exchange. -/
  | portSetAhnudEtype (a : Arrival) (ps : List Word)
  /-- PORT_SET_CUT_THROUGH (R194). Sets a port's CT_IN and CT_OUT. -/
  | portSetCutThrough (a : Arrival) (ps : List Word)
  /-- PARSE_SET_PORT (R140). Sets a port's byte limit, header limit, start node and actions. -/
  | parseSetPort (a : Arrival) (ps : List Word)
  /-- PARSE_WRITE_NODE (R131). Stages one parse-graph node. -/
  | parseWriteNode (a : Arrival) (ps : List Word)
  /-- PARSE_READ_NODE (R131). Returns a staged or committed node. -/
  | parseReadNode (a : Arrival) (ps : List Word)
  /-- PARSE_COMMIT (R138). Applies the staged graph between frames, or refuses it whole. -/
  | parseCommit (a : Arrival) (ps : List Word)
  /-- PARSE_LOAD_DEFAULTS (R133). Stages the shipped graph. -/
  | parseLoadDefaults (a : Arrival) (ps : List Word)
  /-- RULE_WRITE_ENTRY (R157). Writes one associative-memory entry atomically. -/
  | ruleWriteEntry (a : Arrival) (ps : List Word)
  /-- RULE_READ_ENTRY (R161). Returns one associative-memory entry. -/
  | ruleReadEntry (a : Arrival) (ps : List Word)
  /-- RULE_WRITE_PROFILE (R156). Writes a whole key profile between two lookups. -/
  | ruleWriteProfile (a : Arrival) (ps : List Word)
  /-- RULE_CLEAR_BANK (R153). Empties a shadow bank, sets its width and loads profile 0. -/
  | ruleClearBank (a : Arrival) (ps : List Word)
  /-- RULE_FLIP_BANK (R163). Schedules a bank flip 50 µs ahead. -/
  | ruleFlipBank (a : Arrival) (ps : List Word)
  /-- RULE_SET_ORG (R153). Sets the banked or unified organisation and invalidates every entry. -/
  | ruleSetOrg (a : Arrival) (ps : List Word)
  /-- RULE_LOAD_DEFAULTS (R161). Empties the shadow bank and writes the shipped rules. -/
  | ruleLoadDefaults (a : Arrival) (ps : List Word)
  /-- RULE_SET_PORT (R151). Sets a port's profile, PCP map, PVID and default class. -/
  | ruleSetPort (a : Arrival) (ps : List Word)
  /-- RULE_WRITE_REWRITE (R159). Writes a rewrite template. -/
  | ruleWriteRewrite (a : Arrival) (ps : List Word)
  /-- RULE_WRITE_METER (R160). Writes a two-rate meter with full buckets. -/
  | ruleWriteMeter (a : Arrival) (ps : List Word)
  /-- RULE_SET_MIRROR (R158). Sets a mirror session's port and class. -/
  | ruleSetMirror (a : Arrival) (ps : List Word)
  /-- FWD_ADD (R172). Adds a forwarding entry. -/
  | fwdAdd (a : Arrival) (ps : List Word)
  /-- FWD_DELETE (R172). Removes a forwarding entry. -/
  | fwdDelete (a : Arrival) (ps : List Word)
  /-- FWD_LOOKUP (R170). Returns a forwarding entry and its hit bit. -/
  | fwdLookup (a : Arrival) (ps : List Word)
  /-- FWD_FLUSH (R170). Removes entries by port, by VID or altogether. -/
  | fwdFlush (a : Arrival) (ps : List Word)
  /-- FWD_SET_LEARN (R171). Sets a port's learning mode, limit and limit action. -/
  | fwdSetLearn (a : Arrival) (ps : List Word)
  /-- FWD_SET_AGEING (R173). Sets AGE_S. -/
  | fwdSetAgeing (a : Arrival) (ps : List Word)
  /-- FWD_SET_VLAN (R170). Sets a VID's flood group. -/
  | fwdSetVlan (a : Arrival) (ps : List Word)
  /-- FWD_WRITE_MCAST (R200). Writes a multicast group's port mask. -/
  | fwdWriteMcast (a : Arrival) (ps : List Word)
  /-- FWD_SET_SPREAD (R174). Sets a spread group's hash and fields. -/
  | fwdSetSpread (a : Arrival) (ps : List Word)
  /-- FWD_WRITE_INDIRECT (R175). Writes entries of a spread group's indirection table. -/
  | fwdWriteIndirect (a : Arrival) (ps : List Word)
  /-- FWD_SET_MC_RESIDUE (R205). Sets the lossy multicast residue age. -/
  | fwdSetMcResidue (a : Arrival) (ps : List Word)
  /-- QUEUE_SET_CLASS (R238). Sets a class's loss mode, spill eligibility and thresholds. -/
  | queueSetClass (a : Arrival) (ps : List Word)
  /-- QUEUE_SET_PORT_FC (R230). Sets a port's flow control and headroom inputs. -/
  | queueSetPortFc (a : Arrival) (ps : List Word)
  /-- QUEUE_SET_MIN (R239). Sets a port's guaranteed minimums. -/
  | queueSetMin (a : Arrival) (ps : List Word)
  /-- QUEUE_SET_AGE (R239). Sets the AGE_US of one class queue. -/
  | queueSetAge (a : Arrival) (ps : List Word)
  /-- QUEUE_SET_BUFFER_MODE (R234). Sets the spill enable and its thresholds. -/
  | queueSetBufferMode (a : Arrival) (ps : List Word)
  /-- QUEUE_GET_OCCUPANCY (R240). Returns a port's account occupancies. -/
  | queueGetOccupancy (a : Arrival) (ps : List Word)
  /-- SCHED_SET_CLASS (R245). Sets a class's priority, quantum and shaper. -/
  | schedSetClass (a : Arrival) (ps : List Word)
  /-- SCHED_SET_PORT_SHAPER (R245). Sets a port shaper. -/
  | schedSetPortShaper (a : Arrival) (ps : List Word)
  /-- SCHED_WRITE_GCL (R247). Writes entries of the administrative gate control list. -/
  | schedWriteGcl (a : Arrival) (ps : List Word)
  /-- SCHED_COMMIT_GCL (R248). Schedules the administrative gate control list to run from CT. -/
  | schedCommitGcl (a : Arrival) (ps : List Word)
  /-- SCHED_SET_PREEMPT (R251). Sets frame preemption and verification of a port. -/
  | schedSetPreempt (a : Arrival) (ps : List Word)
  /-- SCHED_SET_LAUNCH (R252). Sets a port's launch queue modes, delays and LATE_MAX. -/
  | schedSetLaunch (a : Arrival) (ps : List Word)
  /-- SCHED_SET_REDUNDANCY (R258). Sets a PRP or HSR redundancy pair. -/
  | schedSetRedundancy (a : Arrival) (ps : List Word)
  /-- TIME_GET (R80). Returns device time, TB_CYCLES and TIME_STATUS. -/
  | timeGet (a : Arrival) (ps : List Word)
  /-- TIME_SET (R77). Schedules device time to read NEW_TIME at APPLY_AT. -/
  | timeSet (a : Arrival) (ps : List Word)
  /-- TIME_STEP (R77). Schedules a signed step of device time. -/
  | timeStep (a : Arrival) (ps : List Word)
  /-- TIME_SET_BOARD_DELAY (R86). Sets a lane's board delays. -/
  | timeSetBoardDelay (a : Arrival) (ps : List Word)
  /-- TIME_SET_EVTIN (R91). Configures one event input. -/
  | timeSetEvtin (a : Arrival) (ps : List Word)
  /-- TIME_READ_EVENTS (R93). Takes captures from an event input's queue. -/
  | timeReadEvents (a : Arrival) (ps : List Word)
  /-- TIME_SCHED_EDGE (R95). Schedules an edge on an event output. -/
  | timeSchedEdge (a : Arrival) (ps : List Word)
  /-- TIME_SET_DOMAIN (R266). Configures one PTP domain slot. -/
  | timeSetDomain (a : Arrival) (ps : List Word)
  /-- TIME_SET_PTP_PORT (R269). Sets a port's PTP state in one slot. -/
  | timeSetPtpPort (a : Arrival) (ps : List Word)
  /-- TIME_SET_TC (R283). Sets a port's transparent-clock mode. -/
  | timeSetTc (a : Arrival) (ps : List Word)
  /-- TIME_SET_ASYM (R280). Sets a port's fibre asymmetry model. -/
  | timeSetAsym (a : Arrival) (ps : List Word)
  /-- TIME_CAL_ASYM (R282). Starts asymmetry calibration against a pulse input. -/
  | timeCalAsym (a : Arrival) (ps : List Word)
  /-- TIME_SWITCH_DOMAIN (R285). Moves the steering of device time to the other slot at the next update. -/
  | timeSwitchDomain (a : Arrival) (ps : List Word)
  /-- TIME_PUT_SAMPLE (R277). Gives a host-run slot one offset sample. -/
  | timePutSample (a : Arrival) (ps : List Word)
  /-- TIME_ALIGN_OUTPUTS (R321). Re-aligns the selected outputs by step or by slew. -/
  | timeAlignOutputs (a : Arrival) (ps : List Word)
  /-- REF_SET_INPUT (R292). Configures one reference. -/
  | refSetInput (a : Arrival) (ps : List Word)
  /-- REF_SET_SLOT (R303). Sets a slot's selection and loop policy. -/
  | refSetSlot (a : Arrival) (ps : List Word)
  /-- REF_FORCE (R304). Forces a reference or holdover, or returns the slot to automatic selection. -/
  | refForce (a : Arrival) (ps : List Word)
  /-- REF_GET_STATUS (R323). Returns one reference's status and measurements. -/
  | refGetStatus (a : Arrival) (ps : List Word)
  /-- REF_SET_OSC (R314). Moves D0 to OSC_IN or back to the TCXO. -/
  | refSetOsc (a : Arrival) (ps : List Word)
  /-- OUT_SET_SYNTH (R317). Sets an output synthesizer's frequency. -/
  | outSetSynth (a : Arrival) (ps : List Word)
  /-- OUT_SET_CLKOUT (R318). Sets one clock output. -/
  | outSetClkout (a : Arrival) (ps : List Word)
  /-- OUT_SET_PPSOUT (R319). Sets one pulse output. -/
  | outSetPpsout (a : Arrival) (ps : List Word)
  /-- TWIN_GET_STATE (R350). Returns the twin status of the engine targeted. -/
  | twinGetState (a : Arrival) (ps : List Word)
  /-- TWIN_SWAP_ROLES (R345). Schedules a planned role swap at SW_AT. -/
  | twinSwapRoles (a : Arrival) (ps : List Word)
  /-- TWIN_SET_SWAP (R346). Sets the scheduled swap period and preparation time. -/
  | twinSetSwap (a : Arrival) (ps : List Word)
  /-- TWIN_REJOIN (R348). Releases a fenced engine from reset to rejoin. -/
  | twinRejoin (a : Arrival) (ps : List Word)
  /-- TWIN_FENCE (R348). Fences the named standby in reset. -/
  | twinFence (a : Arrival) (ps : List Word)
  /-- FAULT_SET_WINDOWS (R357). Sets FAULT_WIN_F2 and FAULT_WIN_F3. -/
  | faultSetWindows (a : Arrival) (ps : List Word)
  /-- FAULT_SET_EVENTS (R363). Sets which fault classes produce event records. -/
  | faultSetEvents (a : Arrival) (ps : List Word)
  /-- FAULT_GET_FIRST (R361). Returns FAULT_FIRST or FAULT_FIRST_INJ. -/
  | faultGetFirst (a : Arrival) (ps : List Word)
  /-- FAULT_ACT_NOW (R380). Ends a running F2 or F3 window of one fault at once. -/
  | faultActNow (a : Arrival) (ps : List Word)
  /-- FAULT_INJECT (R370). Injects a fault message at a source block's port. -/
  | faultInject (a : Arrival) (ps : List Word)
  /-- FAULT_INJECT_ECC (R372). Arms an ECC flip pattern on a memory word. -/
  | faultInjectEcc (a : Arrival) (ps : List Word)
  /-- FAULT_CLEAR_INJ (R374). Drops every armed ECC injection and cleans the written words. -/
  | faultClearInj (a : Arrival) (ps : List Word)
  /-- FAULT_RELEASE (R379). Releases an engine from Cul-de-sac entered after an F3 or give-up. -/
  | faultRelease (a : Arrival) (ps : List Word)
  /-- FAULT_READ_LOG (R364). Returns entries of the supervisor's fault log. -/
  | faultReadLog (a : Arrival) (ps : List Word)
  /-- CAL_SET (R396). Sets the enabled calibration kinds and CAL_STARVE_MAX. -/
  | calSet (a : Arrival) (ps : List Word)
  /-- CAL_GET_STATUS (R396). Returns the status of one calibration kind and index. -/
  | calGetStatus (a : Arrival) (ps : List Word)
  /-- CAL_RUN (R396). Runs one calibration and replies when it completes or is deferred. -/
  | calRun (a : Arrival) (ps : List Word)
  /-- CAL_REPAIR (R392). Starts a repair pass. -/
  | calRepair (a : Arrival) (ps : List Word)
  /-- STATS_READ (R403). Returns a range of counters latched on one D1 edge. -/
  | statsRead (a : Arrival) (ps : List Word)
  /-- STATS_CLEAR (R406). Clears a range of counters. -/
  | statsClear (a : Arrival) (ps : List Word)
  /-- STATS_SET_CHAIN (R402). Chains or unchains counter pairs. -/
  | statsSetChain (a : Arrival) (ps : List Word)
  /-- STATS_SET_SNAPSHOT (R404). Sets SNAP_PERIOD_MS. -/
  | statsSetSnapshot (a : Arrival) (ps : List Word)
  /-- STATS_SNAP_NOW (R404). Takes a snapshot at the next D1 edge. -/
  | statsSnapNow (a : Arrival) (ps : List Word)
  /-- STATS_SET_SAMPLER (R407). Sets the frame sampler. -/
  | statsSetSampler (a : Arrival) (ps : List Word)
  /-- FW_GET_INFO (R462). Returns the unit's firmware, slot and fuse information. -/
  | fwGetInfo (a : Arrival) (ps : List Word)
  /-- FW_WRITE_IMAGE (R463). Writes image data into a slot within a write session. -/
  | fwWriteImage (a : Arrival) (ps : List Word)
  /-- FW_VERIFY_IMAGE (R464). Verifies a slot's image and sets its state. -/
  | fwVerifyImage (a : Arrival) (ps : List Word)
  /-- FW_SELECT_SLOT (R465). Sets the boot record's PRIMARY or TRIAL slot, and may advance the fuses. -/
  | fwSelectSlot (a : Arrival) (ps : List Word)
  /-- FW_RESTART (R466). Replies, then restarts the unit, optionally in maintenance mode. -/
  | fwRestart (a : Arrival) (ps : List Word)
  /-- HOST_LINK_RETURN (R111). H0's PCIe link returns to L0, or H1's SGMII link regains signal and 8b/10b synchronisation at 1000 Mb/s, and the host port's up debounce starts. -/
  | hostLinkReturn (e : EngId) (h1 : Bool)
  /-- BLOCK_LOCK_CHANGE (R108). While a port is down, its PCS gains or loses signal energy, block lock or 8b/10b synchronisation, alignment-marker lock, or a Remote Fault sequence short of the full up condition, so CAUSE moves and receive calibration runs or is suspended. -/
  | blockLockChange (e : EngId) (port : Fin 34) (cond : PcsCond) (met : Bool)
  /-- LINK_TRAINING_COMPLETE (R103). Clause 72 training, Clause 37 auto-negotiation or the SGMII control-word exchange completes, so CAUSE leaves 7 for the first unmet up condition, or for 10 when the partner's ability is not supported. -/
  | linkTrainingComplete (e : EngId) (port : Fin 34) (supported pause : Bool)
  /-- PREEMPT_VERIFY_RESPONSE (R251). The partner's IEEE 802.3br respond mPacket arrives during verification, so PREEMPT reads 2 and preemption becomes active. -/
  | preemptVerifyResponse (e : EngId) (port : Fin 32)
  /-- L1SYNC_SEND (R265). On a port at A2, the engine sends its Signaling message with the L1_SYNC TLV, declaring its coherence and congruence. -/
  | l1syncSend (e : EngId) (port : Fin 32)
  /-- FOF_TIMESTAMP_RECEIVED (R286). The active's egress timestamp and sequenceId of a time message arrive at the standby over the Fofaene link, and the standby completes its shadow servo sample. -/
  | fofTimestampReceived (port : Fin 34) (stamp : Nat)
deriving DecidableEq, Repr

end Sys2Proof
end

