-- ==== Sys2Proof/Decode.lean ====
section
/-! DEFINITION. The opcode table of this block gives bits to none of its rows (each row has an empty list of
fields and no word), so no table word spells a command: the packets of the host channels are read by
Machine/Packets.lean from their bytes. -/

namespace Sys2Proof

/-- The command that a word of the opcode table spells: none, because no row of the table has bits
(log 5). -/
def decodeTableWord (_nbits _w : Nat) : Option Instr := none

end Sys2Proof
end

