-- ==== Sys2Proof/Machine/TypesHost.lean ====
section
/-! DEFINITION. The types of the host interface, the fault collector and the counters: chapters
"Command packets, rings and registers", "Fault collection and reaction" and "Counters, snapshots and
frame sampling". -/

namespace Sys2Proof.Machine

/-- A time word (R28) with its qualifier: `t` counts 2^-16 ns from the PTP epoch, `qual` is laid out as
the record or packet that carries it says (Table 2.7). -/
structure Stamp where
  t : Nat
  qual : BitVec 16
deriving DecidableEq, Repr

/-! ## Faults -/

/-- A fault message (Table 12.1). `act` (INJ_ACT of the injection) and `tag` (the ECC injection tag of
Table 12.6) travel with it and are no bits of the 64. -/
structure FaultMsg where
  source : Byte
  kind : Byte
  cls : BitVec 3
  inj : Bool
  conseq : Bool
  injMixed : Bool
  part : Bool
  address : Word
  seq : Byte
  act : Bool
  tag : Byte
deriving DecidableEq, Repr

/-- A running F2 or F3 window (R357): the message that started it. -/
structure FaultWindow where
  msg : FaultMsg
deriving DecidableEq, Repr

/-- A running block reset (R366): which, the source whose probation it will set, whether an injected message started
it, and whether it has passed its bound without being ready. -/
structure RunningReset where
  reset : BlockReset
  source : Byte
  kind : Byte
  inj : Bool
  late : Bool
deriving DecidableEq, Repr

/-- The tail of a shadow (R367): the set still casts a shadow until the named TB cycle. -/
structure ShadowTail where
  reset : BlockReset
  untilCycle : Nat
deriving DecidableEq, Repr

/-- A probation of R368, kept apart for real and injected messages (R371). -/
structure Probation where
  source : Byte
  inj : Bool
  untilCycle : Nat
deriving DecidableEq, Repr

/-- An entry of the ECC injection table (R372). `written` says that the flips stand in the stored word. -/
structure EccEntry where
  dram : Bool
  word : Nat
  pattern : BitVec 80
  tag : Byte
  act : Bool
  written : Bool
deriving DecidableEq, Repr

/-- One fault latch of R361 (FAULT_FIRST or FAULT_FIRST_INJ). -/
structure FaultLatch where
  valid : Bool
  ovf : Bool
  msg : BitVec 64
  time : Stamp
deriving DecidableEq, Repr

/-- The fault collector and the fault ring of one engine (R352-R381). -/
structure FaultState where
  /-- the outgoing slots of R353: at most one message per source block -/
  slots : List FaultMsg
  /-- the messages that have left their slots and are on the ring (R353, R354) -/
  ring : List FaultMsg
  /-- the report count of each source block -/
  seqs : List (Nat × Nat)
  first : FaultLatch
  firstInj : FaultLatch
  windows : List FaultWindow
  resets : List RunningReset
  shadows : List ShadowTail
  probations : List Probation
  counts : Vector Nat 5
  injCounts : Vector Nat 5
  countConseq : Nat
  escalations : Nat
  f4Latched : Bool
  f4Msg : BitVec 64
  f4Time : Stamp
  collectorOk : Bool
  /-- the checker has raised a fault since the power cycle: FAULT_FIRST and FAULT_FIRST_INJ latch nothing further (R375) -/
  frozen : Bool
  winF2Us : Nat
  winF3Us : Nat
  enables : BitVec 5
  ecc : List EccEntry
  tableBad : BitVec 4
  tableBadIndex : BitVec 28
deriving DecidableEq, Repr

/-! ## Counters, snapshots, sampler -/

/-- A snapshot latched and not yet written (R404, R405). -/
structure Snapshot where
  seq : Nat
  onDemand : Bool
  role : Nat
  switches : Nat
  stepCount : Nat
  time : Stamp
  cycles : Nat
  values : List (Nat × Nat)
  chained : List (Nat × Bool)
  wraps : List (Nat × Bool)
deriving DecidableEq, Repr

/-- A sampler setting that STATS.SET_SAMPLER has replaced: it still judges the frames stamped at or before `until16`, in 2^-16 ns
(R411). -/
structure OldSampler where
  until16 : Nat
  enable : Bool
  mode : Bool
  log2N : Nat
  meanN : Nat
  lfsr : BitVec 32
  mask : BitVec 34
  count : Nat
deriving DecidableEq, Repr

/-- The counter engine and the frame sampler of one engine (R397-R413). The counters are a canonical
list: rising indices, no entry equal to 0. -/
structure StatsState where
  counters : List (Nat × Nat)
  chained : List (Nat × Bool)
  wraps : List (Nat × Bool)
  snapPeriodMs : Nat
  snapSeq : Nat
  /-- no periodic snapshot is due up to this device time: the last one taken, or the completion of STATS.SET_SNAPSHOT (R404, R412) -/
  snapAt : Option Nat
  /-- the latched snapshot and how many of its eight segments are written -/
  snap : Option Snapshot
  smpEnable : Bool
  smpMode : Bool
  smpLog2N : Nat
  smpMeanN : Nat
  smpLfsr : BitVec 32
  smpMask : BitVec 34
  /-- eligible frames since the last choice (MODE 0), or the skip count left (MODE 1) -/
  smpCount : Nat
  smpSeq : Nat
  /-- the settings replaced, oldest first -/
  smpOld : List OldSampler
  onDie : List (List Word)
  overflow : List (List Word)
deriving DecidableEq, Repr

/-! ## Rings, channels, mailbox, interrupts -/

/-- A record for a ring from engine to host: its TYPE and its body (Table 15.9). `frees` is said of a reply: its tag is free once it is
written (R414). -/
structure RingRec where
  type : Byte
  body : List Word
  frees : Bool := true
deriving DecidableEq, Repr

/-- One buffer an engine has filled: the index and address of its descriptor, the word 3 written back
(DONE, FIRST, LAST, USED) and the words written (R431, R432). -/
structure BufWrite where
  idx : Word
  addr : BitVec 64
  word3 : Word
  words : List Word
deriving DecidableEq, Repr

/-- One of the eight rings of Table 15.7. `posted` are the descriptors the doorbells cover and the engine
has not finished; `waiting` are the records not yet written; `written` is what the engine has written into
host memory through this ring, oldest first. -/
structure Ring where
  enabled : Bool
  stopped : Bool
  err : BitVec 4
  sizeLog2 : Nat
  base : BitVec 64
  hostIdx : Word
  engineIdx : Word
  seq : Word
  drops : Nat
  posted : List Desc
  waiting : List RingRec
  written : List BufWrite
deriving DecidableEq, Repr

/-- The counts of one host channel (Table 15.15). -/
structure ChanStat where
  badFraming : Nat
  tagDup : Nat
  crcErr : Nat
deriving DecidableEq, Repr

/-- The window of the PCIe mailbox and its control register (R437). MBOX_CMD is a memory of 1,024
bytes: a canonical list of the bytes that are not 0. -/
structure Mailbox where
  cmd : List Host.Cell
  reply : List Byte
  busy : Bool
  ready : Bool
  replyLen : Nat
deriving DecidableEq, Repr

/-- The command service of the management Ethernet port (R438) and the reply frames sent (R440). -/
structure MgmtService where
  cmdEn : Bool
  allowAny : Bool
  allowed : List (BitVec 48)
  addr : BitVec 48
  sent : List (List Byte)
deriving DecidableEq, Repr

/-- The interrupt block (R444-R446): MSI-X messages sent, the bits whose moderation time runs, and the
bits with a signal held back. -/
structure IrqState where
  status : BitVec 16
  enable : BitVec 16
  msi : Bool
  pin : Bool
  modUs : Nat
  running : BitVec 6
  held : BitVec 6
  sent : List Nat
deriving DecidableEq, Repr

/-- What a reply answers (R423): a command, whose tag it frees and which the replay store keeps; a packet that failed one of checks
2 to 5, with a tag of its own or with one that another command holds. -/
inductive ReplyKind where
  | command
  | packet
  | shared
deriving DecidableEq, Repr

/-- A reply as the executing unit forms it (R417): everything but the words. -/
structure Reply where
  mirrored : Bool
  forwarded : Bool
  replayed : Bool
  engine : UnitId
  opcode : BitVec 16
  tag : BitVec 16
  status : BitVec 16
  gen : Word
  completed : Stamp
  body : List Word
  kind : ReplyKind := .command
deriving DecidableEq, Repr

/-- An entry of a replay store (R441). -/
structure ReplayEntry where
  crc : Word
  reply : Reply
deriving DecidableEq, Repr

/-- What a command that has been accepted still waits for (R426). -/
inductive Await where
  /-- SYS.SET_PACE: every running engine settled, or 2 ms (R62) -/
  | paceSettled
  /-- TIME.STEP and TIME.SET: the step is applied -/
  | stepApplied
  /-- RULE.FLIP_BANK: the drain of the old epoch ends -/
  | drainEnd
  /-- TIME.CAL_ASYM: its window ends -/
  | calAsym
  /-- TIME.SWITCH_DOMAIN: the switch takes place -/
  | domainSwitch
  /-- TIME.ALIGN_OUTPUTS: the slews end -/
  | alignOutputs
  /-- TWIN.SWAP_ROLES: the swap ends -/
  | swap
  /-- CAL.RUN: the calibration completes -/
  | calRun (kind : Fin 7) (idx : Nat)
  /-- CAL.REPAIR: the repair pass ends -/
  | repair
  /-- FW.SELECT_SLOT: the fuses are burned -/
  | fuseBurn
deriving DecidableEq, Repr

/-- A command that holds its tag while it waits for its own condition or for the commit
acknowledgement of the standby (R341, R426). -/
structure Waiting where
  arrival : Arrival
  opcode : BitVec 16
  params : List Word
  forwarded : Bool
  await : Option Await
  ackOf : Option Nat
  /-- it has committed at `gen` (R340, Table 15.3) -/
  committed : Bool
  gen : Nat
  mirrored : Bool
  status : BitVec 16
  completed : Stamp
  body : List Word
  /-- the engine it arrived at has been lost since: it is not replied to (R428) -/
  silent : Bool := false
deriving DecidableEq, Repr

/-- A command whose FENCE keeps it from being accepted (R425). `unit` and `forwarded` are where its target led when the packet
was taken (R420). -/
structure HeldCmd where
  arrival : Arrival
  unit : UnitId
  forwarded : Bool
  opcode : BitVec 16
  params : List Word
  /-- the tags of its channel that were outstanding when it was taken -/
  behind : List (BitVec 16)
deriving DecidableEq, Repr

/-- The host channels of one engine (R414-R449). -/
structure HostState where
  rings : Vector Ring 8
  outstanding : List (Channel × BitVec 16)
  stats : Vector ChanStat 4
  held : List HeldCmd
  waiting : List Waiting
  replay : List ReplayEntry
  mbox : Mailbox
  mgmt : MgmtService
  irq : IrqState
  pcieUp : Bool
  /-- the tags of ring commands that were outstanding when the PCIe link was lost: their replies are discarded (R429) -/
  ringLost : List (BitVec 16)
  cfgGen : Nat
deriving DecidableEq, Repr

/-- The supervisor's SPI port (R442). -/
structure SpiState where
  outstanding : List (BitVec 16)
  replay : List ReplayEntry
  replies : List Reply
  held : List HeldCmd
  lastRefused : Bool
  framing : Bool
  badFraming : Nat
  tagDup : Nat
  crcErr : Nat
deriving DecidableEq, Repr

end Sys2Proof.Machine
end

