-- ==== Sys2Proof/Machine/TypesModule.lean ====
section
/-! DEFINITION. The types of the module as a whole: supply and start-up, the supervisor, roles, pace and
clocks of each engine, the twin link, firmware slots. Chapters "Two engines, one clock: architecture",
"Twin engines and fail-over", "Start-up, firmware and compatibility" and "Supply, pins, package and
environment". -/

namespace Sys2Proof.Machine

/-! ## Engines: start-up phase, role, clocks, pace -/

/-- How far an engine has come in Table 16.1: without power, held in reset, out of reset (its register
window answers), running firmware, calibrated, and ready (it has reported ready and awaits or holds a
role). -/
inductive EngPhase where
  | off
  | held
  | released
  | firmware
  | calibrated
  | ready
deriving DecidableEq, Repr

/-- The role and heartbeat block of one engine (R36, R38). `role` is coded as ROLE of Table 1.2. -/
structure CoreState where
  phase : EngPhase
  role : Nat
  supOk : Bool
  fofUp : Bool
  /-- a sideband announcement of a supervisor restart holds off SUP_FAULT (R467) -/
  supRestart : Bool
  dieStep : Byte
  peerRole : Nat
  /-- the supervisor has granted control and the 20 us pause release is due or done (R228) -/
  mayStart : Bool
  /-- SYN-M has lost lock: the engine's firmware has halted (Table 1.5, D9) -/
  halted : Bool
deriving DecidableEq, Repr

/-- The lock judgement of one loop (R51): consecutive good and bad analog windows, fine windows; `fineLost` says that a
fine lock has been lost, so that the next one is a return (R316). -/
structure LoopJudge where
  good : Nat
  bad : Nat
  fineGood : Nat
  fineLost : Bool
deriving DecidableEq, Repr

/-- The clock domains of one engine (R48-R53): DOMAIN_LOCK and DOMAIN_LOSS of Tables 1.6 and 1.7. `lost` has the bit of a
loop that has lost its lock and not found it again: while it stands, what the loop feeds is squelched or held low (Table 1.5). -/
structure ClockState where
  lock : BitVec 16
  loss : BitVec 16
  lost : BitVec 16
  judges : List (Nat × LoopJudge)
  suspended : Bool
deriving DecidableEq, Repr

/-- The pace governor of one engine (R54-R60). Times count in microseconds. -/
structure PaceState where
  pace : BitVec 2
  /-- the pace at the last governor sample, to notice a change (R57) -/
  pacePrev : BitVec 2
  settled : Bool
  paceDropped : Bool
  vcoreMv : Nat
  sinceRaiseUs : Nat
  aboveUs : Nat
  belowUs : Nat
  goodUs : Nat
  ceilingUs : Nat
  /-- PACE_CEILING has been raised in this episode (R59) -/
  ceilingRaised : Bool
deriving DecidableEq, Repr

/-! ## The twin -/

/-- A configuration commit (R340): its generation and the command that made it. -/
structure Commit where
  gen : Nat
  /-- the interface level at which the active wrote the records (R349) -/
  level : BitVec 16 := 0
  opcode : BitVec 16
  params : List Word
  /-- what the active's execution settled beyond the parameters: the change time of a SCHED.COMMIT_GCL (R262), the TRIM_PS that a
  TIME.CAL_ASYM has written (R282) -/
  settled : Option Int := none
deriving DecidableEq, Repr

/-- A digest window that has closed and waits for its comparison (R337): its number and its boundary B. -/
structure DigestWin where
  number : Nat
  boundary : Nat
deriving DecidableEq, Repr

/-- The last switch as 0x0B10 reports it (Table 11.9). -/
structure LastSwitch where
  cause : Nat
  newOwner : Nat
  stale : Bool
  lost : Nat
deriving DecidableEq, Repr

/-- The twin block of one engine (R325-R351). -/
structure TwinState where
  sync : Nat
  copy : Nat
  selfFaulty : Bool
  peerFenced : Bool
  swapPending : Bool
  scrubRunning : Bool
  mismatchRun : Nat
  switches : Nat
  cfgGenSeen : Nat
  tbPhaseErr : Int
  last : LastSwitch
  digestWindow : Nat
  /-- frames decided and not yet in a closed window: ingress stamp and hash -/
  digestFrames : List (Nat × BitVec 64)
  /-- the boundary last closed, the boundary last compared, and the number of windows closed -/
  digestBoundary : Nat
  digestFrom : Nat
  digestNumber : Nat
  /-- windows closed and waiting for their comparison -/
  digestClosed : List DigestWin
  /-- the journal of the last 4,096 configuration commits, newest first (R342) -/
  journal : List Commit
  /-- occupancies last reported by the active per egress queue, and their R_T (R332) -/
  shadowOcc : List (Nat × Nat)
  shadowTime : Nat
  /-- frames the standby has decided per egress queue: queue and ingress stamp -/
  shadowDecided : List (Nat × Nat)
  /-- the standby admits and stores frames: since the give-up or in a swap's preparation -/
  storing : Bool
  /-- the device time is still to be set from the active's time word (R333) -/
  setDue : Bool
  /-- COPY has read 2 since the engine's last start (R346) -/
  everCurrent : Bool
  /-- SW_AT of a swap in preparation: the active starts no frame that would not end before it (R345) -/
  swapAt : Option Nat
deriving DecidableEq, Repr

/-- The Fofaene link (R42): up or down, configuration commits whose marker has been sent and not yet
received, and acknowledgements on their way back. -/
structure FofState where
  up : Bool
  /-- the link counts as down because beats are missed on it, while its lanes stand (R38, R347) -/
  beatLost : Bool
  commits : List Commit
  acks : List Nat
  /-- the active's last announced generation -/
  announced : Nat
deriving DecidableEq, Repr

/-! ## The supervisor -/

/-- What a heartbeat path last showed (R328). -/
inductive Beat where
  | none
  | alive
  | giveUp
  | absent
deriving DecidableEq, Repr

/-- The supervisor's record of one engine. `giveUps` are the module ticks of its give-ups, silent losses
included, that fencing looks back on (R348). -/
structure EngView where
  ready : Bool
  fenced : Bool
  beat : Beat
  fofBeat : Beat
  compatible : Bool
  eligible : Bool
  giveUps : List Nat
  resetPending : Bool
deriving DecidableEq, Repr

/-- A switchover or the switching part of a planned swap in progress (Table 11.3): `step` is the last
step of the table that has been reached. -/
structure SwitchRun where
  cause : Nat
  src : EngId
  dst : EngId
  step : Nat
  lost : Nat
  stale : Bool
deriving DecidableEq, Repr

/-- A planned swap that has been accepted or scheduled (R344-R346). -/
structure SwapPlan where
  swAt : Nat
  prepUs : Nat
  commanded : Bool
  prepared : Bool
deriving DecidableEq, Repr

/-- An entry of the supervisor's fault log (R364): message, engine, ROLE and device time. -/
structure LogEntry where
  msg : BitVec 64
  engine : EngId
  role : Nat
  time : Stamp
deriving DecidableEq, Repr

/-! ## Firmware -/

/-- A firmware slot of a flash (R457, R463, R464): STATE and REASON of Table 16.6 and the words written,
rising word offsets, an unlisted word reads as 0xFFFF_FFFF. `digest`, `keyHash` and `signed` are what the cryptographic checks form from
those words: SHA-384 of the body and of PUBKEY, and whether SIGNATURE verifies with PUBKEY (R459, log 8). -/
structure FwSlot where
  state : Nat
  reason : Nat
  words : List (Nat × Word)
  digest : BitVec 384
  keyHash : BitVec 384
  signed : Bool
deriving DecidableEq, Repr

/-- An open write session (R463). -/
structure FwSession where
  slot : Nat
  next : Nat
  prev : Nat
  unit : UnitId
  chan : Channel
deriving DecidableEq, Repr

/-- The boot record, fuses and running firmware of one unit (R457-R470). Slots are 0 and 1; `running` and
`trial` are none where Table 16.6 reads 0b11. -/
structure FwUnit where
  primary : Nat
  trial : Option Nat
  running : Option Nat
  trialRun : Bool
  fallback : Bool
  maintCause : Nat
  svnFuse : Nat
  /-- the four key-hash slots of the unit's fuses, each the SHA-384 of one public key (R459) -/
  keyHash : Vector (BitVec 384) 4
  revoked : BitVec 4
  fwVersion : Word
  level : BitVec 16
  levelMin : BitVec 16
  levelMax : BitVec 16
  runSvn : Nat
  runRevoke : BitVec 4
  runKey : BitVec 2
  session : Option FwSession
  /-- a fuse burn runs: its SVN target and the keys it revokes -/
  burn : Option (Nat × BitVec 4)
  /-- a restart commanded by FW.RESTART is due; true = with MAINT -/
  restart : Option Bool
deriving DecidableEq, Repr

/-- The supervisor (R37-R41, R325-R331, R346, R348, R442, R460, R467). -/
structure SupState where
  /-- its firmware runs -/
  running : Bool
  /-- no slot passed verification: the boot ROM serves SPI (R460) -/
  bootRom : Bool
  faulty : Bool
  restarting : Bool
  viewA : EngView
  viewB : EngView
  /-- 1.5 s have passed since supply-valid or the release of RESET_N (Table 11.1) -/
  bTimeout : Bool
  switch : Option SwitchRun
  swap : Option SwapPlan
  swapPeriodS : Nat
  swapPrepUs : Nat
  swapNext : Option Nat
  swapRetries : Nat
  log : List LogEntry
  fw : FwUnit
  slots : Vector FwSlot 2
  spi : SpiState
  waiting : List Waiting
deriving DecidableEq, Repr

/-- The supply and the power die (R451, R473-R477): supply-valid, brown-out, drawing from HOLDUP,
charging it, rails in regulation, RESET_N held low, steering latches. -/
structure PowerState where
  supplyValid : Bool
  brownOut : Bool
  onHoldup : Bool
  charging : Bool
  railsUp : Bool
  railsGood : Bool
  resetLow : Bool
  /-- the last step of Table 16.1 that the module as a whole has reached: 0 before supply-valid, then 1 to 5 -/
  startStep : Nat
  /-- both inputs have been below 3 V for 100 ms since the last supply-valid (R19, R475) -/
  cycled : Bool
  steer : EngId
  /-- the output phase aligner continues every output by itself (R334) -/
  alignerHolds : Bool
  /-- the aligner holds every output low (Table 12.7 step 6) -/
  alignerLow : Bool
  /-- an F4 holds the module in Cul-de-sac until a power cycle (R376, Table 12.8) -/
  f4Held : Bool
  /-- the levels that the schedules of the engine owning them call for at the EVTOUT balls (R95-R97) -/
  evtBalls : BitVec 8
deriving DecidableEq, Repr

end Sys2Proof.Machine
end

