-- ==== Sys2Proof/Machine/TypesTime.lean ====
section
/-! DEFINITION. The types of device time, stamps, event inputs and event outputs: chapter "Device time,
timebase and stamping". -/

namespace Sys2Proof.Machine

/-- A step accepted and not yet applied (R72, R77). `jump` is J and `rem` is r, both in 2^-16 ns; `applyAt`
is in 2^-16 ns of the scale before the step; `rate` is in ps/s; `servo` says that a servo asked for it. -/
structure PendingStep where
  jump : Int
  rem : Int
  applyAt : Nat
  rate : Nat
  servo : Bool
deriving DecidableEq, Repr

/-- A remainder being slewed: what is left, in units of 2^-32 ns x 10^-12, and the rate in ps/s. -/
structure Slew where
  remain : Int
  rate : Nat
deriving DecidableEq, Repr

/-- One latch of the time block (R79): the time word and TB_CYCLES. -/
structure TimeLatch where
  time : Stamp
  cycles : Nat
deriving DecidableEq, Repr

/-- An entry of the two-step table (R89). `port` is the egress port, `residence` is in 2^-16 ns. -/
structure TwoStep where
  domain : Nat
  source : BitVec 80
  seqId : Nat
  port : Nat
  residence : Int
deriving DecidableEq, Repr

/-- A captured edge (Table 2.12). -/
structure Capture where
  seq : Nat
  rise : Bool
  time : Stamp
deriving DecidableEq, Repr

/-- One event input (R91, R92). `last` is the instant of the last captured edge, in 2^-16 ns of the
engine's own TB count; `pinDelay` is in 2^-16 ns. -/
structure EvtIn where
  edge : Nat
  deliver : Bool
  deglitch : Nat
  pinDelay : Int
  queue : List Capture
  seq : Nat
  last : Option Nat
  /-- the SEQ last delivered, by ring or by command (R94) -/
  delivered : Option Nat
deriving DecidableEq, Repr

/-- A scheduled edge (R95): drive low, drive high or a pulse; `at_` is in 2^-16 ns of device time. -/
structure EdgeEntry where
  seq : Nat
  action : Nat
  widthNs : Nat
  at_ : Nat
deriving DecidableEq, Repr

/-- One event output (R95-R97). `fall` is the end of the pulse now high; `prevEnd` is the end of the last
entry scheduled. -/
structure EvtOut where
  sched : List EdgeEntry
  seq : Nat
  level : Bool
  fall : Option Nat
  prevEnd : Option Nat
  /-- a pulse rose while the aligner held the outputs (R97) -/
  missed : Bool
deriving DecidableEq, Repr

/-- The board delays that a lane had before a command changed them, and the TB cycle of that change (R86). -/
structure BoardOld where
  lane : Nat
  cycle : Nat
  rx : Int
  tx : Int
deriving DecidableEq, Repr

/-- Device time and what is stamped and timed by it (R66-R97). `dev` counts 2^-32 ns from the PTP epoch,
modulo 2^64 seconds; `inc` is INC in 2^-32 ns; `subUnit` is what a slew has moved below one unit of
`dev`, in units of 10^-12; `jumpSum` is the sum of every J so far in 2^-16 ns (R87). -/
structure TimeState where
  dev : Nat
  inc : Nat
  subUnit : Nat
  tbCycles : Nat
  tbSet : Bool
  stepCount : Nat
  jumpSum : Int
  step : Option PendingStep
  slew : Option Slew
  latches : Vector TimeLatch 3
  rxBoard : Vector Int 32
  txBoard : Vector Int 32
  boardOld : List BoardOld
  twoStep : List TwoStep
  evtIn : Vector EvtIn 8
  evtOut : Vector EvtOut 8
  evtOvf : BitVec 8
  edgeLate : BitVec 8
deriving DecidableEq, Repr

end Sys2Proof.Machine
end

