-- ==== Sys2Proof/Machine/Defaults.lean ====
section
/-! DEFINITION. The reset values of the parts of the state, as each chapter gives them after engine reset
or after a power cycle. -/

namespace Sys2Proof.Machine

/-- No time: a time word with every bit 0 (R27). -/
def stampZero : Stamp := { t := 0, qual := 0 }

/-- A fault latch that holds nothing (R361). -/
def latchReset : FaultLatch := { valid := false, ovf := false, msg := 0, time := stampZero }

/-- The fault collector after a power cycle (Table 12.10, R357, R363). -/
def faultReset : FaultState :=
  { slots := [], ring := [], seqs := [], first := latchReset, firstInj := latchReset, windows := [], resets := [],
    shadows := [], probations := [], counts := Vector.replicate 5 0,
    injCounts := Vector.replicate 5 0, countConseq := 0, escalations := 0, f4Latched := false,
    f4Msg := 0, f4Time := stampZero, collectorOk := true, frozen := false, winF2Us := 500, winF3Us := 50,
    enables := 0b11110#5, ecc := [], tableBad := 0, tableBadIndex := 0 }

/-- What an engine reset leaves of the collector: the two fault latches and the RS fields (R361, R19). -/
def faultEngineReset (f : FaultState) : FaultState :=
  { faultReset with first := f.first, firstInj := f.firstInj, f4Latched := f.f4Latched,
                    f4Msg := f.f4Msg, f4Time := f.f4Time, frozen := f.frozen }

/-- The pairs that are chained after engine reset (R402, Tables 14.1 and 14.2): ROUND_PASSES,
SPILL_CELLS, and RX_BYTES and TX_BYTES of each port. -/
def chainedByDefault (pair : Nat) : Bool :=
  pair == 21 || pair == 32 || (pair ≥ 144 && pair < 2048 && ((pair - 144) % 56 == 0 || (pair - 144) % 56 == 1))

/-- The counters, snapshots and sampler after engine reset (R399, R402, R412, Table 14.7). -/
def statsReset : StatsState :=
  { counters := [], chained := [], wraps := [], snapPeriodMs := 0, snapSeq := 0, snap := none,
    smpEnable := false, smpMode := false, smpLog2N := 0, smpMeanN := 0, smpLfsr := 0, smpMask := 0,
    smpCount := 0, smpSeq := 0, snapAt := none, smpOld := [], onDie := [], overflow := [] }

/-- A disabled ring (R449). -/
def ringReset : Ring :=
  { enabled := false, stopped := false, err := 0, sizeLog2 := 0, base := 0, hostIdx := 0,
    engineIdx := 0, seq := 0, drops := 0, posted := [], waiting := [], written := [] }

/-- The mailbox with nothing in it. MBOX_CMD reads as bytes of 0 (log 3). -/
def mailboxReset : Mailbox :=
  { cmd := [], reply := [], busy := false, ready := false, replyLen := 0 }

/-- Interrupts after engine reset (R446). -/
def irqReset : IrqState :=
  { status := 0, enable := 0, msi := false, pin := false, modUs := 0, running := 0, held := 0, sent := [] }

/-- The fused management address of an engine (R438), DESIGN CHOICE (log 1). -/
def fusedAddr : EngId → BitVec 48
  | .a => 0x020000000001#48
  | .b => 0x020000000002#48

/-- The management service after engine reset (R438). -/
def mgmtReset (e : EngId) : MgmtService :=
  { cmdEn := true, allowAny := true, allowed := [], addr := fusedAddr e, sent := [] }

/-- The host channels after engine reset (R441, R446, R449, Table 15.15). -/
def hostReset (e : EngId) : HostState :=
  { rings := Vector.replicate 8 ringReset, outstanding := [],
    stats := Vector.replicate 4 { badFraming := 0, tagDup := 0, crcErr := 0 }, held := [], waiting := [],
    replay := [], mbox := mailboxReset, mgmt := mgmtReset e, irq := irqReset, pcieUp := true, ringLost := [], cfgGen := 0 }

/-- The role block after engine reset (Table 1.2). -/
def coreReset : CoreState :=
  { phase := .held, role := 0, supOk := false, fofUp := false,
    supRestart := false, dieStep := 0, peerRole := 0, mayStart := false, halted := false }

/-- The clock block after engine reset (Tables 1.6 and 1.7). -/
def clockReset : ClockState := { lock := 0, loss := 0, lost := 0, judges := [], suspended := false }

/-- The governor after engine reset (Table 1.9). -/
def paceReset : PaceState :=
  { pace := 0, pacePrev := 0, settled := false, paceDropped := false, vcoreMv := 0,
    sinceRaiseUs := 0, aboveUs := 0, belowUs := 0, goodUs := 0, ceilingUs := 0, ceilingRaised := false }

/-- The twin block after a power cycle (Table 11.9). -/
def twinReset : TwinState :=
  { sync := 0, copy := 0, selfFaulty := false, peerFenced := false, swapPending := false,
    scrubRunning := false, mismatchRun := 0, switches := 0, cfgGenSeen := 0, tbPhaseErr := 0,
    last := { cause := 0, newOwner := 0, stale := false, lost := 0 }, digestWindow := 0,
    digestFrames := [], digestBoundary := 0, digestFrom := 0, digestNumber := 0, digestClosed := [], journal := [],
    shadowOcc := [], shadowTime := 0, shadowDecided := [], storing := false,
    setDue := false, everCurrent := false, swapAt := none }

/-- What an engine reset leaves of the twin block: SELF_FAULTY, which is RS, and the peer's fencing, which
is the supervisor's report. -/
def twinEngineReset (t : TwinState) : TwinState :=
  { twinReset with selfFaulty := t.selfFaulty, peerFenced := t.peerFenced, switches := t.switches }

/-- The header of the image a new module carries in slot 0 (Table 16.3): FW_VERSION 3.4.0, LEVEL 7 with
the range 6 to 8, SVN 0, key slot 0, for every part and stepping, as the manual's worked example has it
but for the security version (DESIGN CHOICE, log 8). -/
def factoryHeader (unit : Word) : List (Nat × Word) :=
  [(0, 0x4B524D31#32), (1, 0x01000700#32 ||| (unit <<< 16)), (2, 0x00FF0000#32), (3, 0x03040000#32),
   (4, 0x00070000#32), (5, 0x00060008#32), (6, 4#32), (7, 0#32),
   (8, 0#32), (9, 0#32), (10, 0#32), (11, 0#32), (12, 0#32), (13, 0#32), (14, 0#32), (15, 0#32), (16, 0#32), (17, 0#32), (18, 0#32),
   (19, 0#32), (44, 0#32), (45, 0#32), (46, 0#32), (47, 0#32), (48, 0#32), (49, 0#32), (50, 0#32), (51, 0#32),
   (52, 0#32), (53, 0#32), (54, 0#32), (55, 0#32)]

/-- Slot 0 of a new module: verified. -/
def factorySlot (unit : Word) : FwSlot := { state := 3, reason := 0, words := factoryHeader unit, digest := 0, keyHash := 0, signed := true }

/-- An empty slot. -/
def emptySlot : FwSlot := { state := 0, reason := 0, words := [], digest := 0, keyHash := 0, signed := false }

/-- A unit that has never been updated (R457): PRIMARY 0, TRIAL none, nothing running yet. -/
def fwUnitReset : FwUnit :=
  { primary := 0, trial := none, running := none, trialRun := false, fallback := false, maintCause := 0,
    svnFuse := 0, keyHash := Vector.replicate 4 0, revoked := 0, fwVersion := 0, level := 0, levelMin := 0, levelMax := 0,
    runSvn := 0, runRevoke := 0, runKey := 0, session := none, burn := none, restart := none }

/-- The supervisor's record of an engine that has reported nothing. -/
def viewReset : EngView :=
  { ready := false, fenced := false, beat := .none, fofBeat := .none, compatible := true,
    eligible := false, giveUps := [], resetPending := false }

/-- The SPI port with nothing in it (R442). -/
def spiReset : SpiState :=
  { outstanding := [], replay := [], replies := [], held := [], lastRefused := false, framing := false,
    badFraming := 0, tagDup := 0, crcErr := 0 }

/-- The supervisor before supply-valid. -/
def supReset : SupState :=
  { running := false, bootRom := false, faulty := false, restarting := false, viewA := viewReset,
    viewB := viewReset, bTimeout := false, switch := none, swap := none, swapPeriodS := 86400,
    swapPrepUs := 1000, swapNext := none, swapRetries := 0, log := [], fw := fwUnitReset,
    slots := #v[factorySlot 2#32, emptySlot], spi := spiReset, waiting := [] }

/-- The power die before supply-valid (R473). -/
def powerReset : PowerState :=
  { supplyValid := false, brownOut := false, onHoldup := false, charging := false, railsUp := false,
    railsGood := false, resetLow := false,
    startStep := 0, cycled := true, steer := .a, alignerHolds := false,
    alignerLow := false, f4Held := false, evtBalls := 0 }

/-- The Fofaene link before either engine has started. -/
def fofReset : FofState := { up := false, beatLost := false, commits := [], acks := [], announced := 0 }

/-- An event input after engine reset (R91). -/
def evtInReset : EvtIn :=
  { edge := 0, deliver := false, deglitch := 0, pinDelay := 0, queue := [], seq := 0, last := none,
    delivered := none }

/-- An event output after engine reset: low, nothing scheduled (R95). -/
def evtOutReset : EvtOut :=
  { sched := [], seq := 0, level := false, fall := none, prevEnd := none, missed := false }

/-- Device time after engine reset (R67, R69, R70, R86): 0, not set, INC 2 ns. -/
def timeReset : TimeState :=
  { dev := 0, inc := 2 * 2 ^ 32, subUnit := 0, tbCycles := 0, tbSet := false, stepCount := 0,
    jumpSum := 0, step := none, slew := none,
    latches := Vector.replicate 3 { time := stampZero, cycles := 0 },
    rxBoard := Vector.replicate 32 0, txBoard := Vector.replicate 32 0, boardOld := [], twoStep := [],
    evtIn := Vector.replicate 8 evtInReset, evtOut := Vector.replicate 8 evtOutReset, evtOvf := 0,
    edgeLate := 0 }

end Sys2Proof.Machine
end

