-- ==== Sys2Proof/Machine/TypesPorts.lean ====
section
/-! DEFINITION. The types of lanes, ports, the Ahnud exchange and the speed monitors: chapters "Lanes, ports and
negotiation" and "The Crossing: clockless fabric and latency". -/

namespace Sys2Proof.Machine

/-- The Ahnud exchange of one front port (R119-R123). `partner` is the LEVELS field of the last valid partner frame
since the port was last declared up; `heard` says that a valid frame has come since the latest entry into
Offering. -/
structure Ahnud where
  state : Nat
  level : Nat
  allowed : BitVec 4
  fallback : Nat
  waitMs : Nat
  nonce : Word
  peerNonce : Word
  seq : Nat
  partner : Option (BitVec 4)
  heard : Bool
deriving DecidableEq, Repr

/-- One port, front or host (R98-R118). MODE and the abilities are as PORT.SET_MODE sets them; `modeNow` is MODE_NOW.
The PCS conditions read as met (`signal`, `lock`, `aligned`) or as asserted (`remote`, `hiBer`). `unsupported`
says that the partner's ability is not supported (CAUSE 10). -/
structure PortState where
  mode : Nat
  modeNow : Nat
  train : Bool
  advert : BitVec 8
  fecReq : Nat
  fecNow : Nat
  addr : BitVec 48
  up : Bool
  cause : Nat
  anState : Nat
  anRestarts : Nat
  signal : Bool
  lock : Bool
  aligned : Bool
  remote : Bool
  hiBer : Bool
  unsupported : Bool
  candidate : Nat
  debounce : Bool
  chg : Bool
  holding : Bool
  holdStart : Nat
  holdUs : Nat
  debounceUs : Nat
  ahnud : Ahnud
deriving DecidableEq, Repr

/-- One speed monitor (R183-R186). `stuck` counts the windows in a row that read 0 or 4,095. -/
structure Monitor where
  speed : Nat
  valid : Bool
  low : Nat
  excl : Bool
  good : Nat
  bad : Nat
  stuck : Nat
  below : Bool
deriving DecidableEq, Repr

/-- A flit (R178): 64 bytes of the frame whose handle it carries, from byte 64 x `index` on; the last one holds the remainder. -/
structure Flit where
  frame : Nat
  index : Nat
  last : Bool
deriving DecidableEq, Repr

/-- Lanes, ports and the Crossing of one engine. `ctIn` and `ctOut` are the cut-through enables (R194). The flits by channel (R177,
R179): `staging` those held at the ingress side, oldest first, `flight` those that have entered the Crossing by a channel and are in
flight, `arrived` those that have left it by a channel's egress side, kept for reassembly while their frame stands. `awaitWindow`
says that the monitors have been restarted and no window has ended since (R185); `stomp` is STOMP_LAST (R199). -/
structure PortsState where
  ports : Vector PortState 34
  etype : BitVec 16
  ctIn : BitVec 34
  ctOut : BitVec 34
  monitors : Vector Monitor 12
  minSpeed : Nat
  lostEpisode : Bool
  vcoreHold : Bool
  awaitWindow : Bool
  staging : Vector (List Flit) 10
  flight : Vector (List Flit) 10
  arrived : Vector (List Flit) 10
  stomp : Word
deriving DecidableEq, Repr

end Sys2Proof.Machine
end

