-- ==== Sys2Proof/Machine/TypesFrames.lean ====
section
/-! DEFINITION. The types of frames and of what parses, classifies, stores, schedules and duplicates them: chapters
"Parser", "Classification, forwarding tables and the Roundabout", "The Crossing", "Buffers, admission and
back-pressure" and "Egress scheduling and timed launch". -/

namespace Sys2Proof.Machine

/-! ## Parser -/

/-- Depth and actions of one port (Table 4.6). -/
structure PortParse where
  byteLimit : Nat
  hdrM1 : Nat
  start : Nat
  prp : Bool
  confAct : Nat
  truncAct : Nat
deriving DecidableEq, Repr

/-- The parser of one engine (R131-R148). A node is its 15 words (Table 4.2); a node not listed in `graph` is unused,
all zeros; `staged` lists the nodes written and not yet committed. -/
structure ParserState where
  graph : List (Nat × List Word)
  staged : List (Nat × List Word)
  gen : Nat
  ports : Vector PortParse 34
  lastTrunc : Word
  lastConf : Word
deriving DecidableEq, Repr

/-- A failed check of Table 4.7: its KIND and the node. -/
structure Conflict where
  kind : Nat
  node : Nat
deriving DecidableEq, Repr

/-- The result of a walk (R127): the recorded headers with node, kind and offset, the flags of Table 4.1, where and
why it ended. `reason` is the truncation reason, 0 for none; `head` is the first failed head-resolved check and
`tail` the first failed tail-resolved one. -/
structure ParseResult where
  hdrs : List (Nat × Nat × Nat)
  frag : Bool
  fragLater : Bool
  csumBad : Bool
  reason : Nat
  endNode : Nat
  endOff : Nat
  deadEnd : Bool
  head : Option Conflict
  tail : Option Conflict
deriving DecidableEq, Repr

/-! ## Classifier -/

/-- An entry of the associative memory in use (R157): key and mask as numbers, most significant word first, and the
four action words of Table 5.6. -/
structure AmEntry where
  key : Nat
  mask : Nat
  action : List Word
deriving DecidableEq, Repr

/-- One of the two banks (R153, R155): entries that are valid, and the profiles' descriptors. -/
structure AmBank where
  wide : Bool
  entries : List (Nat × AmEntry)
  profiles : List (Nat × List Word)
deriving DecidableEq, Repr

/-- Classification of one port (Table 5.1). -/
structure PortRule where
  profile : Nat
  pcpMap : BitVec 24
  pvid : Nat
  defClass : Nat
deriving DecidableEq, Repr

/-- A meter (R160) and its two buckets. `rest` keeps what has accrued below one byte, for each bucket, and `at_` the
device time of the last update in 2^-16 ns. -/
structure Meter where
  cir : Nat
  pir : Nat
  cbs : Nat
  pbs : Nat
  tc : Nat
  tp : Nat
  restC : Nat
  restP : Nat
  at_ : Nat
deriving DecidableEq, Repr

/-- A drain in progress (R164): the old epoch and bank, FLIP_AT, and the frames discarded at the bound. -/
structure Drain where
  epoch : Nat
  bankB : Bool
  flipAt : Nat
deriving DecidableEq, Repr

/-- A spread group's hash (Table 5.16). -/
structure Spread where
  fields : BitVec 12
  inner : Bool
  toeplitz : Bool
  seed : Word
  key : List Word
deriving DecidableEq, Repr

/-- A forwarding entry (Table 5.13) with its hit bit. -/
structure FdbEntry where
  static : Bool
  kind : Nat
  dest : Nat
  hit : Bool
deriving DecidableEq, Repr

/-- Learning on one port (FWD.SET_LEARN). -/
structure PortLearn where
  mode : Nat
  limitDiscard : Bool
  limit : Nat
deriving DecidableEq, Repr

/-- The classifier and its tables (R149-R176). `lastFlip` is the FLIP_AT of the last flip, which frames stamped around it are still
judged by (R163). Forwarding entries are keyed by VID x 2^48 + address; an indirection entry by group x 256 +
index. `floods` lists the VIDs whose group is not 0. `changed` lists what the active's learning and ageing have changed since the
last running commit (R340): an entry as it stands now, none for one that has been removed. `voided` lists the meters and mirror sessions
that R365 has made invalid, as table code and index, until software writes them again. -/
structure RuleState where
  unified : Bool
  bankA : AmBank
  bankB : AmBank
  liveB : Bool
  epoch : Nat
  flip : Option Nat
  lastFlip : Option Nat
  drain : Option Drain
  ports : Vector PortRule 34
  rewrites : List (Nat × List Word)
  meters : List (Nat × Meter)
  mirrors : List (Nat × Nat × Nat)
  fdb : List (Nat × FdbEntry)
  learn : Vector PortLearn 34
  ageS : Nat
  floods : List (Nat × Nat)
  mcast : List (Nat × BitVec 34)
  spreads : List (Nat × Spread)
  indirect : List (Nat × Word)
  changed : List (Nat × Option FdbEntry)
  voided : List (Nat × Nat)
deriving DecidableEq, Repr

/-! ## Frames and copies -/

/-- How far a frame has been carried as a redundant frame (R146, R259, R261): it arrived with a PRP trailer or with an
HSR tag; `seq` is its sequence number, `off` where the recorded HSR header stands in the bytes of the pass in force, none when they
hold none. -/
structure RedTag where
  hsr : Bool
  seq : Nat
  off : Option Nat
deriving DecidableEq, Repr

/-- A frame the engine holds, until its last copy has ended (R200). `ingress` is coded as R99, 63 for a frame the
engine originates; `jumps` is the sum of every J so far at the ingress stamp (R87). `bytes` are those of the pass
in force, without FCS, and `orig` those received. `hdrs` are the recorded headers as kind and offset. `cells` are
the pointers of the cells it holds, charged to the ingress account of class `acls`; `pMin` to `pRes` and `pEg` say from which
reservations they were taken (R220), `round` how many of them hold places of the Roundabout instead (R169). `pp` and `pr` are the
settings of its port as its first byte came (R140, Table 5.1). `refs` counts what still holds the frame: what brings it, its copies
still to end, and its mirror and trap copies, which R200 leaves out of its own count. `bad` is the stomp cause of a frame found bad
before its tail, 0 for none; `several` says that several copies of it were made (MULTI of Table 14.4),
`phi` is the phase of its port's detector at the ingress stamp (R279), and `slot` the slot of a PTP message that the engine originates (R284).
`noTag` says that RED_NO_TAG has counted it; `seqs` are the sequence numbers given to its copies, by
pair (R259). -/
structure Frame where
  ingress : Nat
  stamp : Stamp
  jumps : Int
  bytes : List Byte
  orig : List Byte
  hdrs : List (Nat × Nat)
  pflags : BitVec 8
  truncPtp : Bool
  pp : PortParse
  pr : PortRule
  epoch : Nat
  edge : Bool
  hit0 : Nat
  hit1 : Nat
  cls : Nat
  acls : Nat
  dropElig : Bool
  cells : List Nat
  under : Bool
  pMin : Nat
  pHr : Nat
  pShared : Nat
  pRes : Nat
  pEg : List (Nat × Nat)
  round : Nat
  refs : Nat
  sample : Option Nat
  trap : Nat
  red : Option RedTag
  bad : Nat
  multi : Bool
  several : Bool
  pass1 : Bool
  noTag : Bool
  seqs : List (Nat × Nat)
  phi : Int
  slot : Nat
deriving DecidableEq, Repr

/-- A copy of a frame for one egress queue. `launch` is its launch time in 2^-16 ns; `tag` the STAMP_TAG of a
timestamp request; `rewrites` the templates applied at egress; `mirror` a copy of the frame as received; `trap`
the reason of a trap copy, 0 otherwise; `staged` says that a spilled
frame has been fetched into drain staging (R235); `held` that the guard has held it once (R249); `enq` is the
device time of its admission; `charged` says that its cells count against its queue (R220); `ring` that it goes on round an HSR ring
unchanged (R261). -/
structure Copy where
  frame : Nat
  port : Nat
  queue : Nat
  cls : Nat
  launch : Option Nat
  tag : Option Nat
  rewrites : List Nat
  mirror : Bool
  trap : Nat
  staged : Bool
  held : Bool
  enq : Nat
  charged : Bool
  ring : Bool
deriving DecidableEq, Repr

/-- A transmission: a copy of a frame, or a MAC control frame. `bytes` is what the MAC sends before the FCS; `stomp`
is the stomp cause, 0 for none (Table 6.8). `ct` says that the copy is cut through and `begun` that its head has
left: a cut-through copy claims the transmitter before (R192). `pre` says that it goes out on the preemptable MAC,
`left` how many bytes were still to be sent when its last fragment began, at `started`; `starved` that an underrun has been
counted (R193). -/
structure Tx where
  copy : Option Copy
  bytes : List Byte
  stamp : Stamp
  residence : Int
  stomp : Nat
  ct : Bool
  begun : Bool
  pre : Bool
  left : Nat
  started : Nat
  starved : Bool
deriving DecidableEq, Repr

/-- A MAC control frame waiting to be sent (R223): the class-enable vector, 0 for PAUSE, and the timer. -/
structure Ctl where
  pfc : Bool
  vec : BitVec 8
  quanta : Nat
deriving DecidableEq, Repr

/-! ## Egress -/

/-- A token bucket (R245): `rate` in kb/s, `burst` in bytes, credit in kb/s x 2^-16 ns, of which 65,536,000,000 are one
bit. -/
structure Shaper where
  on : Bool
  rate : Nat
  burst : Nat
  credit : Int
deriving DecidableEq, Repr

/-- One class of a port's scheduler (Table 8.1). -/
structure ClassSched where
  strict : Bool
  quantum : Nat
  deficit : Int
  shaper : Shaper
deriving DecidableEq, Repr

/-- A gate control list: entries, LENGTH, BASE and CYCLE in 2^-16 ns. -/
structure Gcl where
  entries : List Word
  base : Nat
  cycle : Nat
deriving DecidableEq, Repr

/-- A commit that waits for its change time (R248): none stops the lists. -/
structure GclCommit where
  ct : Nat
  list : Option Gcl
deriving DecidableEq, Repr

/-- Frame preemption of one port (R251): PREEMPT as Table 8.8 codes it, the verify mPackets sent so far. -/
structure Preempt where
  enable : Bool
  verify : Bool
  addFrag : Nat
  classes : BitVec 8
  verifyMs : Nat
  state : Nat
  tries : Nat
deriving DecidableEq, Repr

/-- Egress of one port (R242-R257). `admin` lists the entries of the administrative list that are not 0; `entry`
numbers the operational entry in force and `cycleStart` is when its cycle began. -/
structure Egress where
  tx : Option Tx
  cut : Option Tx
  ctl : List Ctl
  classes : Vector ClassSched 8
  last : Nat
  shaper : Shaper
  creditAt : Nat
  admin : List (Nat × Word)
  oper : Option Gcl
  commit : Option GclCommit
  entry : Nat
  cycleStart : Nat
  gates : BitVec 8
  hold : Bool
  preempt : Preempt
  lq0Mode : Bool
  lq1Mode : Bool
  lateMaxNs : Nat
  delay0 : Nat
  delay1 : Nat
deriving DecidableEq, Repr

/-- A redundancy pair (Table 8.7): MODE 0 off, 1 PRP, 2 HSR, and the shared counter of R260. -/
structure Pair where
  mode : Nat
  portA : Nat
  portB : Nat
  forgetMs : Nat
  seq : Nat
deriving DecidableEq, Repr

/-- An entry of the proxy table (R260); times in 2^-16 ns. -/
structure Proxy where
  pair : Nat
  src : Nat
  seq : Nat
  used : Nat
deriving DecidableEq, Repr

/-- An entry of the duplicate table (R261). -/
structure Dup where
  pair : Nat
  src : Nat
  seq : Nat
  port : Nat
  at_ : Nat
deriving DecidableEq, Repr

/-- Egress of one engine: the ports, the 340 queues keyed by 10 x port + queue, and redundancy. `newest` is S_q of R345 by
queue: the newest ingress stamp of the frames started from it, of a launch queue the latest launch time. -/
structure EgressState where
  ports : Vector Egress 34
  queues : List (Nat × List Copy)
  pairs : Vector Pair 8
  proxies : List Proxy
  dups : List Dup
  dupEvictAt : Option Nat
  newest : List (Nat × Nat)
deriving DecidableEq, Repr

/-! ## Buffers -/

/-- An account (R217): occ, hr_use, the cells taken from its minimum, XOFF and the TB cycle from which its time in XOFF
is still to be counted, and whether HR_OVF has been raised since the last XON. -/
structure Acct where
  occ : Nat
  hrUse : Nat
  minUse : Nat
  xoff : Bool
  xoffAt : Nat
  ovf : Bool
deriving DecidableEq, Repr

/-- A class's buffering (Table 7.4). -/
structure ClassBuf where
  lossless : Bool
  spill : Bool
  alphaIn : Nat
  alphaOut : Nat
deriving DecidableEq, Repr

/-- A port's flow control (Table 7.5) and what the partner has paused: `timers` are the quanta of running timers, 0
for none; `storm` the STORM bits, `tripped` the class queues whose pause in progress the watchdog has counted (R226). `peerPause` says whether the
partner of the last negotiation offered symmetric PAUSE, none where none has ended (R222). -/
structure PortFc where
  mode : Nat
  lenM : Nat
  peerNs : Nat
  quanta : Nat
  maxFrame : Nat
  minFrame : Nat
  wdMs : Nat
  xonDelta : Nat
  hrShort : Bool
  pauseOff : Bool
  peerPause : Option Bool
  timers : Vector Nat 8
  storm : BitVec 8
  tripped : BitVec 8
deriving DecidableEq, Repr

/-- A headroom reservation (R230, R232): its size and whether it is placed in the Underpass. -/
structure Headroom where
  size : Nat
  under : Bool
deriving DecidableEq, Repr

/-- What an ingress MAC does with a frame that is arriving: counted only, a runt, consumed as MAC control or as an Ahnud
frame, or passed on (R107, R123, R209, R224). -/
inductive RxKind where
  | counted
  | runt
  | control
  | ahnud
  | data
deriving DecidableEq, Repr

/-- What becomes of a received PTP frame (Table 9.3, R284): `held` is a Pdelay message that a port of TC_MODE 2 neither answers nor
forwards. -/
inductive PtpFate where
  | ordinary
  | take (d : Nat)
  | peer
  | held
  | toHost (reason : Nat)
  | disabled
  | bad
deriving DecidableEq, Repr

/-- A frame on its way in, with its ingress stamp (R83). `bytes` are those received before the FCS and `jabber` says that the MAC ended it (R209). Of a
frame that is passed on: its handle, the copies stored for its tail, the parse of pass 0, `act` the truncation or conflict action
taken at the head (0 none, 1 L2, 2 trap, 3 discard), `trap` the reason of the trap copy due, 0 for none, `recirc` its Roundabout
action, `fate` what Table 9.3 says of it as it is decided (R264), `host` the
reason with which it delivers it to software, 0 for none, `tag` that of a timestamp request while only a trap or host copy is
to come of it (R90), `cut` that a copy was cut through, `noCopy` the discard cause of Table 14.5 when it
has no copy, and what its decision record holds (Table 11.5). -/
structure Arriving where
  kind : RxKind
  stamp : Stamp
  bytes : List Byte
  jabber : Bool
  frame : Nat
  copies : List Copy
  parse : ParseResult
  act : Nat
  trap : Nat
  recirc : Option (List Word)
  fate : PtpFate
  host : Nat
  tag : Option Nat
  cut : Bool
  noCopy : Nat
  flags : BitVec 8
  queue : Nat
  dest : BitVec 34
  vid : Nat
deriving DecidableEq, Repr

/-- A frame in the Roundabout (R166, R167): its handle and its pass 0 action; a host frame makes its pass 0 there and has
none. `vid` is the VID of pass 0, `learn` its learning outcome and `flags` the record's flags so far; `tag` the STAMP_TAG of a host frame's timestamp request. -/
structure RoundEntry where
  frame : Nat
  action : Option (List Word)
  vid : Nat
  learn : Nat
  flags : BitVec 8
  tag : Option Nat
deriving DecidableEq, Repr

/-- Buffers of one engine (R207-R241). Accounts are keyed by 8 x port + class (ingress) and 10 x port + queue
(egress); `ages` by 8 x port + class. `retired` are the cells out of use, `weak` the words with corrections in consecutive scrub
passes, `poisoned` the words of occupied cells that are uncorrectable or hold their poison bit, `injPoisoned` the cells that an injected
error has poisoned (Table 12.6). `waiting` are the copies of lossless frames that found no
residue entry, `residueStall` the TB cycle since when lossless replication is stopped and not yet counted (R204). `spillWait` are
the cells that waited in spill staging at the device time `spillAt` (R234), `hrWait` those of headroom that waited for the bus before
them (R236), `drainLast` the queue last fetched for (R235). -/
structure BufState where
  frames : List (Nat × Frame)
  nextFrame : Nat
  arriving : List (Nat × Arriving)
  round : List RoundEntry
  residue : List Copy
  waiting : List Copy
  residueAgeUs : Nat
  residueStall : Option Nat
  ingress : List (Nat × Acct)
  egress : List (Nat × Acct)
  inMin : List (Nat × Nat)
  egMin : List (Nat × Nat)
  classes : Vector ClassBuf 8
  fc : Vector PortFc 34
  headroom : List (Nat × Headroom)
  ages : List (Nat × Nat)
  spillEn : Bool
  spillOn : Nat
  spillOff : Nat
  spilling : Bool
  spillWait : Nat
  hrWait : Nat
  spillAt : Nat
  drainLast : Option Nat
  retired : List Nat
  weak : List (Nat × Nat)
  poisoned : List Nat
  injPoisoned : List Nat
  eccLast : Word
  limitRaised : BitVec 2
deriving DecidableEq, Repr

end Sys2Proof.Machine
end

