-- ==== Sys2Proof/Machine/DefaultsFrames.lean ====
section
/-! DEFINITION. The reset values of ports, parser, classifier, buffers and egress. -/

namespace Sys2Proof.Machine

/-- The Ahnud exchange after engine reset (Tables 3.2 and 3.12). NONCE is 0 until one is drawn (log 3). -/
def ahnudReset : Ahnud :=
  { state := 0, level := 0, allowed := 0b1111#4, fallback := 1, waitMs := 2000, nonce := 0, peerNonce := 0, seq := 0,
    partner := none, heard := false }

/-- A port after engine reset: disabled (Tables 3.2 and 3.8). The address is 0 (log 3). -/
def portReset : PortState :=
  { mode := 0, modeNow := 0, train := false, advert := 0, fecReq := 0, fecNow := 0, addr := 0, up := false, cause := 1,
    anState := 0, anRestarts := 0, signal := false, lock := false, aligned := false, remote := false, hiBer := false,
    unsupported := false, candidate := 0, debounce := false, chg := false, holding := false, holdStart := 0,
    holdUs := 50000, debounceUs := 1000, ahnud := ahnudReset }

/-- A speed monitor after engine reset (Table 6.5). -/
def monitorReset : Monitor :=
  { speed := 0, valid := false, low := 4095, excl := false, good := 0, bad := 0, stuck := 0, below := false }

/-- Ports and Crossing after engine reset (R119, R194, Table 6.5). H1 runs SGMII, MODE 2 (R111). -/
def portsReset : PortsState :=
  { ports := vmodOne (Vector.replicate 34 portReset) 33 { portReset with mode := 2, modeNow := 2, cause := 2 },
    etype := 0x88B6, ctIn := BitVec.allOnes 34, ctOut := 0x0FFFFFFFF#34, monitors := Vector.replicate 12 monitorReset,
    minSpeed := 0, lostEpisode := false, vcoreHold := false, awaitWindow := false, staging := Vector.replicate 10 [],
    flight := Vector.replicate 10 [], arrived := Vector.replicate 10 [], stomp := 0 }
where
  /-- A vector with one element replaced. -/
  vmodOne (v : Vector PortState 34) (i : Fin 34) (x : PortState) : Vector PortState 34 := v.set i.val x i.isLt

/-! ## The shipped parse graph (Table 4.4) -/

/-- A transition word: VALID, TARGET and VALUE. -/
def transition (value target : Nat) : Word := BitVec.ofNat 32 (2 ^ 31 + target * 2 ^ 24 + value)

/-- A node's 15 words from its fields (Table 4.2). `len` is LEN_MODE, LEN_BASE, LEN_SCALE, LEN_OFF and LEN_MASK;
`next` is NEXT_OFF and NEXT_MASK. -/
def parseNode (kind check : Nat) (len : Nat × Nat × Nat × Nat × Nat) (next : Nat × Nat) (visits miss : Nat)
    (ts : List (Nat × Nat)) : List Word :=
  let w := ts.map fun (v, t) => transition v t
  [BitVec.ofNat 32 (kind * 2 ^ 24 + len.1 * 2 ^ 22 + len.2.1 * 2 ^ 8 + len.2.2.1 * 16 + check),
   BitVec.ofNat 32 (len.2.2.2.1 * 2 ^ 26 + len.2.2.2.2 * 2 ^ 16 + next.2),
   BitVec.ofNat 32 (next.1 * 2 ^ 26 + (visits - 1) * 2 ^ 20 + miss * 2 ^ 8)] ++ w ++ List.replicate (12 - w.length) 0

/-- "ETH set" of Table 4.4 without HSR; `etype` is AHNUD_ETYPE. -/
def ethSet (etype : Nat) : List (Nat × Nat) :=
  [(0x8100, 1), (0x88A8, 1), (0x8847, 2), (0x8848, 2), (0x0800, 4), (0x86DD, 5), (0x88F7, 17), (etype, 19),
   (0x88B5, 20), (0x88CC, 21)]

/-- "ETH set" of Table 4.4. -/
def ethSetHsr (etype : Nat) : List (Nat × Nat) :=
  [(0x8100, 1), (0x88A8, 1), (0x8847, 2), (0x8848, 2), (0x0800, 4), (0x86DD, 5), (0x88F7, 17), (0x892F, 18),
   (etype, 19), (0x88B5, 20), (0x88CC, 21)]

/-- "Inner set" of Table 4.4. -/
def innerSet : List (Nat × Nat) := [(0x8100, 12), (0x88A8, 12), (0x0800, 13), (0x86DD, 14)]

/-- The extension headers after an IPv6 header, which lead to node `ext`. -/
def extSet (ext : Nat) : List (Nat × Nat) := [(0x0000, ext), (0x2B00, ext), (0x2C00, ext), (0x3C00, ext)]

/-- Nodes 0 to 10 of the shipped graph. -/
def shippedLow (etype : Nat) : List (Nat × List Word) :=
  [(0, parseNode 1 1 (0, 14, 0, 0, 0) (12, 0xFFFF) 1 64 (ethSetHsr etype)),
   (1, parseNode 2 0 (0, 4, 0, 0, 0) (2, 0xFFFF) 4 64 (ethSet etype)),
   (2, parseNode 3 0 (0, 4, 0, 0, 0) (2, 0x0100) 8 64 [(0x0000, 2), (0x0100, 3)]),
   (3, parseNode 4 0 (0, 0, 0, 0, 0) (0, 0xF000) 1 64 [(0x4000, 4), (0x6000, 5)]),
   (4, parseNode 5 2 (1, 0, 4, 0, 0x0F) (8, 0x00FF) 1 64 [(17, 7), (47, 8)]),
   (5, parseNode 6 3 (0, 40, 0, 0, 0) (6, 0xFF00) 1 64 (extSet 6 ++ [(0x1100, 7), (0x2F00, 8)])),
   (6, parseNode 7 4 (2, 0, 8, 1, 0xFF) (0, 0xFF00) 4 64 (extSet 6 ++ [(0x1100, 7), (0x2F00, 8)])),
   (7, parseNode 8 5 (0, 8, 0, 0, 0) (2, 0xFFFF) 1 64 [(319, 17), (320, 17), (4789, 10)]),
   (8, parseNode 9 0 (3, 4, 4, 0, 0xB0) (2, 0xFFFF) 1 64 [(0x0800, 13), (0x86DD, 14), (0x6558, 11)]),
   (10, parseNode 10 0 (0, 8, 0, 0, 0) (0, 0) 1 11 [])]

/-- Nodes 11 to 21 of the shipped graph. -/
def shippedHigh (etype : Nat) : List (Nat × List Word) :=
  [(11, parseNode 11 1 (0, 14, 0, 0, 0) (12, 0xFFFF) 1 64 innerSet),
   (12, parseNode 12 0 (0, 4, 0, 0, 0) (2, 0xFFFF) 2 64 innerSet),
   (13, parseNode 13 2 (1, 0, 4, 0, 0x0F) (8, 0x00FF) 1 64 [(17, 16)]),
   (14, parseNode 14 3 (0, 40, 0, 0, 0) (6, 0xFF00) 1 64 (extSet 15 ++ [(0x1100, 16)])),
   (15, parseNode 15 4 (2, 0, 8, 1, 0xFF) (0, 0xFF00) 4 64 (extSet 15 ++ [(0x1100, 16)])),
   (16, parseNode 16 5 (0, 8, 0, 0, 0) (2, 0xFFFF) 1 64 [(319, 17), (320, 17)]),
   (17, parseNode 17 6 (0, 34, 0, 0, 0) (0, 0) 1 64 []),
   (18, parseNode 18 7 (0, 6, 0, 0, 0) (4, 0xFFFF) 1 64 (ethSet etype)),
   (19, parseNode 19 0 (0, 24, 0, 0, 0) (0, 0) 1 64 []),
   (20, parseNode 20 0 (0, 16, 0, 0, 0) (0, 0) 1 64 []),
   (21, parseNode 21 0 (0, 0, 0, 0, 0) (0, 0) 1 64 [])]

/-- The shipped graph (R133). -/
def shippedGraph (etype : Nat) : List (Nat × List Word) := shippedLow etype ++ shippedHigh etype

/-- A port's parsing after engine reset (R140). -/
def portParseReset : PortParse := { byteLimit := 256, hdrM1 := 15, start := 0, prp := false, confAct := 2, truncAct := 0 }

/-- A port's classification after engine reset (Table 5.1). -/
def portRuleReset : PortRule := { profile := 0, pcpMap := 0xFAC688#24, pvid := 1, defClass := 0 }

/-- The parser after engine reset (R133, R140, Table 4.8). -/
def parserReset : ParserState :=
  { graph := shippedGraph 0x88B6, staged := [], gen := 0,
    ports := Vector.replicate 34 portParseReset,
    lastTrunc := 0, lastConf := 0 }

/-! ## Classifier -/

/-- An extract descriptor (Table 5.3). -/
def extractWord (kind inst off : Nat) : Word := BitVec.ofNat 32 (kind * 2 ^ 24 + inst * 2 ^ 21 + off * 2 ^ 8)

/-- Profile 0 as loaded (Table 5.4). -/
def profileZero : List Word :=
  [extractWord 1 0 0, extractWord 1 0 2, extractWord 1 0 4, extractWord 1 0 6, extractWord 1 0 8, extractWord 1 0 10,
   extractWord 1 0 12, extractWord 2 0 0, extractWord 2 7 2, extractWord 5 0 0, extractWord 5 0 8, extractWord 5 0 12,
   extractWord 5 0 14, extractWord 5 0 16, extractWord 5 0 18, extractWord 8 0 0, extractWord 8 0 2, extractWord 17 0 0]

/-- An empty bank of a width with its profiles as R155 loads them; a profile not listed has every HDR_KIND 0. -/
def emptyBank (wide : Bool) : AmBank :=
  { wide := wide, entries := [],
    profiles := [(0, if wide then profileZero ++ List.replicate 20 0 else profileZero)] }

/-- The action of a shipped rule: FWD_KIND 4 and TRAP with a reason. -/
def trapAction (reason : Nat) : List Word :=
  [BitVec.ofNat 32 (4 * 2 ^ 29 + 2 ^ 8), BitVec.ofNat 32 (reason * 2 ^ 24), 0, 0]

/-- Shipped rules 0 and 1 (R161). -/
def shippedRules : List (Nat × AmEntry) :=
  [(0, { key := 0x00005400 * 2 ^ 288, mask := 0x0003FC00 * 2 ^ 288, action := trapAction 3 }),
   (1, { key := 0x0180C2000000 * 2 ^ 240, mask := 0xFFFFFFFFFFF0 * 2 ^ 240, action := trapAction 4 })]

/-- The classifier after engine reset (R153, R161, Tables 5.1 and 5.15). Templates, meters, mirror sessions and
spread groups start with every field 0 (log 3). -/
def rulesReset : RuleState :=
  { unified := false, bankA := { emptyBank false with entries := shippedRules }, bankB := emptyBank false, liveB := false,
    epoch := 0, flip := none, lastFlip := none, drain := none,
    ports := Vector.replicate 34 portRuleReset,
    rewrites := [], meters := [], mirrors := [], fdb := [],
    learn := Vector.replicate 34 { mode := 1, limitDiscard := false, limit := 131072 }, ageS := 300, floods := [],
    mcast := [], spreads := [], indirect := [], changed := [], voided := [] }

/-! ## Buffers -/

/-- A class after engine reset (Table 7.4). -/
def classReset : ClassBuf := { lossless := true, spill := false, alphaIn := 7, alphaOut := 7 }

/-- A port's flow control after engine reset (Table 7.5, R222). -/
def fcReset (mode : Nat) : PortFc :=
  { mode := mode, lenM := 100, peerNs := 1024, quanta := 65535, maxFrame := 1522, minFrame := 64, wdMs := 0,
    xonDelta := 24, hrShort := false, pauseOff := false, peerPause := none, timers := Vector.replicate 8 0, storm := 0, tripped := 0 }

/-- The flow control of every port after engine reset. -/
def fcsReset : Vector PortFc 34 :=
  ((Vector.replicate 34 (fcReset 2)).set 32 (fcReset 0) (by decide)).set 33 (fcReset 0) (by decide)

/-- Buffers after engine reset (R205, R239, Table 7.7). No port has a mode, so no headroom is reserved (R230). -/
def bufReset : BufState :=
  { frames := [], nextFrame := 0, arriving := [], round := [], residue := [], waiting := [], residueAgeUs := 1000, residueStall := none,
    ingress := [], egress := [], inMin := [], egMin := [], classes := Vector.replicate 8 classReset, fc := fcsReset,
    headroom := [], ages := [], spillEn := false, spillOn := 49152, spillOff := 40960, spilling := false, spillWait := 0, hrWait := 0,
    spillAt := 0, drainLast := none, retired := [], weak := [], poisoned := [], injPoisoned := [], eccLast := 0, limitRaised := 0 }

/-! ## Egress -/

/-- A shaper that is off (R245). -/
def shaperReset : Shaper := { on := false, rate := 0, burst := 0, credit := 0 }

/-- A class of the scheduler after engine reset (R245). -/
def schedReset : ClassSched := { strict := true, quantum := 0, deficit := 0, shaper := shaperReset }

/-- Egress of a port after engine reset (R245, R247, R251, Table 8.6). -/
def egressPortReset : Egress :=
  { tx := none, cut := none, ctl := [], classes := Vector.replicate 8 schedReset, last := 0, shaper := shaperReset,
    creditAt := 0, admin := [], oper := none, commit := none, entry := 0, cycleStart := 0, gates := 0xFF, hold := false,
    preempt := { enable := false, verify := true, addFrag := 0, classes := 0, verifyMs := 10, state := 0, tries := 0 },
    lq0Mode := false, lq1Mode := false, lateMaxNs := 1000, delay0 := 0, delay1 := 0 }

/-- Egress after engine reset. -/
def egressReset : EgressState :=
  { ports := Vector.replicate 34 egressPortReset, queues := [],
    pairs := Vector.replicate 8 { mode := 0, portA := 0, portB := 0, forgetMs := 0, seq := 0 }, proxies := [], dups := [],
    dupEvictAt := none, newest := [] }

end Sys2Proof.Machine
end

