-- ==== Sys2Proof/Machine/TypesNet.lean ====
section
/-! DEFINITION. The types of network time, references, synthesis, outputs and calibration: chapters "Network time
across the corridor", "Reference selection, holdover and synthesis" and "Calibration and repair". -/

namespace Sys2Proof.Machine

/-! ## Network time -/

/-- A Sync taken on a SLAVE port that waits for its Follow_Up (R271, R273): its ingress stamp t2 and the corrections
so far, in 2^-16 ns; `due` is the device time at which the next Sync is due, `delta` the DELTA of its slot and `phi` the
detector's phase at t2. -/
structure SyncWait where
  seqId : Nat
  source : BitVec 80
  t2 : Int
  corr : Int
  due : Int
  delta : Int
  phi : Int
deriving DecidableEq, Repr

/-- A Delay_Req or Pdelay_Req this port has sent and whose answer has not come: its egress stamp once it has been
launched, with the DELTA of its slot then, and for a Pdelay_Req the answer that waits for its Pdelay_Resp_Follow_Up: t2 of the partner, t4 and the
corrections. -/
structure ReqWait where
  seqId : Nat
  sent : Option Int
  delta : Int
  resp : Option (Int × Int × Int)
deriving DecidableEq, Repr

/-- One front port in one slot (R269, Table 9.7). `seqs` are the sequenceIds last used, by message type 0 Sync,
1 Delay_Req, 2 Pdelay_Req, 3 Signaling. `sync` lists the Syncs that wait for their Follow_Up. `ms` and `sm` are the last one-way
sums of R273. `own` says that its last Delay_Req, if any, was this engine's, not one of the active it stands by (R286). `anchors` are the values a of
R279 with their instants, `since` when their window began, `mpds` the filtered mean path delays of the last 64 s. -/
structure PtpPort where
  state : Nat
  number : Nat
  seqs : Vector Nat 4
  sync : List SyncWait
  req : Option ReqWait
  preq : Option ReqWait
  ms : Option Int
  sm : Option Int
  own : Bool
  since : Nat
  anchors : List (Nat × Int)
  mpds : List (Nat × Int)
deriving DecidableEq, Repr

/-- What a front port keeps for network time (R265, R279-R284): TC_MODE, its valid meanLinkDelay, its asymmetry model
with MODEL and WL_MISMATCH, the partner's wavelength `peerWl`, and the phase detector's unwrapped phase. -/
structure NetPort where
  tcMode : Nat
  mld : Option Int
  modelEn : Bool
  txWl : Nat
  rxWl : Nat
  s0 : Nat
  lambda0 : Nat
  nG : Nat
  fixedPs : Int
  trimPs : Int
  model : Int
  wlMismatch : Bool
  peerWl : Nat
  phi : Int
deriving DecidableEq, Repr

/-- One domain slot (Table 9.6), its servo (R273-R275), its loop, selections and holdover (R300-R312). THETA is the
filtered offset, 2^-16 ns; `sample` the last offset sample with its instant; `boRate` the rate of a BUILD_OUT slew in
ps/s, 0 for none, and `boRest` what it has moved below one unit. `rate` is what THETA of a slot that does not steer last moved in
one update; `thetaSlew` says that it is brought to a new reference's offset (R309), `thetaRest` what that has moved below one unit.
`fresh` says that ACQUIRING still awaits its first sample. `freq` is the frequency steered at, 0.01 ppb
against D0, `history` its recorded values with their instants, newest first, one a second at most. `policy` are the parameters of a
REF.SET_SLOT that the next update applies (R303). `errAt` and `farAt` are since when the
servo's error has been small or large, `stageAt` since when the loop's error meets its stage. -/
structure Slot where
  enable : Bool
  hostRun : Bool
  twoStep : Bool
  p2p : Bool
  daSel : Bool
  domain : Nat
  majorSdo : Nat
  minorSdo : Nat
  logSync : Int
  logDreq : Int
  cls : Nat
  tagged : Bool
  pcp : Nat
  vid : Nat
  clockId : BitVec 64
  stepNs : Nat
  servo : Nat
  everLocked : Bool
  theta : Int
  mpd : Int
  sample : Option (Nat × Int)
  buildOut : Int
  boRate : Nat
  boRest : Nat
  rate : Int
  thetaSlew : Bool
  thetaRest : Nat
  fresh : Bool
  errAt : Option Nat
  farAt : Option Nat
  revert : Bool
  slew : Bool
  finalBw : Nat
  slewPsS : Nat
  tauS : Nat
  backdateS : Nat
  avgS : Nat
  selT : Nat
  selF : Nat
  stage : Nat
  stageAt : Option Nat
  fLock : Bool
  freqFarAt : Option Nat
  holdQual : Nat
  holdFreq : Int
  holdAt : Option Nat
  oscDrift : Bool
  disagree : Bool
  force : Nat
  forceRef : Nat
  switches : Nat
  freq : Int
  histAt : Nat
  histOk : Bool
  history : List (Nat × Int)
  policy : Option (List Word)
deriving DecidableEq, Repr

/-- A switch of slots that waits for the next 1 ms update (R285): the slot, and the slew's rate or 0 for Absorb. -/
structure DomainSwitch where
  slot : Nat
  rate : Nat
deriving DecidableEq, Repr

/-- A TIME.CAL_ASYM that runs (R282): e in 2^-16 ns. -/
structure CalAsym where
  port : Nat
  input : Nat
  apply : Bool
  windowS : Nat
  cablePs : Int
  edges : Nat
  rejected : Nat
  sum : Int
  sumSq : Nat
  failed : Bool
deriving DecidableEq, Repr

/-- Network time of one engine. -/
structure NetState where
  slots : Vector Slot 2
  ptp : Vector (Vector PtpPort 32) 2
  ports : Vector NetPort 32
  steer : Nat
  switch : Option DomainSwitch
  switchCount : Nat
  cal : Option CalAsym
deriving DecidableEq, Repr

/-! ## References and outputs -/

/-- One reference (Table 10.2, R290-R299). `signal` says that its signal is present, `frqs` its one-second frequency
values, newest first, `phase` its offset averaged over the last 1 s (R297, R308), in 2^-16 ns. `lost`, `restart` and
`ripe` are what the next update applies: loss of signal, a restart, and a qualification timer that has run out. `okAt`
is since when a disqualified reference's test has passed again; `until_` is the end of the qualification timer and
`period` its length in s; `availAt` since when the reference is Available; `calm` counts the seconds for which both
figures of the ramp mark have been low. `input` are the parameters of a REF.SET_INPUT that the next update applies (R293). -/
structure RefState where
  enable : Bool
  lockout : Bool
  assign : Nat
  pulse : Bool
  falling : Bool
  family : Nat
  rank : Nat
  freqHz : Nat
  soft : Nat
  hard : Nat
  driftMax : Nat
  qualS : Nat
  wtrS : Nat
  phaseTol : Nat
  inDelay : Int
  state : Nat
  cause : Nat
  softWarn : Bool
  rampAt : Option Stamp
  calm : Nat
  disagree : Bool
  hist : BitVec 6
  signal : Bool
  frqs : List Int
  phase : Int
  lost : Bool
  restart : Bool
  ripe : Bool
  period : Nat
  okAt : Option Nat
  until_ : Nat
  availAt : Nat
  input : Option (List Word)
deriving DecidableEq, Repr

/-- An output synthesizer (R317). -/
structure Syno where
  fHz : Nat
  fFrac : Nat
  hold : Bool
deriving DecidableEq, Repr

/-- A clock output (Table 10.9). -/
structure ClkOut where
  enable : Bool
  format : Nat
  syn : Nat
  div : Nat
  delay : Int
  misaligned : Bool
deriving DecidableEq, Repr

/-- A pulse output (R319). `offset` is PPS_OFS in 2^-8 ns. -/
structure PpsOut where
  enable : Bool
  lv33 : Bool
  rate : Nat
  widthNs : Nat
  delay : Int
  misaligned : Bool
  offset : Int
deriving DecidableEq, Repr

/-- References and outputs of one engine. `align` lists the outputs that an alignment still slews, bit 0 to 7 for
CLKOUT and 8 to 11 for PPSOUT; `aligned` those of the command that runs, which moves them at `alignRate` ps/s; `alignAt` is the D1
cycle at which the offsets of the pulse outputs stood as they are held. `syntEpisode` says that a loss of SYN-T has been reported and
not ended, `pulling` that the phases are not yet pulled back to D1 (Table 10.8 step 7). -/
structure RefsState where
  refs : Vector RefState 42
  syns : Vector Syno 4
  clks : Vector ClkOut 8
  pps : Vector PpsOut 4
  align : BitVec 12
  aligned : BitVec 12
  alignRate : Nat
  alignAt : Nat
  syntEpisode : Bool
  pulling : Bool
  /-- the offset by which the slots' frequencies moved as D0 went to OSC_IN, 0 while it comes from the TCXO (R314) -/
  oscOffset : Int
deriving DecidableEq, Repr

/-! ## Calibration -/

/-- One calibration path (R382-R388). Errors count in 0.01 ps, kind 0 in UI/1,000. `at_` is the TB cycle of the last
completion; `sum` and `sumSq` are those of the probes gathered; `narrow` is the narrowest eye. `sat` is what the trim
cannot reach, added digitally; `trims` the trims found, by coding (R455). -/
structure CalPath where
  count : Nat
  deferred : Nat
  last : Stamp
  at_ : Nat
  q : Nat
  tLast : Int
  due : Bool
  probes : Nat
  sum : Int
  sumSq : Nat
  narrow : Nat
  starved : Bool
  trim : Int
  target : Int
  sat : Int
  trims : List (Nat × Int)
deriving DecidableEq, Repr

/-- What a repair record is about (R390): an Arcade array's row or column, or an associative-memory entry. -/
inductive RepairKind where
  | row
  | column
  | entry
deriving DecidableEq, Repr

/-- A repair made in the field (R392, R393): its array or bank, and the cell or entry that it covers. -/
structure RepairRecord where
  kind : RepairKind
  place : Nat
  item : Nat
deriving DecidableEq, Repr

/-- Calibration and repair of one engine (R382-R396). `badSets` are the timing sets whose check word failed at start,
numbered 18 x lane + 2 x coding + direction, direction 0 for receive; `spareRows` and `spareCols` the spares in use by
array, `amSpares` those by bank. `temps` are the last 16 readings, newest first, in 0.125 degrees. `records` counts the field records in
flash. `returned` counts how often a cell has come back from repair and gone again. `marked` are the entries to be
repaired and `amSeen` the device time of an entry's last uncorrectable word, both by 8,192 x bank + entry. -/
structure CalState where
  badSets : List Nat
  enable : BitVec 7
  starveS : Nat
  paths : List (Nat × CalPath)
  temps : List Int
  initDone : Bool
  repairing : Bool
  underpass : Bool
  recordsBad : Nat
  spareRows : List (Nat × Nat)
  spareCols : List (Nat × Nat)
  amSpares : List (Nat × Nat)
  /-- the trim starts in the fuses, by 64 x kind + index; an unlisted one is 0 (R390) -/
  fuseTrims : List (Nat × Int)
  /-- the factory repair records in the fuses (R390) -/
  fuseRepairs : List RepairRecord
  records : List RepairRecord
  unrecorded : List RepairRecord
  returned : List (Nat × Nat)
  marked : List Nat
  amSeen : List (Nat × Nat)
deriving DecidableEq, Repr

end Sys2Proof.Machine
end

