-- ==== Sys2Proof/Machine/DefaultsNet.lean ====
section
/-! DEFINITION. Reset values of network time, references, outputs and calibration. -/

namespace Sys2Proof.Machine

/-- A front port in a slot after engine reset (R269, Table 9.7). -/
def ptpPortReset (p : Nat) : PtpPort :=
  { state := 0, number := p + 1, seqs := Vector.replicate 4 0, sync := [], req := none, preq := none, ms := none, sm := none,
    own := true, since := 0, anchors := [], mpds := [] }

/-- What a port keeps for network time after engine reset (Table 9.10, R283). -/
def netPortReset : NetPort :=
  { tcMode := 0, mld := none, modelEn := false, txWl := 0, rxWl := 0, s0 := 9200, lambda0 := 13120, nG := 1468200,
    fixedPs := 0, trimPs := 0, model := 0, wlMismatch := false, peerWl := 0, phi := 0 }

/-- A slot after engine reset (R266, Table 9.6, Table 10.5). -/
def slotReset (d : Nat) : Slot :=
  { enable := false, hostRun := false, twoStep := false, p2p := false, daSel := false, domain := 24 + d, majorSdo := 0,
    minorSdo := 0, logSync := -4, logDreq := -4, cls := 7, tagged := false, pcp := 0, vid := 0, clockId := 0, stepNs := 1000,
    servo := 0, everLocked := false, theta := 0, mpd := 0, sample := none, buildOut := 0, boRate := 0, boRest := 0,
    rate := 0, thetaSlew := false, thetaRest := 0, fresh := false,
    errAt := none, farAt := none, revert := true, slew := true, finalBw := 1, slewPsS := 1000, tauS := 16, backdateS := 300,
    avgS := 1000, selT := 63, selF := 63, stage := 0, stageAt := none, fLock := false, freqFarAt := none, holdQual := 0,
    holdFreq := 0, holdAt := none, oscDrift := false, disagree := false, force := 0, forceRef := 0, switches := 0, freq := 0,
    histAt := 0, histOk := false, history := [], policy := none }

/-- Network time after engine reset. -/
def netReset : NetState :=
  { slots := #v[slotReset 0, slotReset 1], ptp := Vector.replicate 2 (Vector.ofFn fun p => ptpPortReset p.val),
    ports := Vector.replicate 32 netPortReset, steer := 0, switch := none, switchCount := 0, cal := none }

/-- A reference after engine reset (R292, Tables 10.2 and 10.10): 40 and 41 have ENABLE 1; ASSIGN is 1 for 41 and 2 for
6; the phase tolerance holds for kinds T and P. -/
def refReset (r : Nat) : RefState :=
  { enable := r == 40 || r == 41, lockout := false, assign := if r = 41 then 1 else if r = 6 then 2 else 0, pulse := false,
    falling := false, family := 0, rank := 0, freqHz := 0, soft := 200000, hard := 920000, driftMax := 2, qualS := 10,
    wtrS := 300, phaseTol := if r = 4 ∨ r = 5 ∨ r ≥ 40 then 100 else 0, inDelay := 0, state := 0, cause := 0,
    softWarn := false, rampAt := none, calm := 0, disagree := false, hist := 0, signal := false, frqs := [], phase := 0,
    lost := false, restart := false, ripe := false, period := 0, okAt := none, until_ := 0, availAt := 0, input := none }

/-- References and outputs after engine reset (R318, Table 10.10). -/
def refsReset : RefsState :=
  { refs := Vector.ofFn fun r => refReset r.val, syns := Vector.replicate 4 { fHz := 0, fFrac := 0, hold := false },
    clks := Vector.replicate 8 { enable := false, format := 0, syn := 0, div := 0, delay := 0, misaligned := false },
    pps := Vector.replicate 4 { enable := false, lv33 := false, rate := 0, widthNs := 0, delay := 0, misaligned := false, offset := 0 },
    align := 0, aligned := 0, alignRate := 0, alignAt := 0, syntEpisode := false, pulling := false, oscOffset := 0 }

/-- A calibration path that has never run. -/
def calPathReset : CalPath :=
  { count := 0, deferred := 0, last := stampZero, at_ := 0, q := 0, tLast := 0, due := false, probes := 0, sum := 0,
    sumSq := 0, narrow := 0, starved := false, trim := 0, target := 0, sat := 0, trims := [] }

/-- Calibration after engine reset (Tables 13.4 and 13.5). -/
def calReset : CalState :=
  { badSets := [], enable := 0x7F, starveS := 10, paths := [], temps := [], initDone := false, repairing := false,
    underpass := false, recordsBad := 0, spareRows := [], spareCols := [], amSpares := [], fuseTrims := [], fuseRepairs := [], records := [], unrecorded := [],
    returned := [], marked := [], amSeen := [] }

end Sys2Proof.Machine
end

