-- ==== Sys2Proof/Machine/State.lean ====
section
/-! DEFINITION. The state of the module, and the reasons a command can stop.
State is plain data; every piece of it is named in INVENTORY.md with the rule that gives it. -/

namespace Sys2Proof.Machine

/-- One engine (R31): everything a register, a command or a rule of the manual names of it. -/
structure Engine where
  core : CoreState
  clk : ClockState
  pace : PaceState
  twin : TwinState
  host : HostState
  fault : FaultState
  stats : StatsState
  fw : FwUnit
  time : TimeState
  ports : PortsState
  parser : ParserState
  rules : RuleState
  buf : BufState
  egress : EgressState
  net : NetState
  refs : RefsState
  cal : CalState
deriving DecidableEq, Repr

/-- The module. `pending` is the queue of commands that wait, first in, first out. `ticks` counts the D1
cycles of 2 ns the model has let pass on an empty queue (log 4). `freeCtr` is the model's own: the number
of free values used so far (log 6). -/
structure State where
  part : Part
  ticks : Nat
  power : PowerState
  sup : SupState
  fof : FofState
  flash : Vector FwSlot 2
  engA : Engine
  engB : Engine
  freeCtr : Nat
  pending : List Instr
deriving DecidableEq, Repr

/-- Why the module stops with a fault. No rule of the manual stops the module as a whole: every fault of
the manual is a message with a reaction (chapter "Fault collection and reaction"), which is state. -/
inductive Fault where
  /-- Raised by nothing in this model: kept so that the type is not empty. Safe: no step answers it. -/
  | none
deriving DecidableEq, Repr

/-- Why a command is turned away before it can act. -/
inductive Refusal where
  /-- Raised by the dispatch for a row that has no meaning yet. Safe: the machine stops where the hardware
  goes on. -/
  | notModelled (mnemonic : String)
  /-- Raised for an event inside engine B or on the Fofaene link of a part that has neither (Table 0.1):
  such an event cannot take place. Safe: the hardware has no behaviour there. -/
  | noSuchUnit
deriving DecidableEq, Repr

/-- One engine after a power cycle, before it has power. -/
def engineReset (e : EngId) : Engine :=
  { core := { coreReset with phase := .off }, clk := clockReset, pace := paceReset, twin := twinReset,
    host := hostReset e, fault := faultReset, stats := statsReset, fw := fwUnitReset, time := timeReset,
    ports := portsReset, parser := parserReset, rules := rulesReset, buf := bufReset, egress := egressReset,
    net := netReset, refs := refsReset, cal := calReset }

/-- The module before supply-valid, after a power cycle: every register at its reset value, the queue
empty. The part is the RHF3280-D (DESIGN CHOICE, log 1). -/
def State.reset : State :=
  { part := .rhf3280D, ticks := 0, power := powerReset, sup := supReset, fof := fofReset,
    flash := #v[factorySlot 1#32, emptySlot], engA := engineReset .a, engB := engineReset .b,
    freeCtr := 0, pending := [] }

end Sys2Proof.Machine
end

