-- ==== Sys2Proof/Machine/Ops.lean ====
section
/-! DEFINITION. The named operations over words, tables, counters, engines and rings that every chapter's
meanings use. -/

namespace Sys2Proof.Machine

/-! ## Words and fields -/

/-- Bits `hi` down to `lo` of a word, as a number. -/
def field (w : Word) (hi lo : Nat) : Nat := (w.toNat >>> lo) % 2 ^ (hi + 1 - lo)

/-- Bit `i` of a word. -/
def flag (w : Word) (i : Nat) : Bool := w.getLsbD i

/-- A 32-bit word from a number, modulo 2^32. -/
def word (n : Nat) : Word := BitVec.ofNat 32 n

/-- A 32-bit word from an integer, two's complement. -/
def wordI (i : Int) : Word := BitVec.ofInt 32 i

/-- 1 for true. -/
def bit (b : Bool) : Nat := if b then 1 else 0

/-- A word built from fields, each a value and the place of its lowest bit. -/
def pack (fs : List (Nat × Nat)) : Word := word ((fs.map fun (v, lo) => v * 2 ^ lo).sum)

/-- Word `i` of a parameter list; 0 where it has none. -/
def par (ps : List Word) (i : Nat) : Word := ps.getD i 0

/-- A signed value clamped to 32 bits. -/
def sat32 (i : Int) : Int := if i > 2147483647 then 2147483647 else if i < -2147483648 then -2147483648 else i

/-- A number clamped to a largest value. -/
def satN (m n : Nat) : Nat := if n > m then m else n

/-- The two words of a 64-bit number, high word first. -/
def words64 (n : Nat) : List Word := [word (n / 2 ^ 32), word n]

/-- The two words of a signed 64-bit number, high word first. -/
def wordsI64 (i : Int) : List Word := words64 (BitVec.ofInt 64 i).toNat

/-! ## Bytes -/

/-- The bytes of a word, most significant first (R16). -/
def wordBytes (w : Word) : List Byte :=
  [(w >>> 24).setWidth 8, (w >>> 16).setWidth 8, (w >>> 8).setWidth 8, w.setWidth 8]

/-- The bytes of a list of words (R16). -/
def wordsBytes (ws : List Word) : List Byte := ws.flatMap wordBytes

/-- Big-endian number of a byte list. -/
def beNat (bs : List Byte) : Nat := bs.foldl (fun a b => a * 256 + b.toNat) 0

/-- The `n` bytes of a number, most significant first. -/
def beBytes : Nat → Nat → List Byte
  | 0, _ => []
  | n + 1, v => BitVec.ofNat 8 (v / 256 ^ n) :: beBytes n v

/-- `n` bytes from offset `off` of a byte list, as a number; bytes past the end count as 0. -/
def bytesAt (bs : List Byte) (off n : Nat) : Nat :=
  beNat ((List.range n).map fun i => bs.getD (off + i) 0)

/-- The words of a byte list, the last one padded with zero bytes. -/
def bytesWords : List Byte → List Word
  | [] => []
  | a :: b :: c :: d :: rest => (a ++ b ++ c ++ d : BitVec 32) :: bytesWords rest
  | bs => [word (beNat bs * 256 ^ (4 - bs.length))]

/-- `bs` with the bytes from offset `off` replaced by `new`. -/
def spliceBytes (bs : List Byte) (off : Nat) (new : List Byte) : List Byte :=
  bs.take off ++ new ++ bs.drop (off + new.length)

/-! ## Checksums -/

/-- One bit of a reflected CRC of 32 bits. -/
def crcBit (poly c : BitVec 32) : BitVec 32 := if c.getLsbD 0 then (c >>> 1) ^^^ poly else c >>> 1

/-- One byte of a reflected CRC of 32 bits. -/
def crcByte (poly c : BitVec 32) (b : Byte) : BitVec 32 :=
  let x := c ^^^ b.setWidth 32
  crcBit poly (crcBit poly (crcBit poly (crcBit poly (crcBit poly (crcBit poly (crcBit poly (crcBit poly x)))))))

/-- CRC-32C of a byte list (R416): polynomial 0x1EDC_6F41 reflected, all ones in, inverted out. -/
def crc32c (bs : List Byte) : BitVec 32 := ~~~ (bs.foldl (crcByte 0x82F63B78#32) 0xFFFFFFFF#32)

/-- The Ethernet FCS of a byte list, IEEE 802.3: CRC-32, polynomial 0x04C1_1DB7 reflected. -/
def ethCrc (bs : List Byte) : BitVec 32 := ~~~ (bs.foldl (crcByte 0xEDB88320#32) 0xFFFFFFFF#32)

/-- One bit of CRC-64 ECMA-182, most significant bit first. -/
def crc64Bit (c : BitVec 64) : BitVec 64 := if c.getMsbD 0 then (c <<< 1) ^^^ 0x42F0E1EBA9EA3693#64 else c <<< 1

/-- One byte of CRC-64 ECMA-182. -/
def crc64Byte (c : BitVec 64) (b : Byte) : BitVec 64 :=
  let x := c ^^^ (b.setWidth 64 <<< 56)
  crc64Bit (crc64Bit (crc64Bit (crc64Bit (crc64Bit (crc64Bit (crc64Bit (crc64Bit x)))))))

/-- The hash of a decision record (R336): CRC-64 of ECMA-182, all ones in, no final XOR. -/
def crc64 (bs : List Byte) : BitVec 64 := bs.foldl crc64Byte 0xFFFFFFFFFFFFFFFF#64

/-! ## Tables: canonical lists of numbered entries -/

/-- The entry with number `k`, or `d` where the table lists none. -/
def look {α : Type} (d : α) (k : Nat) : List (Nat × α) → α
  | [] => d
  | (i, x) :: rest => if i = k then x else look d k rest

/-- The entry with number `k`, if the table lists one. -/
def findAt {α : Type} (k : Nat) : List (Nat × α) → Option α
  | [] => none
  | (i, x) :: rest => if i = k then some x else findAt k rest

/-- The table without entry `k`. -/
def eraseAt {α : Type} (k : Nat) : List (Nat × α) → List (Nat × α)
  | [] => []
  | (i, x) :: rest => if i = k then eraseAt k rest else (i, x) :: eraseAt k rest

/-- The table with entry `k` set to `x`, numbers kept rising. -/
def insertAt {α : Type} (k : Nat) (x : α) : List (Nat × α) → List (Nat × α)
  | [] => [(k, x)]
  | (i, y) :: rest =>
    if k < i then (k, x) :: (i, y) :: rest
    else if i = k then (k, x) :: rest
    else (i, y) :: insertAt k x rest

/-- The table with entry `k` reading as `x`, where an unlisted entry reads as `d`: the canonical form, with no
entry equal to `d`. -/
def put {α : Type} [DecidableEq α] (d : α) (k : Nat) (x : α) (t : List (Nat × α)) : List (Nat × α) :=
  if x = d then eraseAt k t else insertAt k x t

/-- The numbers of a table rise strictly. -/
def rising {α : Type} : List (Nat × α) → Bool
  | [] => true
  | [_] => true
  | (i, _) :: (j, y) :: rest => decide (i < j) && rising ((j, y) :: rest)

/-- The canonical form of a table whose unlisted entries read as `d`. -/
def canon {α : Type} [DecidableEq α] (d : α) (t : List (Nat × α)) : Bool :=
  rising t && t.all fun p => decide (p.2 ≠ d)

/-! ## The mailbox window: a memory of bytes -/

/-- A byte of MBOX_CMD. -/
def Memory.read (m : List Host.Cell) (a : Nat) : Byte := look 0#8 a m

/-- MBOX_CMD with one byte written. -/
def Memory.write (m : List Host.Cell) (a : Nat) (b : Byte) : List Host.Cell := put 0#8 a b m

/-- MBOX_CMD with bytes written from an address on. -/
def Memory.writes (m : List Host.Cell) : Nat → List Byte → List Host.Cell
  | _, [] => m
  | a, b :: bs => Memory.writes (Memory.write m a b) (a + 1) bs

/-- `n` bytes of MBOX_CMD from an address on. -/
def Memory.reads (m : List Host.Cell) (a n : Nat) : List Byte := (List.range n).map fun i => Memory.read m (a + i)

/-- The form of a byte memory: addresses strictly rising, no listed byte equal to 0. -/
def Memory.wf (m : List Host.Cell) : Bool := canon 0#8 m

/-! ## Vectors -/

/-- A vector with one element replaced. -/
def vset {α : Type} {n : Nat} (v : Vector α n) (i : Fin n) (x : α) : Vector α n := v.set i.val x i.isLt

/-- A vector with one element changed. -/
def vmod {α : Type} {n : Nat} (v : Vector α n) (i : Fin n) (f : α → α) : Vector α n := vset v i (f v[i])

/-- The element at a number, or `d` past the end. -/
def vget {α : Type} {n : Nat} (v : Vector α n) (d : α) (i : Nat) : α := v.toArray.getD i d

/-- The vector with the element at a number changed; unchanged past the end. -/
def vmodN {α : Type} {n : Nat} (v : Vector α n) (i : Nat) (f : α → α) : Vector α n :=
  if h : i < n then vmod v ⟨i, h⟩ f else v

/-! ## Parts (Table 0.1) -/

/-- The twin part (R1). -/
def twinPart : Part → Bool
  | .rhf3280D => true
  | _ => false

/-- A part with an Underpass and its buffer DRAM (Table 0.1). -/
def underpassPart : Part → Bool
  | .rhf3240S => false
  | _ => true

/-- The number of front lanes of a part (Table 0.1). -/
def lanesOf : Part → Nat
  | .rhf3240S => 16
  | _ => 32

/-- Whether a port number is a port of the part: P0 to P31 as fitted, 32 = H0, 33 = H1 (R99). -/
def portFitted (p : Part) (n : Nat) : Bool := n < lanesOf p || n == 32 || n == 33

/-- Whether an engine is fitted. -/
def engFitted (p : Part) : EngId → Bool
  | .a => true
  | .b => twinPart p

/-- Whether a group may be combined on the part (Table 0.1). -/
def groupFitted (p : Part) (g : Nat) : Bool := if underpassPart p then g < 8 else g < 2

/-- The other engine. -/
def other : EngId → EngId
  | .a => .b
  | .b => .a

/-- An engine's code in STEER_OWNER, ENGINE and THIS_UNIT fields. -/
def engCode : EngId → Nat
  | .a => 0
  | .b => 1

/-- A unit's code in reply headers (Table 15.3). -/
def unitCode : UnitId → Nat
  | .eng e => engCode e
  | .sup => 2

/-! ## Engines in the state -/

/-- One engine of the module. -/
def State.eng (s : State) : EngId → Engine
  | .a => s.engA
  | .b => s.engB

/-- The module with one engine replaced. -/
def State.setEng (s : State) (e : EngId) (x : Engine) : State :=
  match e with
  | .a => { s with engA := x }
  | .b => { s with engB := x }

/-- The module with one engine changed. -/
def State.modEng (s : State) (e : EngId) (f : Engine → Engine) : State := s.setEng e (f (s.eng e))

/-- Both engines changed. -/
def State.modBoth (s : State) (f : Engine → Engine) : State := (s.modEng .a f).modEng .b f

/-- The supervisor's record of an engine. -/
def SupState.view (p : SupState) : EngId → EngView
  | .a => p.viewA
  | .b => p.viewB

/-- The supervisor's record of an engine changed. -/
def SupState.modView (p : SupState) (e : EngId) (f : EngView → EngView) : SupState :=
  match e with
  | .a => { p with viewA := f p.viewA }
  | .b => { p with viewB := f p.viewB }

/-- The engine whose ROLE is 0x1, if any (Table 15.5). An engine lost in silence still reads ROLE 0x1 until the supervisor
resets it: the engine granted control is the active, else the steering owner (R326). -/
def State.active (s : State) : Option EngId :=
  let b := twinPart s.part && s.engB.core.role == 1
  if s.engA.core.role = 1 then
    if b then
      match s.sup.switch with
      | some r => some r.dst
      | none => some s.power.steer
    else some .a
  else if b then some .b
  else none

/-- The engine whose ROLE is 0x2, if any. Between SW_AT of a planned swap and its grant both read ROLE 0x2 (R345): the standby is the
one that the grant is for. -/
def State.standby (s : State) : Option EngId :=
  if !twinPart s.part then none
  else if s.engA.core.role = 2 then
    match s.sup.switch with
    | some r => if s.engB.core.role = 2 then some r.dst else some .a
    | none => some .a
  else if s.engB.core.role = 2 then some .b
  else none

/-- An engine whose firmware runs and whose register window answers. -/
def Engine.running (x : Engine) : Bool :=
  match x.core.phase with
  | .firmware => true
  | .calibrated => true
  | .ready => true
  | _ => false

/-- An engine whose firmware takes commands: it runs and has not halted (Table 1.5, D9). -/
def Engine.serving (x : Engine) : Bool := x.running && !x.core.halted

/-- An engine out of reset: its register window answers (R5). -/
def Engine.awake (x : Engine) : Bool :=
  match x.core.phase with
  | .off => false
  | .held => false
  | _ => true

/-- An engine that is held in reset with its rail up: its monitors and its governor run, and nothing of it reports (Table 16.1). -/
def heldPowered (e : EngId) (s : State) : Bool := engFitted s.part e && s.power.railsUp && (s.eng e).core.phase == .held

/-- An event inside an engine: refused where the part has no such engine, without effect where the engine
has no power or is held in reset. -/
def onEngine (e : EngId) (s : State) (f : State → State) : Host.Outcome State Fault Refusal :=
  if engFitted s.part e then (if (s.eng e).awake then .next (f s) else .next s) else .refused .noSuchUnit

/-- An event on the Fofaene link or between the twins: refused where the part has none (Table 0.1). -/
def onTwin (s : State) (f : State → State) : Host.Outcome State Fault Refusal :=
  if twinPart s.part then .next (f s) else .refused .noSuchUnit

/-! ## Free values -/

/-- A value the manual leaves open: the next free value, and the state with it used (log 6). -/
def takeFree (s : State) : Nat × State := (Config.freeNat s.freeCtr, { s with freeCtr := s.freeCtr + 1 })

/-! ## Counters (R397-R402) -/

/-- Whether a pair of counters is chained (R402). -/
def chainedPair (c : StatsState) (pair : Nat) : Bool := look (chainedByDefault pair) pair c.chained

/-- A counter's value. -/
def counter (c : StatsState) (i : Nat) : Nat := look 0 i c.counters

/-- A counter with `n` events added, wraps marked, the carry of a chained pair taken along (R399, R402). -/
def bumpBy (n i : Nat) (c : StatsState) : StatsState :=
  if chainedPair c (i / 2) then
    if i % 2 = 1 then c
    else
      let lo := counter c i + n
      let carry := lo / 2 ^ 32
      let hi := counter c (i + 1) + carry
      let c1 := { c with counters := put 0 (i + 1) (hi % 2 ^ 32) (put 0 i (lo % 2 ^ 32) c.counters) }
      let c2 := if carry = 0 then c1 else { c1 with wraps := put false i true c1.wraps }
      if hi ≥ 2 ^ 32 then { c2 with wraps := put false (i + 1) true c2.wraps } else c2
  else
    let v := counter c i + n
    let c1 := { c with counters := put 0 i (v % 2 ^ 32) c.counters }
    if v ≥ 2 ^ 32 then { c1 with wraps := put false i true c1.wraps } else c1

/-- An engine with one event added to a counter. -/
def Engine.bump (x : Engine) (i : Nat) : Engine := { x with stats := bumpBy 1 i x.stats }

/-- An engine with `n` events added to a counter. -/
def Engine.bumpN (x : Engine) (i n : Nat) : Engine := { x with stats := bumpBy n i x.stats }

/-- The index of counter `k` of a port's block (R397). -/
def portCtr (p k : Nat) : Nat := 288 + 112 * p + k

/-- An engine with one event added to counter `k` of a port. -/
def Engine.bumpPort (x : Engine) (p k : Nat) : Engine := x.bump (portCtr p k)

/-! ## Time readings (R79, R81) -/

/-- Device time in units of 2^-16 ns, truncated (R66). -/
def TimeState.now16 (t : TimeState) : Nat := t.dev / 2 ^ 16

/-- The seconds of a time in 2^-16 ns. -/
def secOf (t : Nat) : Nat := t / (1000000000 * 65536)

/-- The nanoseconds of a time in 2^-16 ns. -/
def nsecOf (t : Nat) : Nat := t / 65536 % 1000000000

/-- The fraction of a time in 2^-16 ns. -/
def fracOf (t : Nat) : Nat := t % 65536

/-- The four words of a time word (Table 0.9). -/
def stampWords (x : Stamp) : List Word :=
  [word (secOf x.t / 2 ^ 32), word (secOf x.t), word (nsecOf x.t), pack [(fracOf x.t, 16), (x.qual.toNat, 0)]]

/-- A time word read from four parameter words, in 2^-16 ns (R28); QUAL left out (R30). -/
def timeOf (w0 w1 w2 w3 : Word) : Nat :=
  ((w0.toNat * 2 ^ 32 + w1.toNat) * 1000000000 + w2.toNat) * 65536 + field w3 31 16

/-- The time word in parameter words `i` to `i + 3`. -/
def parTime (ps : List Word) (i : Nat) : Nat := timeOf (par ps i) (par ps (i + 1)) (par ps (i + 2)) (par ps (i + 3))

/-- D1 runs from the fallback multiplier (SYNT_FALLBACK, Table 1.6). -/
def ClockState.fallback (c : ClockState) : Bool := c.lock.getLsbD 14

/-- SYN-T holds analog lock (LOCK_SYNT). -/
def ClockState.syntLocked (c : ClockState) : Bool := c.lock.getLsbD 0

/-- The conditions of R333 under which a standby follows its active. -/
def followsActive (s : State) : Bool :=
  match s.active with
  | some a => s.fof.up && (s.eng a).clk.syntLocked
  | none => false

/-- The qualifier of a stamp taken now (Table 2.7), for a port's LEVEL code and a lane whose delays come
from defaults. -/
def Engine.qual (x : Engine) (level : Nat) (uncal : Bool) : BitVec 16 :=
  BitVec.ofNat 16 (0x8000 + 0x4000 * bit x.clk.fallback + 0x2000 * bit uncal
    + 0x1000 * bit (!x.time.tbSet) + 0x0400 * bit x.time.slew.isSome + 128 * (level % 8))

/-- A reading of device time now, LEVEL 0 (R81). -/
def Engine.now (x : Engine) : Stamp := { t := x.time.now16, qual := x.qual 0 false }

/-! ## Interrupts (R444-R446) -/

/-- An interrupt bit signalled: the status bit is set; a bit that goes from 0 to 1 and is enabled sends its
MSI-X message, or holds it back while its moderation time runs (R445). -/
def IrqState.raise (q : IrqState) (b : Nat) : IrqState :=
  let was := q.status.getLsbD b
  let q1 := { q with status := q.status ||| (1#16 <<< b) }
  if was || !q.enable.getLsbD b then q1
  else if b < 6 && q.running.getLsbD b then { q1 with held := q1.held ||| (1#6 <<< b) }
  else
    let q2 := if q.msi then { q1 with sent := q1.sent ++ [b] } else q1
    if b < 6 && q.modUs ≠ 0 then { q2 with running := q2.running ||| (1#6 <<< b) } else q2

/-- An engine with an interrupt bit signalled. -/
def Engine.irq (x : Engine) (b : Nat) : Engine :=
  { x with host := { x.host with irq := x.host.irq.raise b } }

/-- A status bit that only mirrors its source sends its message when the source rises (R444, R445). -/
def Engine.edge (x : Engine) (was now : Bool) (b : Nat) : Engine :=
  let q := x.host.irq
  if !was && now && q.msi && q.enable.getLsbD b then
    { x with host := { x.host with irq := { q with sent := q.sent ++ [b] } } }
  else x

/-! ## Rings (R430-R433) -/

/-- One ring of an engine changed. -/
def Engine.modRing (x : Engine) (r : Nat) (f : Ring → Ring) : Engine :=
  { x with host := { x.host with rings := vmodN x.host.rings r f } }

/-- One ring of an engine. -/
def Engine.ring (x : Engine) (r : Nat) : Ring := vget x.host.rings ringReset r

/-- LEN of a descriptor (Table 15.8). -/
def descLen (d : Desc) : Nat := field d.w2 31 16

/-- A descriptor that stops its ring with ERR 2: LEN no multiple of 4, or a reserved field not 0. A ring
from engine to host must be posted with DONE 0; FIRST, LAST and USED are the engine's to write. -/
def descBad (d : Desc) : Bool := descLen d % 4 != 0 || field d.w2 15 0 != 0 || field d.w3 28 16 != 0 || flag d.w3 31

/-- The bytes that the posted buffers can hold. -/
def roomOf (ds : List Desc) : Nat := (ds.map descLen).sum

/-- The four header words of a ring record (Table 15.9). -/
def recHeader (rec : RingRec) (seq : Word) (e : EngId) (role : Nat) : List Word :=
  [pack [(rec.type.toNat, 24), (1, 16), (rec.body.length, 0)], seq,
   pack [(engCode e, 30), (role, 24)], 0]

/-- The interrupt bit of a ring's completions (Table 15.16). -/
def ringIrq (r : Nat) : Nat := if r = 7 then 4 else if r ≥ 5 then 5 else r - 1

/-- A ring stopped with an error; RING_ERR follows (R431). -/
def stopRing (r : Nat) (err : BitVec 4) (x : Engine) : Engine :=
  (x.modRing r fun q => { q with stopped := true, err := err }).irq 15

/-- The error that the buffers of a record of `n` words meet (R431): a bad descriptor, or a PCIe error on an access. -/
def recordErr : List Desc → Nat → Option (BitVec 4)
  | [], _ => none
  | d :: ds, n =>
    if n = 0 then none
    else if descBad d then some 2
    else if !d.pcieOk then some 3
    else recordErr ds (n - descLen d / 4)

/-- Fill posted buffers with the words of one record (R432): buffers of LEN 0 are skipped and counted (R24). -/
def fillBuffers (r : Nat) : List Desc → List Word → Bool → Engine → Engine
  | _, [], _, x => x
  | [], _ :: _, _, x => x
  | d :: ds, w :: ws, first, x =>
      let x1 := x.modRing r fun q => { q with posted := ds, engineIdx := q.engineIdx + 1 }
      if descLen d = 0 then fillBuffers r ds (w :: ws) first (x1.bump (96 + r))
      else
        let n := descLen d / 4
        let here := (w :: ws).take n
        let rest := (w :: ws).drop n
        let w3 := pack [(1, 31), (bit first, 30), (bit rest.isEmpty, 29), (here.length * 4, 0)]
        let done : BufWrite := { idx := (x.ring r).engineIdx, addr := d.w0 ++ d.w1, word3 := w3, words := here }
        let x2 := x1.modRing r fun q => { q with written := q.written ++ [done] }
        fillBuffers r ds rest false (x2.irq (ringIrq r))

/-- Whether a ring can take a record of `n` words now: it is enabled and not stopped, and its posted buffers
hold the whole record (R432). -/
def ringRoom (q : Ring) (n : Nat) : Bool := q.enabled && !q.stopped && decide (4 * n ≤ roomOf q.posted)

/-- A ring about to take a record of `n` words: whether it does, and the engine then. A record is never partly written (R432): one
whose buffers meet an error stops the ring and is not begun. -/
def takesRecord (r n : Nat) (x : Engine) : Bool × Engine :=
  if !ringRoom (x.ring r) n then (false, x)
  else match recordErr (x.ring r).posted n with
    | some err => (false, stopRing r err x)
    | none => (true, x)

/-- A record written to a ring that takes it (R432): header and body, RING_SEQ advanced. -/
def writeRecord (e : EngId) (r : Nat) (rec : RingRec) (x : Engine) : Engine :=
  let q := x.ring r
  let x1 := fillBuffers r q.posted (recHeader rec q.seq e x.core.role ++ rec.body) true x
  x1.modRing r fun q1 => { q1 with seq := q1.seq + 1 }

/-- A record put behind those that wait for a ring. -/
def waitRecord (r : Nat) (rec : RingRec) (x : Engine) : Engine :=
  x.modRing r fun q => { q with waiting := q.waiting ++ [rec] }

/-- A record offered to a ring: written at once when nothing waits before it and the ring has room,
otherwise it waits (R433). -/
def offerRecord (e : EngId) (r : Nat) (rec : RingRec) (x : Engine) : Engine :=
  if !(x.ring r).waiting.isEmpty then waitRecord r rec x
  else
    let (ok, y) := takesRecord r (4 + rec.body.length) x
    if ok then writeRecord e r rec y else waitRecord r rec y

/-- An event record of a source whose queue holds 64 (R112, R171, R299, R351, R363): a record that finds its
queue full is counted in `lost` and goes nowhere. -/
def offerEvent (e : EngId) (rec : RingRec) (lost : Nat) (x : Engine) : Engine :=
  let q := x.ring 2
  let (ok, y) := if q.waiting.isEmpty then takesRecord 2 (4 + rec.body.length) x else (false, x)
  if ok then writeRecord e 2 rec y
  else if (q.waiting.filter fun w => w.type = rec.type).length < 64 then waitRecord 2 rec y
  else y.bump lost

/-! ## Fault reports (R352, R353) -/

/-- The report count of a source block (SEQ of Table 12.1). -/
def faultSeq (f : FaultState) (source : Byte) : Nat := look 0 source.toNat f.seqs

/-- A message put into its source's outgoing slot: a waiting one is replaced, the higher class kept, PARTIAL
set (R353). Injected messages wait apart, so that none takes the place of a real one (R371; DEDUCED, log 29). -/
def postSlot (m : FaultMsg) : List FaultMsg → List FaultMsg
  | [] => [m]
  | w :: rest =>
    if w.source = m.source ∧ w.inj = m.inj then
      { m with cls := if w.cls.toNat > m.cls.toNat then w.cls else m.cls, part := true } :: rest
    else w :: postSlot m rest

/-- One report of a source block: SEQ advances, the message goes into the slot. -/
def report (m : FaultMsg) (x : Engine) : Engine :=
  let n := (faultSeq x.fault m.source + 1) % 256
  { x with fault := { x.fault with
      seqs := put 0 m.source.toNat n x.fault.seqs,
      slots := postSlot { m with seq := BitVec.ofNat 8 n } x.fault.slots } }

/-- The real message of a source leaves its slot for the ring, so that the next report finds the slot empty (R353). -/
def sendSlot (source : Nat) (x : Engine) : Engine :=
  let mine (m : FaultMsg) : Bool := m.source == BitVec.ofNat 8 source && !m.inj
  { x with fault := { x.fault with ring := x.fault.ring ++ x.fault.slots.filter mine, slots := x.fault.slots.filter fun m => !mine m } }

/-- A real report of Table 12.2: source, kind, class and address. -/
def Engine.raise (x : Engine) (source kind cls : Nat) (address : Word) : Engine :=
  report { source := BitVec.ofNat 8 source, kind := BitVec.ofNat 8 kind, cls := BitVec.ofNat 3 cls,
           inj := false, conseq := false, injMixed := false, part := false, address := address, seq := 0,
           act := true, tag := 0 } x

/-- A report that follows another of its source in the same event: the earlier one has left its slot, as the worked example of chapter 12
counts them (R353; DEDUCED, log 171). -/
def Engine.raiseNext (x : Engine) (source kind cls : Nat) (address : Word) : Engine := (sendSlot source x).raise source kind cls address

end Sys2Proof.Machine
end

