-- ==== Sys2Proof/Machine/Replies.lean ====
section
/-! DEFINITION. Replies: their words, their way back to the channel on which the command arrived, and the
commands that wait for their completion (R414, R417, R418, R425, R426, R437, R440-R442). -/

namespace Sys2Proof.Machine

/-! ## Status codes (Table 15.4) -/

/-- The status codes of Table 15.4. -/
inductive Status where
  | ok
  | opcode
  | length
  | reserved
  | range
  | absent
  | state
  | busy
  | crc
  | role
  | version
  | auth
deriving DecidableEq, Repr

/-- The code of a status (Table 15.4). -/
def statusCode : Status → BitVec 16
  | .ok => 0x0000
  | .opcode => 0x0100
  | .length => 0x0101
  | .reserved => 0x0102
  | .range => 0x0103
  | .absent => 0x0104
  | .state => 0x0105
  | .busy => 0x0106
  | .crc => 0x0107
  | .role => 0x0108
  | .version => 0x0109
  | .auth => 0x010A

/-! ## The reply packet -/

/-- The words of a reply before its CRC (Table 15.3). -/
def replyHead (r : Reply) : List Word :=
  [pack [(0xA5C3, 16), (1, 8), (1, 7), (bit r.mirrored, 6), (bit r.forwarded, 5), (bit r.replayed, 4), (unitCode r.engine, 2)],
   r.opcode ++ r.tag, pack [(r.body.length, 16), (r.status.toNat, 0)], r.gen] ++ stampWords r.completed ++ r.body

/-- A reply packet, CRC included (R417). -/
def replyWords (r : Reply) : List Word := replyHead r ++ [crc32c (wordsBytes (replyHead r))]

/-! ## Tags -/

/-- A channel's index in Table 15.1. -/
def chanIdx : Channel → Nat
  | .ring => 0
  | .mailbox => 1
  | .mgmt => 2
  | .spi => 3

/-- A tag of an engine's channel is no longer outstanding, and no held command waits behind it (R414, R425). -/
def freeTag (c : Channel) (tag : BitVec 16) (h : HostState) : HostState :=
  let held := h.held.map fun k => if k.arrival.chan = c then { k with behind := k.behind.filter (· ≠ tag) } else k
  { h with outstanding := h.outstanding.erase (c, tag), held := held }

/-- A tag of the SPI channel is no longer outstanding. -/
def freeSpiTag (tag : BitVec 16) (p : SpiState) : SpiState :=
  let held := p.held.map fun k => { k with behind := k.behind.filter (· ≠ tag) }
  { p with outstanding := p.outstanding.erase tag, held := held }

/-- A reply kept in a replay store: those of the last 64 completed commands (R441). One sent again stays where it stands. A packet that
fails one of checks 2 to 5 is no command that has completed and changes nothing (R423): its reply is not kept (DEDUCED, log 159). -/
def keepReplay (crc : Word) (r : Reply) (st : List ReplayEntry) : List ReplayEntry :=
  let new : ReplayEntry := { crc := crc, reply := r }
  let l := (st.filter fun (q : ReplayEntry) => decide (q.reply.tag ≠ r.tag)) ++ [new]
  if r.replayed || r.kind != .command then st else l.drop (l.length - 64)

/-- The tag of a reply's channel as the reply has been written: free, unless it is another command's (R414, R423). -/
def freeReply (c : Channel) (r : Reply) (h : HostState) : HostState := if r.kind = .shared then h else freeTag c r.tag h

/-- The bytes of a management reply frame: destination, source, VLAN tag if the command had one, EtherType
0x88B5, the packet, padding to 60 bytes (R440). -/
def mgmtReplyFrame (dst src : BitVec 48) (vlan : Option Word) (ws : List Word) : List Byte :=
  let tagB := match vlan with
    | some w => wordBytes w
    | none => []
  let f := beBytes 6 dst.toNat ++ beBytes 6 src.toNat ++ tagB ++ beBytes 2 0x88B5 ++ wordsBytes ws
  f ++ List.replicate (60 - f.length) 0

/-- A reply on the reply ring. Those of commands that were outstanding when the PCIe link was lost are discarded, and all while it is
down (R429). -/
def ringReply (e : EngId) (r : Reply) (x : Engine) : Engine :=
  let lost := r.kind != .shared && x.host.ringLost.contains r.tag
  if lost || !x.host.pcieUp then
    let h := freeReply .ring r x.host
    { x with host := { h with ringLost := if lost then h.ringLost.erase r.tag else h.ringLost } }
  else
    let rec_ : RingRec := { type := 0x0B, body := replyWords r, frees := r.kind != .shared }
    let (ok, y) := if (x.ring 1).waiting.isEmpty then takesRecord 1 (4 + rec_.body.length) x else (false, x)
    if ok then
      let z := writeRecord e 1 rec_ y
      { z with host := freeReply .ring r z.host }
    else waitRecord 1 rec_ y

/-- The tag of a reply that waits for ring 1. -/
def replyTag (r : RingRec) : BitVec 16 := (par r.body 1).setWidth 16

/-- The tag of a reply that has left ring 1's queue is free. -/
def freeWaiting (r : RingRec) (h : HostState) : HostState := if r.frees then freeTag .ring (replyTag r) h else h

/-- Every ring stopped with ERR 4 (R429): replies that wait are discarded, their tags free; those still to come of the commands
outstanding on the command ring will be. -/
def stopRings (x : Engine) : Engine :=
  let h := (x.ring 1).waiting.foldl (fun h r => freeWaiting r h) x.host
  let rings := h.rings.map fun q => { q with stopped := true, err := 4 }
  let lost := (h.outstanding.filter fun k => decide (k.1 = .ring)).map fun k => k.2
  ((({ x with host := { h with rings := rings, pcieUp := false, ringLost := lost } } : Engine).modRing 1 fun q => { q with waiting := [] }).irq 15)

/-- The mailbox takes a reply: BUSY 0, READY 1 (R437); REPLY interrupts. -/
def mailboxReply (r : Reply) (x : Engine) : Engine :=
  let bytes := wordsBytes (replyWords r)
  let h := freeReply .mailbox r x.host
  let mbox := { h.mbox with reply := bytes, busy := false, ready := true, replyLen := bytes.length }
  ({ x with host := { h with mbox := mbox } } : Engine).irq 0

/-- A management reply goes out as a frame and into the replay store (R440, R441); a frame started on the port counts in its
TX_FRAMES and TX_BYTES (R400). -/
def mgmtReply (a : Arrival) (r : Reply) (x : Engine) : Engine :=
  let h := freeReply .mgmt r x.host
  let f := mgmtReplyFrame a.src h.mgmt.addr a.vlan (replyWords r)
  let y : Engine := { x with host := { h with mgmt := { h.mgmt with sent := h.mgmt.sent ++ [f] }, replay := keepReplay a.crc r h.replay } }
  (y.bumpPort 33 5).bumpN (portCtr 33 2) (f.length + 4)

/-- A reply put into the SPI port's queue and the replay store; its tag stays outstanding until the reply has
been read (R414, R441, R442). -/
def spiReply (a : Arrival) (r : Reply) (p : SpiState) : SpiState :=
  { p with replies := p.replies ++ [r], replay := keepReplay a.crc r p.replay }

/-- A reply on its way back to the channel its command arrived on. -/
def deliver (a : Arrival) (r : Reply) (s : State) : State :=
  match a.via with
  | .sup => { s with sup := { s.sup with spi := spiReply a r s.sup.spi } }
  | .eng e =>
    s.modEng e fun x =>
      if x.serving then
        match a.chan with
        | .ring => ringReply e r x
        | .mailbox => mailboxReply r x
        | .mgmt => mgmtReply a r x
        | .spi => x
      else x

/-! ## Waiting commands -/

/-- A waiting command is done: its own condition has come and no acknowledgement is awaited. -/
def Waiting.done (w : Waiting) : Bool := w.await.isNone && w.ackOf.isNone

/-- The reply of a command that has waited on a unit. -/
def waitingReply (u : UnitId) (w : Waiting) : Reply :=
  { mirrored := w.mirrored, forwarded := w.forwarded, replayed := false, engine := u, opcode := w.opcode,
    tag := w.arrival.tag, status := w.status, gen := word w.gen, completed := w.completed, body := w.body }

/-- The replies of every waiting command of an engine that is done, in the order of acceptance (R426). -/
def flushWaiting (e : EngId) (s : State) : State :=
  let ws := (s.eng e).host.waiting
  let s1 := s.modEng e fun x => { x with host := { x.host with waiting := x.host.waiting.filter fun w => !w.done } }
  (ws.filter fun w => w.done && !w.silent).foldl (fun t w => deliver w.arrival (waitingReply (.eng e) w) t) s1

/-- The replies of every waiting command of the supervisor that is done. -/
def flushSup (s : State) : State :=
  let ws := s.sup.waiting
  let s1 := { s with sup := { s.sup with waiting := s.sup.waiting.filter fun w => !w.done } }
  (ws.filter fun w => w.done && !w.silent).foldl (fun t w => deliver w.arrival (waitingReply .sup w) t) s1

/-- A waiting command whose condition `c` has come: status, body and completion time are set; GEN is that of its commit, or CFG_GEN
now (Table 15.3). -/
def finish (c : Await) (st : Status) (at_ : Stamp) (gen : Nat) (body : List Word) (w : Waiting) : Waiting :=
  if w.await = some c then
    { w with await := none, status := statusCode st, body := body, completed := at_, mirrored := w.mirrored && st == .ok,
             ackOf := if st == .ok then w.ackOf else none,
             gen := if w.committed && st == .ok then w.gen else gen }
  else w

/-- The completion of the waiting commands of an engine whose condition is `c`: status and body set, the
completion time now (R418). -/
def complete (e : EngId) (c : Await) (st : Status) (body : Engine → Waiting → List Word) (s : State) : State :=
  let x := s.eng e
  let ws := x.host.waiting.map fun w => finish c st x.now x.host.cfgGen (body x w) w
  flushWaiting e (s.setEng e { x with host := { x.host with waiting := ws } })

/-- As `complete`, for a command that waits on the supervisor; its replies carry no time (R418). -/
def completeSup (c : Await) (st : Status) (body : List Word) (s : State) : State :=
  let ws := s.sup.waiting.map fun w => finish c st stampZero 0 body w
  flushSup { s with sup := { s.sup with waiting := ws } }

/-- No command with an opcode waits for its reply on the engine. -/
def noneOwed (op : BitVec 16) (x : Engine) : Bool := x.host.waiting.all fun w => decide (w.opcode ≠ op)

/-- No command of the engine waits for `c`. -/
def noWaiting (c : Await) (x : Engine) : Bool := x.host.waiting.all fun w => decide (w.await ≠ some c)

end Sys2Proof.Machine
end

