-- ==== Sys2Proof/Machine/Packets.lean ====
section
/-! DEFINITION. Command packets: acceptance, target resolution, the order of checks, execution, mirroring
(R414-R428, R340, R341). Each command is a `CmdSpec`; the checks are the same for all. -/

namespace Sys2Proof.Machine

/-- The supervisor can act on roles: it runs and is neither faulted nor restarting (R40, R467). -/
def SupState.sound (p : SupState) : Bool := p.running && !p.faulty && !p.restarting

/-! ## What a command is -/

/-- Who executes a command, and how it came: `mirror` says that it is applied as a commit on the standby. -/
structure Ctx where
  unit : UnitId
  arrival : Arrival
  mirror : Bool
  /-- of a mirrored command: what the active's execution settled beyond the parameters -/
  settled : Option Int := none

/-- The executing engine; the supervisor's own commands do not look at it. -/
def Ctx.eng (c : Ctx) : EngId :=
  match c.unit with
  | .eng e => e
  | .sup => .a

/-- What a command's application gives: the state, the reply body, and what its reply still waits for. `status` is OK but for
FW.VERIFY_IMAGE, which judges an image by running it through its checks (R464). -/
structure Applied where
  state : State
  body : List Word
  await : Option Await
  status : Status := .ok
  /-- what the execution settles beyond the parameters, for the commit to carry -/
  settled : Option Int := none

/-- Applied with nothing to wait for. -/
def Applied.now (s : State) (body : List Word) : Applied := { state := s, body := body, await := none }

/-- One command of Table 15.6: its opcode; who executes it (R421, R422); whether it is mirrored (R419),
executed in maintenance mode (R427) and answered in Cul-de-sac (R377); whether it needs the supervisor (R40);
its own checks 10, 11, 12, 15, 16 and 17 of Table 15.4; its effect and reply. -/
structure CmdSpec where
  opcode : BitVec 16
  onActive : Bool
  onStandby : Bool
  onSup : Bool
  mirrored : Bool
  inMaint : Bool
  inCul : Bool
  needsSup : Bool
  lenOk : Ctx → State → List Word → Bool
  rsvdOk : List Word → Bool
  absent : Part → List Word → Bool
  rangeErr : Ctx → List Word → State → Option (List Word)
  judge : Ctx → List Word → State → Option (Status × List Word)
  apply : Ctx → List Word → State → Applied

/-- No parameter names an absent unit. -/
def neverAbsent (_ : Part) (_ : List Word) : Bool := false

/-- No field can be out of range. -/
def neverRange (_ : Ctx) (_ : List Word) (_ : State) : Option (List Word) := none

/-- No state or busy condition of its own. -/
def neverJudge (_ : Ctx) (_ : List Word) (_ : State) : Option (Status × List Word) := none

/-- ERR_RANGE without a body when a condition fails. -/
def rangeIf (b : Bool) : Option (List Word) := if b then some [] else none

/-- A status without a body when a condition holds. -/
def statusIf (b : Bool) (st : Status) : Option (Status × List Word) := if b then some (st, []) else none

/-- The first of several refusals. -/
def firstOf : List (Option (Status × List Word)) → Option (Status × List Word)
  | [] => none
  | some r :: _ => some r
  | none :: rest => firstOf rest

/-- A parameter length of exactly `n` words. -/
def lenIs (n : Nat) (_ : Ctx) (_ : State) (ps : List Word) : Bool := ps.length == n

/-- Bits of a parameter word that must be 0. -/
def zeroBits (ps : List Word) (i hi lo : Nat) : Bool := field (par ps i) hi lo == 0

/-- A switchover is in progress, from the give-up of the engine that the steering is on, or the supervisor's judgement, until
step 8 (R345). A standby that gives up starts none. -/
def switchoverRuns (s : State) : Bool := s.sup.switch.isSome || (s.eng s.power.steer).core.role == 5

/-- A planned swap is in progress, from the start of its preparation until step 8 (R345). -/
def swapRuns (s : State) : Bool := s.engA.twin.swapPending || (twinPart s.part && s.engB.twin.swapPending)

/-- A switchover or a role swap is in progress. -/
def switching (s : State) : Bool := switchoverRuns s || swapRuns s

/-- ERR_BUSY during a switchover or role swap. -/
def busySwitching (s : State) : Option (Status × List Word) := statusIf (switching s) .busy

/-! ## Checks 10 to 17 -/

/-- Check 13: whether the executing unit may take the command (R421, R422). -/
def roleErr (sp : CmdSpec) (u : UnitId) (s : State) : Bool :=
  match u with
  | .sup => !sp.onSup
  | .eng e => if (s.eng e).core.role = 2 then !sp.onStandby else !sp.onActive

/-- An engine that has given up takes what Cul-de-sac takes (R377; DEDUCED, log 91). -/
def givenUp (sp : CmdSpec) (u : UnitId) (s : State) : Bool :=
  match u with
  | .sup => false
  | .eng e => (s.eng e).core.role == 5 && !sp.inCul

/-- Check 14: maintenance mode and what precedes ready (R427), Cul-de-sac (R377), a faulted supervisor (R40). -/
def stateErr (sp : CmdSpec) (u : UnitId) (s : State) : Bool :=
  match u with
  | .sup => (s.sup.bootRom && !(sp.inMaint && sp.onSup)) || (sp.needsSup && s.sup.faulty)
  | .eng e =>
    let r := (s.eng e).core.role
    ((r == 0 || r == 3) && !sp.inMaint) || (r == 4 && !sp.inCul) || (sp.needsSup && !s.sup.sound)

/-- RULE, FWD and PARSE commands complete with ERR_BUSY while a fast table scrub runs (R338). -/
def scrubBusy (sp : CmdSpec) (u : UnitId) (s : State) : Bool :=
  match u with
  | .sup => false
  | .eng e =>
    let g := sp.opcode.toNat / 256
    (s.eng e).twin.scrubRunning && (g == 3 || g == 4 || g == 5)

/-- A mirrored command whose effect cannot be expressed at the level of a standby that is current (R349). -/
def levelErr (sp : CmdSpec) (u : UnitId) (ps : List Word) (s : State) : Bool :=
  match u, s.standby with
  | .eng e, some d =>
    sp.mirrored && (s.eng e).core.role == 1 && (s.eng d).twin.copy == 2 && (s.eng d).fw.level.ult (s.eng e).fw.level
      && Config.levelLacks (s.eng d).fw.level sp.opcode ps
  | _, _ => false

/-- Checks 10 to 17 of Table 15.4 in order: the first that fails, with the reply body its rule gives. A configuring command at
an engine that has given up finds the switchover in progress first, ERR_BUSY (R113); any other ends in ERR_STATE. -/
def check (sp : CmdSpec) (c : Ctx) (ps : List Word) (s : State) : Option (Status × List Word) :=
  if !sp.lenOk c s ps then some (.length, [])
  else if !sp.rsvdOk ps then some (.reserved, [])
  else if sp.absent s.part ps then some (.absent, [])
  else if s.sup.bootRom && decide (c.unit = .sup) && stateErr sp c.unit s then some (.state, [])
  else if roleErr sp c.unit s then some (.role, [])
  else if stateErr sp c.unit s then some (.state, [])
  else match sp.rangeErr c ps s with
    | some body => some (.range, body)
    | none =>
      match sp.judge c ps s with
      | some r => some r
      | none =>
        if givenUp sp c.unit s then some (.state, [])
        else if levelErr sp c.unit ps s then some (.version, [])
        else statusIf (scrubBusy sp c.unit s) .busy

/-! ## Replies -/

/-- The completion time of a reply formed now by a unit (R418). -/
def completedNow (u : UnitId) (s : State) : Stamp :=
  match u with
  | .eng e => (s.eng e).now
  | .sup => stampZero

/-- GEN of a reply formed now by a unit (Table 15.3). -/
def genNow (u : UnitId) (s : State) : Nat :=
  match u with
  | .eng e => (s.eng e).host.cfgGen
  | .sup => 0

/-- A reply formed at once. -/
def replyNow (u : UnitId) (a : Arrival) (op : BitVec 16) (fwd : Bool) (st : Status) (body : List Word) (s : State) : Reply :=
  { mirrored := false, forwarded := fwd, replayed := false, engine := u, opcode := op, tag := a.tag,
    status := statusCode st, gen := word (genNow u s), completed := completedNow u s, body := body }

/-! ## Commits (R340, R341) -/

/-- The interface level at which an active writes its records: the lower of its own and its standby's (R349). -/
def recordLevel (e : EngId) (s : State) : BitVec 16 :=
  match s.standby with
  | some d => if (s.eng d).fw.level.ult (s.eng e).fw.level then (s.eng d).fw.level else (s.eng e).fw.level
  | none => (s.eng e).fw.level

/-- A configuration commit of the active: CFG_GEN advances, the journal takes the command, and the link
carries it to a standby that copies. A SYS.SET_PACE that the link does not carry is announced all the same, over the sideband by
which the standby's rail is set, so that a later takeover reports STATE_STALE (R63; DEDUCED, log 119). -/
def commit (e : EngId) (op : BitVec 16) (ps : List Word) (settled : Option Int) (s : State) : State :=
  let x := s.eng e
  let g := (x.host.cfgGen + 1) % 2 ^ 32
  let c : Commit := { gen := g, level := recordLevel e s, opcode := op, params := ps, settled := settled }
  let s1 := s.setEng e { x with host := { x.host with cfgGen := g },
                                twin := { x.twin with cfgGenSeen := g, journal := (c :: x.twin.journal).take 4096 } }
  match s1.standby with
  | none => s1
  | some d =>
    if s1.fof.up && ((s1.eng d).twin.copy == 1 || (s1.eng d).twin.copy == 2) then
      ({ s1 with fof := { s1.fof with commits := s1.fof.commits ++ [c], announced := g } } : State).modEng d fun y =>
        { y with twin := { y.twin with cfgGenSeen := g } }
    else if op = 0x0102 then { s1 with fof := { s1.fof with announced := g } }
    else s1

/-- The generation whose acknowledgement a mirrored command waits for, if any (R341). -/
def ackWanted (s : State) (g : Nat) : Option Nat :=
  match s.standby with
  | none => none
  | some d => if s.fof.up && ((s.eng d).twin.copy == 1 || (s.eng d).twin.copy == 2) then some g else none

/-! ## Execution -/

/-- A command put behind those that wait on a unit. -/
def addWaiting (u : UnitId) (w : Waiting) (s : State) : State :=
  match u with
  | .sup => { s with sup := { s.sup with waiting := s.sup.waiting ++ [w] } }
  | .eng e => s.modEng e fun x => { x with host := { x.host with waiting := x.host.waiting ++ [w] } }

/-- A command that has passed every check takes effect, is committed if it is mirrored, and replies or waits. -/
def perform (sp : CmdSpec) (u : UnitId) (a : Arrival) (fwd : Bool) (ps : List Word) (s : State) : State :=
  let r := sp.apply { unit := u, arrival := a, mirror := false } ps s
  let s1 := match u with
    | .eng e => if sp.mirrored && (s.eng e).core.role == 1 then commit e sp.opcode ps r.settled r.state else r.state
    | .sup => r.state
  let ack := match u with
    | .eng e => if sp.mirrored && (s.eng e).core.role == 1 then ackWanted s1 (s1.eng e).host.cfgGen else none
    | .sup => none
  let rep := replyNow u a sp.opcode fwd r.status r.body s1
  if r.await.isNone && ack.isNone then deliver a rep s1
  else
    addWaiting u { arrival := a, opcode := sp.opcode, params := ps, forwarded := fwd, await := r.await, ackOf := ack,
                   committed := (u != .sup) && sp.mirrored && r.status == .ok, gen := genNow u s1, mirrored := false, status := statusCode r.status, completed := rep.completed,
                   body := r.body } s1

/-- A command on the unit that executes it: checks 10 to 17, then its effect (R423). -/
def execute (sp : CmdSpec) (u : UnitId) (a : Arrival) (fwd : Bool) (ps : List Word) (s : State) : State :=
  match check sp { unit := u, arrival := a, mirror := false } ps s with
  | some (st, body) => deliver a (replyNow u a sp.opcode fwd st body s) s
  | none => perform sp u a fwd ps s

/-! ## Routing (R420, Table 15.5) -/

/-- Where a command goes, or the status of check 8 or 9. -/
inductive Route where
  | unit (u : UnitId) (forwarded : Bool)
  | fail (st : Status)
deriving DecidableEq, Repr

/-- Whether a path leads from the unit that took a packet to the unit that executes it (R420): the Fofaene link, or the sideband, which
is down for a unit that does not hear the other's heartbeat (DEDUCED, log 167). -/
def pathUp (via u : UnitId) (s : State) : Bool :=
  match via, u with
  | .sup, .sup => true
  | .sup, .eng e => engFitted s.part e && (s.eng e).serving && (s.sup.view e).beat != .absent
  | .eng a, .sup => s.sup.running && !s.sup.restarting && (s.eng a).core.supOk
  | .eng a, .eng b => a == b || (s.fof.up && (s.eng b).serving)

/-- Table 15.5. -/
def route (a : Arrival) (s : State) : Route :=
  let go (u : UnitId) : Route := if pathUp a.via u s then .unit u (decide (u ≠ a.via)) else .fail .state
  if a.target = 3 then go .sup
  else if a.target = 2 then (if twinPart s.part then go (.eng .b) else .fail .absent)
  else if a.target = 1 then go (.eng .a)
  else if !twinPart s.part then go (.eng .a)
  else match s.active with
    | some e => go (.eng e)
    | none => .fail (if switching s then .busy else .state)

/-- A command past checks 1 to 7 is routed and executed (checks 8 to 17). -/
def routeExec (sp : CmdSpec) (a : Arrival) (ps : List Word) (s : State) : State :=
  match route a s with
  | .fail st => deliver a (replyNow a.via a sp.opcode false st [] s) s
  | .unit u fwd => execute sp u a fwd ps s

/-! ## Taking a packet from its channel -/

/-- The tags outstanding on a channel. -/
def tagsOf (a : Arrival) (s : State) : List (BitVec 16) :=
  match a.via with
  | .sup => s.sup.spi.outstanding
  | .eng e => ((s.eng e).host.outstanding.filter fun q => decide (q.1 = a.chan)).map fun q => q.2

/-- Whether the channel takes packets now: the unit runs, and the channel's own conditions hold (R425, R376,
R437, R439, R442). -/
def channelOpen (a : Arrival) (s : State) : Bool :=
  match a.via with
  | .sup => (s.sup.running || s.sup.bootRom) && decide (a.chan = .spi)
  | .eng e =>
    let x := s.eng e
    engFitted s.part e && x.serving &&
      match a.chan with
      | .ring =>
        let q0 := x.ring 0
        q0.enabled && !q0.stopped && (x.ring 1).enabled && x.host.pcieUp && x.core.role != 4 && decide ((tagsOf a s).length < 64)
      | .mailbox => x.host.pcieUp && !x.host.mbox.busy && !x.host.mbox.ready
      | .mgmt => x.host.mgmt.cmdEn && (x.host.mgmt.allowAny || x.host.mgmt.allowed.contains a.src)
      | .spi => false

/-- A count of a channel's statistics, saturating at 255 (Table 15.15). -/
def bumpStat (e : EngId) (c : Channel) (f : ChanStat → ChanStat) (s : State) : State :=
  s.modEng e fun x => { x with host := { x.host with stats := vmodN x.host.stats (chanIdx c) f } }

/-- BAD_FRAMING counted where the packet arrived (check 1). -/
def countFraming (a : Arrival) (s : State) : State :=
  match a.via with
  | .sup => { s with sup := { s.sup with spi := { s.sup.spi with badFraming := satN 255 (s.sup.spi.badFraming + 1) } } }
  | .eng e => bumpStat e a.chan (fun q => { q with badFraming := satN 255 (q.badFraming + 1) }) s

/-- TAG_DUP counted where the packet arrived (check 6, R425). -/
def countDup (a : Arrival) (s : State) : State :=
  match a.via with
  | .sup => { s with sup := { s.sup with spi := { s.sup.spi with tagDup := satN 255 (s.sup.spi.tagDup + 1) } } }
  | .eng e => bumpStat e a.chan (fun q => { q with tagDup := satN 255 (q.tagDup + 1) }) s

/-- CRC_ERR counted where the packet arrived (check 3). -/
def countCrc (a : Arrival) (s : State) : State :=
  match a.via with
  | .sup => { s with sup := { s.sup with spi := { s.sup.spi with crcErr := satN 255 (s.sup.spi.crcErr + 1) } } }
  | .eng e => bumpStat e a.chan (fun q => { q with crcErr := satN 255 (q.crcErr + 1) }) s

/-- A tag becomes outstanding on its channel; the mailbox reads BUSY (R414, R437). -/
def takeTag (a : Arrival) (s : State) : State :=
  match a.via with
  | .sup =>
    let p := s.sup.spi
    { s with sup := { s.sup with spi := { p with outstanding := p.outstanding ++ [a.tag] } } }
  | .eng e =>
    s.modEng e fun x =>
      let mbox := if a.chan = .mailbox then { x.host.mbox with busy := true } else x.host.mbox
      { x with host := { x.host with outstanding := x.host.outstanding ++ [(a.chan, a.tag)], mbox := mbox } }

/-- The replay store of a channel that has one (R441). -/
def replayOf (a : Arrival) (s : State) : List ReplayEntry :=
  match a.via with
  | .sup => s.sup.spi.replay
  | .eng e => if a.chan = .mgmt then (s.eng e).host.replay else []

/-- The stored entry with a tag but another CRC is dropped (R441). -/
def dropReplay (a : Arrival) (s : State) : State :=
  let keep (l : List ReplayEntry) := l.filter fun q => decide (q.reply.tag ≠ a.tag)
  match a.via with
  | .sup => { s with sup := { s.sup with spi := { s.sup.spi with replay := keep s.sup.spi.replay } } }
  | .eng e =>
    if a.chan = .mgmt then s.modEng e fun x => { x with host := { x.host with replay := keep x.host.replay } } else s

/-- A command whose FENCE keeps it back (R425): its target is resolved now (R420). -/
def holdCmd (sp : CmdSpec) (a : Arrival) (ps : List Word) (behind : List (BitVec 16)) (s : State) : State :=
  match route a s with
  | .fail st => deliver a (replyNow a.via a sp.opcode false st [] s) s
  | .unit u fwd =>
    let k : HeldCmd := { arrival := a, unit := u, forwarded := fwd, opcode := sp.opcode, params := ps, behind := behind }
    match a.via with
    | .sup => { s with sup := { s.sup with spi := { s.sup.spi with held := s.sup.spi.held ++ [k] } } }
    | .eng e => s.modEng e fun x => { x with host := { x.host with held := x.host.held ++ [k] } }

/-- A packet past checks 1 to 5: check 6, the replay store, its tag (R425, R441). `go` is what becomes of one that is new; it
gets the tags that were outstanding before it. -/
def intake (a : Arrival) (go : List (BitVec 16) → State → State) (s : State) : State :=
  let tags := tagsOf a s
  if tags.contains a.tag then countDup a s
  else if decide (tags.length ≥ 64) && (a.chan == .mgmt || a.chan == .spi) then countDup a s
  else match (replayOf a s).find? fun q => q.reply.tag = a.tag && q.crc = a.crc with
    | some q => deliver a { q.reply with replayed := true } (takeTag a s)
    | none => go tags (takeTag a (dropReplay a s))

/-- A packet with a known opcode: FENCE, then routing (R425). -/
def accept (sp : CmdSpec) (a : Arrival) (ps : List Word) (s : State) : State :=
  intake a (fun tags s1 => if a.fence && !tags.isEmpty then holdCmd sp a ps tags s1 else routeExec sp a ps s1) s

/-- A command row of the opcode table: the packet arrives on its channel, well formed. A packet that finds its
channel closed is not taken. -/
def submit (sp : CmdSpec) (a : Arrival) (ps : List Word) (s : State) : State :=
  if channelOpen a s then accept sp a ps s else s

/-! ## The standby's side (R340, R46) -/

/-- A commit applied on the standby: the command's effect, and CFG_GEN at its generation. -/
def applyMirror (sp : CmdSpec) (d : EngId) (c : Commit) (s : State) : State :=
  let a : Arrival := { via := .eng d, chan := .mailbox, tag := 0, fence := false, target := 0, crc := 0, src := 0, vlan := none }
  let r := sp.apply { unit := .eng d, arrival := a, mirror := true, settled := c.settled } c.params s
  r.state.modEng d fun x =>
    { x with host := { x.host with cfgGen := c.gen },
             twin := { x.twin with cfgGenSeen := c.gen, journal := (c :: x.twin.journal).take 4096 } }

end Sys2Proof.Machine
end

