-- ==== Sys2Proof/Machine/PortOps.lean ====
section
/-! DEFINITION. What every chapter asks of a port: which are fitted, grouped or unused, and the checks that commands
naming a port share (R98, R99, R113, R161, R238, R246). -/

namespace Sys2Proof.Machine

/-- A port of an engine. -/
def Engine.port (x : Engine) (p : Nat) : PortState := vget x.ports.ports portReset p

/-- A port of an engine changed. -/
def Engine.modPort (x : Engine) (p : Nat) (f : PortState → PortState) : Engine :=
  { x with ports := { x.ports with ports := vmodN x.ports.ports p f } }

/-- A grouped mode of Table 3.1. -/
def groupedMode (m : Nat) : Bool := m == 8 || m == 9 || m == 10 || m == 12

/-- A port that a grouped port holds: P4g+1 to P4g+3 (R98). -/
def Engine.unused (x : Engine) (p : Nat) : Bool := decide (p < 32) && p % 4 != 0 && groupedMode (x.port (p / 4 * 4)).mode

/-- ERR_STATE for P4g+1 to P4g+3 of a grouped port. -/
def unusedErr (c : Ctx) (p : Nat) (s : State) : Option (Status × List Word) := statusIf ((s.eng c.eng).unused p) .state

/-- A front port that the part does not have (R11): absent. -/
def absentPort (part : Part) (p : Nat) : Bool := decide (p ≥ lanesOf part) && decide (p < 32)

/-- The data rate of a mode in Mb/s (Table 3.1); 0 while there is none. -/
def modeRate (m : Nat) : Nat :=
  match m with
  | 1 => 1000
  | 2 => 1000
  | 3 => 2500
  | 4 => 10000
  | 5 => 25000
  | 6 => 25000
  | 7 => 25000
  | 8 => 40000
  | 9 => 100000
  | 10 => 100000
  | _ => 0

/-- The data rate of a port in Mb/s: H1 runs at 1 Gb/s; H0 has none of its own and is taken at 400 Gb/s (log 13). -/
def Engine.rate (x : Engine) (p : Nat) : Nat :=
  if p = 33 then 1000 else if p = 32 then 400000 else modeRate (x.port p).modeNow

/-- A frame of `n` bytes, FCS included, counted by the MAC that receives it (R400). -/
def rxCount (p n : Nat) (x : Engine) : Engine := (x.bumpPort p 4).bumpN (portCtr p 0) n

/-- What the ingress MAC makes of a received FCS (R196, R197): the CRC-32 of the bytes before it, that CRC XORed with the stomp
pattern 0x5354_4F4D, or neither. -/
def fcsOf (bs : List Byte) (fcs : Word) : FcsResult :=
  if fcs = ethCrc bs then .good else if fcs = ethCrc bs ^^^ 0x53544F4D#32 then .stomped else .bad

/-- A failed FCS counted: STOMP_RX for the stomp pattern, RX_FCS_ERR otherwise (R197). -/
def countFcs (p : Nat) (r : FcsResult) (x : Engine) : Engine :=
  match r with
  | .good => x
  | .stomped => x.bumpPort p 34
  | .bad => x.bumpPort p 35

/-- Whether an engine stores and sends frames now: it holds control, or it stores ahead of a takeover (R331, R345). -/
def Engine.stores (x : Engine) : Bool := x.core.role == 1 || x.twin.storing

/-- The stated checks of a command that configures one port: mirrored, by the active alone. -/
def portSpec (op : BitVec 16) (len : Ctx → State → List Word → Bool)
    (rsvd : List Word → Bool) (portOf : List Word → Nat)
    (range : Ctx → List Word → State → Option (List Word)) (judge : Ctx → List Word → State → Option (Status × List Word))
    (apply : Ctx → List Word → State → Applied) : CmdSpec :=
  { opcode := op, onActive := true, onStandby := false, onSup := false, mirrored := true, inMaint := false, inCul := false,
    needsSup := false, lenOk := len, rsvdOk := rsvd, absent := fun p ps => absentPort p (portOf ps), rangeErr := range,
    judge := fun c ps s => firstOf [unusedErr c (portOf ps) s, judge c ps s, busySwitching s], apply := apply }

/-- The stated checks of a command that configures and names no port. -/
def configSpec (op : BitVec 16) (len : Ctx → State → List Word → Bool) (rsvd : List Word → Bool)
    (range : Ctx → List Word → State → Option (List Word)) (judge : Ctx → List Word → State → Option (Status × List Word))
    (apply : Ctx → List Word → State → Applied) : CmdSpec :=
  { opcode := op, onActive := true, onStandby := false, onSup := false, mirrored := true, inMaint := false, inCul := false,
    needsSup := false, lenOk := len, rsvdOk := rsvd, absent := neverAbsent, rangeErr := range,
    judge := fun c ps s => firstOf [judge c ps s, busySwitching s], apply := apply }

/-- The stated checks of a command that reads state of the engine targeted, the standby included. -/
def readSpec (op : BitVec 16) (inCul : Bool) (len : Ctx → State → List Word → Bool) (rsvd : List Word → Bool) (absent : Part → List Word → Bool)
    (range : Ctx → List Word → State → Option (List Word)) (judge : Ctx → List Word → State → Option (Status × List Word))
    (apply : Ctx → List Word → State → Applied) : CmdSpec :=
  { opcode := op, onActive := true, onStandby := true, onSup := false, mirrored := false, inMaint := false, inCul := inCul,
    needsSup := false, lenOk := len, rsvdOk := rsvd, absent := absent, rangeErr := range, judge := judge, apply := apply }

/-- The executing engine changed, nothing in the reply. -/
def onSelf (c : Ctx) (f : Engine → Engine) (s : State) : Applied := .now (s.modEng c.eng f) []

end Sys2Proof.Machine
end

