-- ==== Sys2Proof/Machine/Parser.lean ====
section
/-! DEFINITION. The parser (chapter "Parser: headers, depth and contradictions"): the walk with its length checks, the
graph and its commands, and the settings of each port. -/

namespace Sys2Proof.Machine

/-! ## Bytes of a frame -/

/-- A byte of a frame as a number; 0 past the end. -/
def byteAt (bs : List Byte) (i : Nat) : Nat := (bs.getD i 0).toNat

/-- A 16-bit field of a frame. -/
def half (bs : List Byte) (i : Nat) : Nat := byteAt bs i * 256 + byteAt bs (i + 1)

/-! ## Nodes (Table 4.2) -/

/-- A node of a graph; an unlisted one is unused. -/
def nodeOf (g : List (Nat × List Word)) (i : Nat) : List Word := look (List.replicate 15 0#32) i g

/-- HDR_KIND of a node. -/
def nodeKind (n : List Word) : Nat := field (par n 0) 31 24
/-- LEN_MODE of a node. -/
def nodeLenMode (n : List Word) : Nat := field (par n 0) 23 22
/-- CHECK of a node. -/
def nodeCheck (n : List Word) : Nat := field (par n 0) 3 0
/-- NEXT_MASK of a node. -/
def nodeMask (n : List Word) : Nat := field (par n 1) 15 0
/-- MISS_NODE of a node. -/
def nodeMiss (n : List Word) : Nat := field (par n 2) 14 8
/-- The twelve transition words of a node. -/
def nodeTrans (n : List Word) : List Word := (List.range 12).map fun k => par n (3 + k)
/-- TARGET of a transition. -/
def transTarget (w : Word) : Nat := field w 30 24

/-- The number of one bits of a byte. -/
def popcount (n : Nat) : Nat := ((List.range 8).map fun i => n / 2 ^ i % 2).sum

/-- The header length of a node from the byte at LEN_OFF (R131). -/
def headerLength (n : List Word) (b : Nat) : Nat :=
  let base := field (par n 0) 15 8
  let scale := field (par n 0) 7 4
  let v := (BitVec.ofNat 8 b &&& BitVec.ofNat 8 (field (par n 1) 23 16)).toNat
  match nodeLenMode n with
  | 0 => base
  | 1 => base + v * scale
  | 2 => base + (v + 1) * scale
  | _ => base + popcount v * scale

/-- The node that the next field leads to (R132). -/
def nextNode (n : List Word) (v : Nat) : Nat :=
  match (nodeTrans n).find? fun w => flag w 31 && field w 15 0 == v with
  | some w => transTarget w
  | none => nodeMiss n

/-! ## The walk (R125) -/

/-- What a walk works on: the graph, the port's limits, where the pass starts, the bytes, and the trailer bytes to
deduct (R143, R146). -/
structure WalkEnv where
  graph : List (Nat × List Word)
  limit : Nat
  hdrM1 : Nat
  base : Nat
  trailer : Nat
  bytes : List Byte

/-- A walk under way: where it stands, how many headers count toward the limit, the last matched next field, where the
payload of the last IP header ends, and the result so far. -/
structure WalkSt where
  node : Nat
  off : Nat
  hdrs : Nat
  via : Nat
  ipEnd : Option Nat
  res : ParseResult

/-- Bytes `i` to `i + n - 1` lie within the frame and the byte limit (R143). -/
def WalkEnv.reads (v : WalkEnv) (i n : Nat) : Bool := decide (i + n ≤ v.bytes.length) && decide (i + n - v.base ≤ v.limit)

/-- The bytes that follow an offset, the trailer left out (R143). -/
def WalkEnv.available (v : WalkEnv) (i : Nat) : Nat := v.bytes.length - i - v.trailer

/-- A surplus is permitted as padding (R143). -/
def WalkEnv.padded (v : WalkEnv) : Bool := decide (v.bytes.length ≤ 60)

/-- The first failure kept. -/
def keepFirst (a b : Option Conflict) : Option Conflict :=
  match a with
  | some c => some c
  | none => b

/-- A conflict when a condition fails. -/
def conflictIf (b : Bool) (kind node : Nat) : Option Conflict := if b then some { kind := kind, node := node } else none

/-- The fragment header: the one that next header 44 leads to (DEDUCED, log 130). -/
def isFragHdr (n : List Word) (via : Nat) : Bool := nodeCheck n == 4 && via / 256 == 44

/-- The head-resolved checks of a node at an offset (Table 4.7): the failure, and whether the walk ends there. A CHECK runs on the
bytes of its node whatever the node's HDR_KIND is (DESIGN CHOICE, log 131). -/
def headCheck (v : WalkEnv) (w : WalkSt) (n : List Word) : Option Conflict × Bool :=
  let o := w.off
  let bs := v.bytes
  match nodeCheck n with
  | 1 => (conflictIf (v.reads (o + 12) 2 && half bs (o + 12) == 0) 11 w.node, false)
  | 2 =>
    let ihl := byteAt bs o % 16
    if v.reads o 1 && decide (ihl < 5) then (conflictIf true 1 w.node, true)
    else (conflictIf (v.reads o 1 && v.reads (o + 2) 2 && decide (half bs (o + 2) < 4 * ihl)) 2 w.node, false)
  | 3 => (conflictIf (v.reads (o + 4) 3 && half bs (o + 4) == 0 && byteAt bs (o + 6) != 59) 6 w.node, false)
  | 4 => (conflictIf (isFragHdr n w.via && v.reads (o + 1) 1 && byteAt bs (o + 1) != 0) 14 w.node, false)
  | 5 =>
    if v.reads (o + 4) 2 && decide (half bs (o + 4) < 8) then (conflictIf true 8 w.node, true)
    else
      let bad := match w.ipEnd with
        | some e => !w.res.frag && v.reads (o + 4) 2 && decide ((half bs (o + 4) : Int) ≠ (e : Int) - (o : Int))
        | none => false
      (conflictIf bad 9 w.node, false)
  | 6 => (conflictIf (v.reads (o + 2) 2 && decide (half bs (o + 2) < 34)) 13 w.node, false)
  | _ => (none, false)

/-- The tail-resolved checks of a recorded header (Table 4.7). A check whose field lies past the end of the frame or past the byte
limit is not made (R143). -/
def tailCheck (v : WalkEnv) (node o len check : Nat) : Option Conflict :=
  let bs := v.bytes
  match check with
  | 1 =>
    let t := half bs (o + 12)
    let av := v.available (o + len)
    conflictIf (v.reads (o + 12) 2 && decide (t < 0x05DD) && t != 0 && (decide (t > av) || (decide (t < av) && !v.padded))) 11 node
  | 2 =>
    let total := half bs (o + 2)
    let av := v.available o
    if v.reads (o + 2) 2 then
      keepFirst (conflictIf (decide (total > av)) 3 node) (conflictIf (decide (av > total) && !v.padded) 4 node)
    else none
  | 3 =>
    let pl := half bs (o + 4)
    let av := v.available (o + len)
    if v.reads (o + 4) 2 then
      keepFirst (conflictIf (decide (pl > av)) 5 node) (conflictIf (decide (av > pl) && !v.padded) 7 node)
    else none
  | 6 => conflictIf (v.reads (o + 2) 2 && decide (half bs (o + 2) > v.available o)) 13 node
  | 7 => conflictIf (v.reads o 2 && decide (half bs o % 4096 ≠ v.bytes.length - 14)) 12 node
  | _ => none

/-- An IPv4 node whose version is not 4, or an IPv6 node whose version is not 6 (R135). -/
def badVersion (v : WalkEnv) (kind o : Nat) : Bool :=
  v.reads o 1 &&
    (((kind == 5 || kind == 13) && byteAt v.bytes o / 16 != 4) || ((kind == 6 || kind == 14) && byteAt v.bytes o / 16 != 6))

/-- The one's complement sum of the 16-bit words of a header. -/
def onesSum (bs : List Byte) (o len : Nat) : Nat :=
  let t := ((List.range (len / 2)).map fun k => half bs (o + 2 * k)).sum
  let t1 := t % 65536 + t / 65536
  t1 % 65536 + t1 / 65536

/-- The walk ended, at a node and offset. -/
def WalkSt.stop (w : WalkSt) : ParseResult := { w.res with endNode := w.node, endOff := w.off }

/-- The walk ended at a limit (R125, R148). -/
def WalkSt.trunc (w : WalkSt) (reason : Nat) : ParseResult := { w.stop with reason := reason }

/-- The walk ended past the end of the frame: HDR_PAST_END, a tail-resolved failure. -/
def WalkSt.pastEnd (w : WalkSt) : ParseResult :=
  { w.stop with tail := keepFirst w.res.tail (some { kind := 10, node := w.node }) }

/-- What a recorded header adds to the flags of Table 4.1: FRAG, FRAG_LATER and IP4_CSUM_BAD. -/
def headerFlags (v : WalkEnv) (n : List Word) (via o len : Nat) (r : ParseResult) : ParseResult :=
  let kind := nodeKind n
  let bs := v.bytes
  if kind = 5 ∨ kind = 13 then
    let fo := half bs (o + 6)
    let mf := fo / 8192 % 2 == 1
    let off := fo % 8192
    { r with frag := r.frag || mf || off != 0, fragLater := r.fragLater || off != 0,
             csumBad := r.csumBad || onesSum bs o len != 0xFFFF }
  else if isFragHdr n via then
    { r with frag := true, fragLater := r.fragLater || half bs (o + 2) / 8 != 0 }
  else r

/-- Where the payload of an IP header ends by its own length field (UDP_MISMATCH). -/
def ipEndOf (kind : Nat) (bs : List Byte) (o : Nat) (old : Option Nat) : Option Nat :=
  if kind = 5 ∨ kind = 13 then some (o + half bs (o + 2))
  else if kind = 6 ∨ kind = 14 then some (o + 40 + half bs (o + 4))
  else old

/-- A header recorded, its tail-resolved checks made. -/
def recordHdr (v : WalkEnv) (w : WalkSt) (n : List Word) (len : Nat) : WalkSt :=
  let r := headerFlags v n w.via w.off len w.res
  { w with hdrs := if len > 0 then w.hdrs + 1 else w.hdrs,
           ipEnd := ipEndOf (nodeKind n) v.bytes w.off w.ipEnd,
           res := { r with hdrs := r.hdrs ++ [(w.node, nodeKind n, w.off)],
                           tail := keepFirst r.tail (tailCheck v w.node w.off len (nodeCheck n)) } }

/-- Visits made to a node so far. -/
def visitsOf (node : Nat) (hs : List (Nat × Nat × Nat)) : Nat := (hs.filter fun h => h.1 == node).length

/-- The walk after its checks: length, limits, record, next node. A type/length field of 0x05DD to 0x05FF is an unknown type and ends
the walk, whatever next field the node names (LLC_LENGTH). `go` is the rest of the walk. -/
def walkNode (v : WalkEnv) (w : WalkSt) (n : List Word) (go : WalkSt → ParseResult) : ParseResult :=
  let lenAt := w.off + field (par n 1) 31 26
  let needs := nodeLenMode n != 0
  if needs && decide (lenAt + 1 > v.bytes.length) then w.pastEnd
  else if needs && decide (lenAt + 1 - v.base > v.limit) then w.trunc 2
  else
    let len := headerLength n (byteAt v.bytes lenAt)
    if len == 0 && needs then w.trunc 3
    else if w.off + len > v.bytes.length then w.pastEnd
    else if w.off + len - v.base > v.limit then w.trunc 2
    else if len > 0 ∧ w.hdrs = v.hdrM1 + 1 then w.trunc 1
    else if w.res.hdrs.length = 16 then w.trunc 1
    else if visitsOf w.node w.res.hdrs = field (par n 2) 23 20 + 1 then w.trunc 3
    else
      let r := recordHdr v w n len
      let past : WalkSt := { r with off := w.off + len }
      let lengthType := half v.bytes (w.off + 12)
      let unknown := nodeCheck n == 1 && v.reads (w.off + 12) 2 && decide (0x05DD ≤ lengthType) && decide (lengthType < 0x0600)
      if r.res.fragLater then past.stop
      else if unknown then past.stop
      else if nodeMask n = 0 then
        if nodeMiss n = 64 then past.stop else go { past with node := nodeMiss n, via := 0 }
      else
        let f := w.off + field (par n 2) 31 26
        if f + 2 > v.bytes.length then past.pastEnd
        else if f + 2 - v.base > v.limit then past.trunc 2
        else
          let val := (BitVec.ofNat 16 (half v.bytes f) &&& BitVec.ofNat 16 (nodeMask n)).toNat
          let nx := nextNode n val
          if nx = 64 then past.stop else go { past with node := nx, via := val }

/-- The walk, one node at a time; at most 17 nodes are visited before a limit ends it. -/
def walk (v : WalkEnv) : Nat → WalkSt → ParseResult
  | 0, w => w.stop
  | fuel + 1, w =>
    let n := nodeOf v.graph w.node
    if nodeKind n = 0 then { w.stop with deadEnd := true }
    else if badVersion v (nodeKind n) w.off then w.stop
    else
      let (c, ends) := headCheck v w n
      let w1 := { w with res := { w.res with head := keepFirst w.res.head c } }
      if ends then w1.stop else walkNode v w1 n (walk v fuel)

/-- A result before the walk. -/
def parseNone : ParseResult :=
  { hdrs := [], frag := false, fragLater := false, csumBad := false, reason := 0, endNode := 0, endOff := 0,
    deadEnd := false, head := none, tail := none }

/-- The walk of a pass: from a node and an offset, with the port's settings (R125, R137). -/
def parseFrom (ps : ParserState) (q : PortParse) (node base trailer : Nat) (bs : List Byte) : ParseResult :=
  walk { graph := ps.graph, limit := q.byteLimit, hdrM1 := q.hdrM1, base := base, trailer := trailer, bytes := bs } 18
    { node := node, off := base, hdrs := 0, via := 0, ipEnd := none, res := parseNone }

/-! ## What a result says -/

/-- Headers by kind and offset, in the order recorded. -/
def ParseResult.list (r : ParseResult) : List (Nat × Nat) := r.hdrs.map fun (_, k, o) => (k, o)

/-- The offset of the first recorded header of a kind. -/
def hdrOff (k : Nat) (hs : List (Nat × Nat)) : Option Nat := (hs.find? fun h => h.1 == k).map fun h => h.2

/-- The recorded headers of a kind. -/
def hdrsOf (k : Nat) (hs : List (Nat × Nat)) : List Nat := (hs.filter fun h => h.1 == k).map fun h => h.2

/-- PTP_EVENT: a recorded PTP header with messageType 0 to 3 (Table 4.1). -/
def ptpEvent (bs : List Byte) (hs : List (Nat × Nat)) : Bool := (hdrsOf 17 hs).any fun o => decide (byteAt bs o % 16 < 4)

/-- The parse flags of Table 4.1; `late` includes the tail-resolved failures. -/
def parseFlags (r : ParseResult) (bs : List Byte) (late : Bool) : BitVec 8 :=
  let inner := r.hdrs.any fun (_, k, _) => decide (11 ≤ k) && decide (k ≤ 16)
  BitVec.ofNat 8 (bit (r.reason != 0) * 128 + bit (r.head.isSome || (late && r.tail.isSome)) * 64 + bit r.frag * 32
    + bit r.fragLater * 16 + bit r.csumBad * 8 + bit (ptpEvent bs r.list) * 4 + bit inner * 2)

/-- The first failed check of a frame: head-resolved ones come first (R144). -/
def ParseResult.conflict (r : ParseResult) : Option (Conflict × Bool) :=
  match r.head, r.tail with
  | some c, _ => some (c, false)
  | none, some c => some (c, true)
  | none, none => none

/-- PARSE_LAST_TRUNC (Table 4.8). -/
def truncWord (port : Nat) (r : ParseResult) : Word :=
  pack [(port, 26), (r.endNode, 16), (r.endOff % 512, 7), (r.reason, 5)]

/-- PARSE_LAST_CONF (Table 4.8). -/
def confWord (port : Nat) (c : Conflict) (tail stomped : Bool) : Word :=
  pack [(port, 26), (c.kind, 22), (c.node, 16), (bit tail, 15), (bit stomped, 14)]

/-- The PRP trailer of a frame (R146): the suffix is there; it is valid; its sequence number. `hsr` says that pass 0
recorded an HSR header. -/
def prpTrailer (bs : List Byte) (hsr : Bool) : Bool × Option Nat :=
  let n := bs.length
  if n < 20 ∨ half bs (n - 2) ≠ 0x88FB then (false, none)
  else
    let size := half bs (n - 4) % 4096
    let want := if hsr then n - 20 else n - 14
    if size = want then (true, some (half bs (n - 6))) else (true, none)

/-- The parser registers (Table 4.8). -/
def parserReg (x : Engine) (off : Nat) : Option Word :=
  match off with
  | 0x0300 => some (pack [(x.parser.gen, 16), (x.parser.staged.length, 8)])
  | 0x0304 => some x.parser.lastTrunc
  | 0x0308 => some x.parser.lastConf
  | _ => none

/-! ## Commands (Table 4.5) -/

/-- PARSE.SET_PORT (R140). -/
def parseSetPortSpec : CmdSpec :=
  portSpec 0x0301 (lenIs 3)
    (fun ps => zeroBits ps 0 31 6 && zeroBits ps 1 31 25 && zeroBits ps 1 15 12 && zeroBits ps 1 7 6 && zeroBits ps 2 31 9
      && zeroBits ps 2 7 6 && zeroBits ps 2 3 2)
    (fun ps => field (par ps 0) 5 0)
    (fun c ps s =>
      let p := field (par ps 0) 5 0
      let lim := field (par ps 1) 24 16
      rangeIf (decide (p > 33) || decide (lim < 14) || decide (lim > 256) || field (par ps 2) 5 4 == 3
        || field (par ps 2) 1 0 == 3 || (flag (par ps 2) 8 && decide (p > 31))
        || nodeKind (nodeOf (s.eng c.eng).parser.graph (field (par ps 1) 5 0)) == 0))
    neverJudge
    (fun c ps s => onSelf c (fun x =>
      let q : PortParse :=
        { byteLimit := field (par ps 1) 24 16, hdrM1 := field (par ps 1) 11 8, start := field (par ps 1) 5 0,
          prp := flag (par ps 2) 8, confAct := field (par ps 2) 5 4, truncAct := field (par ps 2) 1 0 }
      { x with parser := { x.parser with ports := vmodN x.parser.ports (field (par ps 0) 5 0) fun _ => q } }) s)

/-- The reserved bits of a node are 0 (Table 4.2). -/
def nodeRsvdOk (n : List Word) : Bool :=
  zeroBits n 0 21 16 && zeroBits n 1 25 24 && zeroBits n 2 25 24 && zeroBits n 2 19 15 && zeroBits n 2 7 0
    && (nodeTrans n).all fun w => field w 23 16 == 0

/-- A node that Table 4.5 refuses. -/
def nodeBad (n : List Word) : Bool :=
  let k := nodeKind n
  (decide (k ≥ 22) && decide (k ≤ 127)) || decide (nodeCheck n ≥ 8)
    || (field (par n 1) 23 16 != 0 && nodeLenMode n == 0) || decide (nodeMiss n > 64)
    || (nodeTrans n).any fun w =>
      decide (transTarget w > 64) || (BitVec.ofNat 16 (field w 15 0) &&& ~~~(BitVec.ofNat 16 (nodeMask n))) != 0

/-- PARSE.WRITE_NODE (R131, R136). -/
def parseWriteNodeSpec : CmdSpec :=
  configSpec 0x0302 (lenIs 16) (fun ps => zeroBits ps 0 31 6 && nodeRsvdOk (ps.drop 1))
    (fun _ ps _ => rangeIf (nodeBad (ps.drop 1))) neverJudge
    (fun c ps s => onSelf c (fun x =>
      { x with parser := { x.parser with staged := insertAt (field (par ps 0) 5 0) (ps.drop 1) x.parser.staged } }) s)

/-- PARSE.READ_NODE (R131). -/
def parseReadNodeSpec : CmdSpec :=
  readSpec 0x0303 true (lenIs 1) (fun ps => zeroBits ps 0 30 6) neverAbsent neverRange neverJudge
    (fun c ps s =>
      let p := (s.eng c.eng).parser
      let i := field (par ps 0) 5 0
      let n := match (if flag (par ps 0) 31 then findAt i p.staged else none) with
        | some n => n
        | none => nodeOf p.graph i
      .now s (n ++ [pack [(p.gen, 16)]]))

/-- The graph as it would stand after a commit (R138). A node staged as unused leaves the list. -/
def mergedGraph (p : ParserState) : List (Nat × List Word) :=
  p.staged.foldl (fun g (i, n) => put (List.replicate 15 0#32) i n g) p.graph

/-- The nodes a node leads to: an unused node, and the transitions of a node with NEXT_MASK 0, make no link (DEDUCED, log 132). -/
def nodeTargets (n : List Word) : List Nat :=
  let ts := if nodeMask n = 0 then [] else ((nodeTrans n).filter fun w => flag w 31).map transTarget
  (nodeMiss n :: ts).filter fun t => decide (t < 64)

/-- A node of length 0 by design (R126). -/
def zeroLength (n : List Word) : Bool := nodeKind n != 0 && nodeLenMode n == 0 && field (par n 0) 15 8 == 0

/-- The nodes of length 0 that a set leads to in one move, added to the set. -/
def spreadZero (g : List (Nat × List Word)) (set : List Nat) : List Nat :=
  (List.range 64).filter fun i =>
    set.contains i || (zeroLength (nodeOf g i) && set.any fun j => (nodeTargets (nodeOf g j)).contains i)

/-- The nodes of length 0 that can be reached from a node. -/
def zeroReach (g : List (Nat × List Word)) : Nat → List Nat → List Nat
  | 0, set => set
  | k + 1, set =>
    let next := spreadZero g set
    if next.length = set.length then set else zeroReach g k next

/-- A node on a cycle of nodes of length 0 (R138, reason 1). -/
def onZeroCycle (g : List (Nat × List Word)) (i : Nat) : Bool :=
  let n := nodeOf g i
  zeroLength n &&
    let first := (List.range 64).filter fun t => (nodeTargets n).contains t && zeroLength (nodeOf g t)
    (zeroReach g 64 first).contains i

/-- A transition of a node that maps AHNUD_ETYPE or 0x88B5 to a node of another kind (R138, reason 2). -/
def mapsReserved (g : List (Nat × List Word)) (etype : Nat) (i : Nat) : Bool :=
  let n := nodeOf g i
  let k := nodeKind n
  let m := BitVec.ofNat 16 (nodeMask n)
  let hits (v kind : Nat) (w : Word) : Bool :=
    flag w 31 && BitVec.ofNat 16 (field w 15 0) == (BitVec.ofNat 16 v &&& m) && decide (transTarget w < 64)
      && nodeKind (nodeOf g (transTarget w)) != kind
  (k == 1 || k == 11 || k == 2 || k == 12 || k == 18) && (nodeTrans n).any fun w => hits etype 19 w || hits 0x88B5 20 w

/-- The lowest reason a node breaks (R138); 0 for none. -/
def commitReason (g : List (Nat × List Word)) (x : Engine) (i : Nat) : Nat :=
  if onZeroCycle g i then 1
  else if mapsReserved g x.ports.etype.toNat i then 2
  else if nodeKind (nodeOf g i) == 0 && (x.parser.ports.toList.any fun q => q.start == i) then 3
  else 0

/-- The lowest-numbered offending node and its reason. -/
def commitRefused (x : Engine) : Option (Nat × Nat) :=
  let g := mergedGraph x.parser
  ((List.range 64).find? fun i => commitReason g x i != 0).map fun i => (i, commitReason g x i)

/-- PARSE.COMMIT (R136, R138). -/
def parseCommitSpec : CmdSpec :=
  configSpec 0x0304 (lenIs 0) (fun _ => true)
    (fun c _ s =>
      let x := s.eng c.eng
      if x.parser.staged.isEmpty then none
      else (commitRefused x).map fun (i, r) => [pack [(x.parser.gen, 16)], pack [(i, 8), (r, 0)]])
    neverJudge
    (fun c _ s =>
      let p := (s.eng c.eng).parser
      let n := p.staged.length
      let gen := if n = 0 then p.gen else (p.gen + 1) % 65536
      .now (s.modEng c.eng fun x => { x with parser := { x.parser with graph := mergedGraph p, staged := [], gen := gen } })
        [pack [(gen, 16), (n, 0)], pack [(64, 8)]])

/-- PARSE.LOAD_DEFAULTS (R133): the shipped graph is staged, all 64 nodes. -/
def parseLoadDefaultsSpec : CmdSpec :=
  configSpec 0x0305 (lenIs 0) (fun _ => true) neverRange neverJudge
    (fun c _ s => onSelf c (fun x =>
      let g := shippedGraph x.ports.etype.toNat
      { x with parser := { x.parser with staged := (List.range 64).map fun i => (i, nodeOf g i) } }) s)

/-- The transitions to AHNUD nodes carry a new EtherType (R139); `kindOf` gives the kinds of the graph judged. -/
def retype (kindOf : Nat → Nat) (etype : Nat) (n : List Word) : List Word :=
  n.take 3 ++ (nodeTrans n).map fun w =>
    if transTarget w < 64 ∧ kindOf (transTarget w) = 19 then
      (w &&& 0xFFFF0000#32) ||| (word etype &&& word (nodeMask n))
    else w

/-- The committed and the staged graph under a new AHNUD_ETYPE (R139). -/
def retypeGraphs (etype : Nat) (p : ParserState) : ParserState :=
  let merged := mergedGraph p
  { p with graph := p.graph.map fun (i, n) => (i, retype (fun t => nodeKind (nodeOf p.graph t)) etype n),
           staged := p.staged.map fun (i, n) => (i, retype (fun t => nodeKind (nodeOf merged t)) etype n),
           gen := (p.gen + 1) % 65536 }

/-- An EtherType that the committed graph assigns to another header (R124, R139). -/
def etypeTaken (p : ParserState) (etype : Nat) : Bool :=
  etype == 0x88B5 || p.graph.any fun (_, n) =>
    let k := nodeKind n
    (k == 1 || k == 11 || k == 2 || k == 12 || k == 18) && (nodeTrans n).any fun w =>
      flag w 31 && decide (transTarget w < 64) && nodeKind (nodeOf p.graph (transTarget w)) != 19
        && field w 15 0 == (BitVec.ofNat 16 etype &&& BitVec.ofNat 16 (nodeMask n)).toNat

end Sys2Proof.Machine
end

