-- ==== Sys2Proof/Machine/Classifier.lean ====
section
/-! DEFINITION. The classifier (chapter "Classification, forwarding tables and the Roundabout"): keys and matches,
actions, meters, the forwarding table and learning, load spreading, and the RULE and FWD commands. -/

namespace Sys2Proof.Machine

/-! ## The associative memory (R153-R155) -/

/-- A bank of an engine. -/
def RuleState.bank (r : RuleState) (b : Bool) : AmBank := if b then r.bankB else r.bankA

/-- A bank of an engine changed. -/
def RuleState.modBank (r : RuleState) (b : Bool) (f : AmBank → AmBank) : RuleState :=
  if b then { r with bankB := f r.bankB } else { r with bankA := f r.bankA }

/-- Extracts of a key (R154). -/
def extractsOf (wide : Bool) : Nat := if wide then 38 else 18

/-- Entries of a bank (R153). -/
def bankSize (unified wide : Bool) : Nat :=
  match unified, wide with
  | false, false => 4096
  | false, true => 2048
  | true, false => 8192
  | true, true => 4096

/-- An extract: its value, or none when it is absent (R154). `limit` is the offset that no byte may reach. -/
def extract (hs : List (Nat × Nat)) (bs : List Byte) (limit : Nat) (d : Word) : Option Nat :=
  let kind := field d 31 24
  if kind = 0 then some 0
  else
    let os := hdrsOf kind hs
    let inst := field d 23 21
    let at_ := if inst = 7 then os.getLast? else os[inst]?
    match at_ with
    | none => none
    | some o =>
      let i := o + field d 14 8
      if i + 2 > bs.length ∨ i + 2 > limit then none else some (half bs i)

/-- The metadata word (Table 5.2). -/
def metaWord (port : Nat) (flags : BitVec 8) (pass1 : Bool) (last meta_ : Nat) : Nat :=
  port * 2 ^ 26 + flags.toNat / 2 * 2 ^ 19 + bit pass1 * 2 ^ 18 + last * 2 ^ 10 + meta_ * 4

/-- A key and the bits over its absent extracts. -/
structure Key where
  key : Nat
  absent : Nat
deriving DecidableEq, Repr

/-- The key of a frame under a profile (R154). -/
def buildKey (ds : List Word) (n : Nat) (meta_ : Nat) (hs : List (Nat × Nat)) (bs : List Byte) (limit : Nat) : Key :=
  ((List.range n).foldl (fun (k : Key) i =>
    match extract hs bs limit (par ds i) with
    | some v => { key := k.key * 65536 + v, absent := k.absent * 65536 }
    | none => { key := k.key * 65536, absent := k.absent * 65536 + 65535 }) { key := meta_, absent := 0 })

/-- An entry matches a key (R128, R153). -/
def matchesKey (k : Key) (e : AmEntry) : Bool := (k.key &&& e.mask) == e.key && (k.absent &&& e.mask) == 0

/-- The winning entry of a bank: the lowest index (R149). -/
def searchBank (b : AmBank) (k : Key) : Option (Nat × AmEntry) := b.entries.find? fun e => matchesKey k e.2

/-- The miss action (R150). -/
def missAction : List Word := [0, 0, 0, 0]

/-! ## Actions (Table 5.6) -/

/-- FWD_KIND. -/
def actKind (a : List Word) : Nat := field (par a 0) 31 29
/-- FWD_ARG. -/
def actArg (a : List Word) : Nat := field (par a 0) 28 16
/-- QSEL. -/
def actQsel (a : List Word) : Bool := flag (par a 0) 15
/-- CLASS. -/
def actClass (a : List Word) : Nat := field (par a 0) 14 12
/-- LAUNCH. -/
def actLaunch (a : List Word) : Bool := flag (par a 0) 11
/-- LQ. -/
def actLq (a : List Word) : Nat := field (par a 0) 10 10
/-- TS_REQ. -/
def actTs (a : List Word) : Bool := flag (par a 0) 9
/-- TRAP. -/
def actTrap (a : List Word) : Bool := flag (par a 0) 8
/-- MIRROR. -/
def actMirror (a : List Word) : Bool := flag (par a 0) 7
/-- MIRROR_SESS. -/
def actSession (a : List Word) : Nat := field (par a 0) 6 4
/-- METER. -/
def actMeter (a : List Word) : Bool := flag (par a 0) 3
/-- REWRITE. -/
def actRewrite (a : List Word) : Bool := flag (par a 0) 2
/-- TRAP_REASON. -/
def actReason (a : List Word) : Nat := field (par a 1) 31 24
/-- META. -/
def actMeta (a : List Word) : Nat := field (par a 1) 23 16
/-- RECIRC. -/
def actRecirc (a : List Word) : Bool := flag (par a 1) 15
/-- RESUME_NODE. -/
def actNode (a : List Word) : Nat := field (par a 1) 14 9
/-- RESUME_HDR. -/
def actHdr (a : List Word) : Nat := field (par a 1) 8 5
/-- STRIP. -/
def actStrip (a : List Word) : Bool := flag (par a 1) 4
/-- METER_IDX. -/
def actMeterIdx (a : List Word) : Nat := field (par a 2) 31 21
/-- REWRITE_IDX. -/
def actRewriteIdx (a : List Word) : Nat := field (par a 2) 20 11
/-- STAMP_TAG. -/
def actTag (a : List Word) : Nat := field (par a 3) 31 16
/-- CNT. -/
def actCnt (a : List Word) : Bool := flag (par a 3) 15
/-- CNT_IDX. -/
def actCntIdx (a : List Word) : Nat := field (par a 3) 11 0

/-- The reserved bits of an action, and the fields that Table 5.6 makes 0. -/
def actionRsvdOk (a : List Word) : Bool :=
  zeroBits a 0 1 0 && zeroBits a 1 3 0 && zeroBits a 2 10 0 && zeroBits a 3 14 12
    && !((actKind a == 0 || actKind a == 4) && actArg a != 0) && (actQsel a || actClass a == 0)
    && (actTrap a || actReason a == 0) && (actRecirc a || actMeta a == 0)

/-- An action that Table 5.7 refuses with ERR_RANGE. -/
def actionBad (a : List Word) : Bool :=
  let k := actKind a
  decide (k ≥ 5) || (k == 1 && decide (actArg a > 33)) || (k == 2 && decide (actArg a > 63)) || (k == 3 && decide (actArg a > 4095))
    || (actRecirc a && k != 0) || (actTrap a && actReason a != 3 && actReason a != 4 && decide (actReason a < 16))

/-! ## Class and VID (R151) -/

/-- The TCI of the outermost VLAN tag, if the pass recorded one. -/
def outerTag (hs : List (Nat × Nat)) (bs : List Byte) : Option Nat := (hdrOff 2 hs).map fun o => half bs o

/-- The class of a frame by PCP_MAP or DEFAULT_CLASS. -/
def portClass (q : PortRule) (tci : Option Nat) : Nat :=
  match tci with
  | some t => q.pcpMap.toNat / 8 ^ (t / 8192) % 8
  | none => q.defClass

/-- The VID of a frame. -/
def portVid (q : PortRule) (tci : Option Nat) : Nat :=
  match tci with
  | some t => if t % 4096 = 0 then q.pvid else t % 4096
  | none => q.pvid

/-! ## The forwarding table (R170-R173) -/

/-- The key of a forwarding entry. -/
def fdbKey (vid mac : Nat) : Nat := vid * 2 ^ 48 + mac

/-- The bucket of a key: bits 13:0 of the CRC-32C of VID and address (R170). -/
def fdbBucket (key : Nat) : Nat := (crc32c (beBytes 8 key)).toNat % 16384

/-- The entries in a bucket. -/
def inBucket (b : Nat) (t : List (Nat × FdbEntry)) : Nat := (t.filter fun e => fdbBucket e.1 == b).length

/-- The dynamic entries of a port. -/
def dynamicOn (p : Nat) (t : List (Nat × FdbEntry)) : Nat :=
  (t.filter fun e => !e.2.static && e.2.kind == 0 && e.2.dest == p).length

/-- A learn record (Table 5.14) offered by the active (R171). -/
def learnRecord (e : EngId) (port event key : Nat) (x : Engine) : Engine :=
  if x.core.role = 1 then
    offerEvent e { type := 0x04, body := [pack [(port, 24), (event, 20), (key / 2 ^ 48, 0)], word (key % 2 ^ 48 / 2 ^ 32), word key]
      ++ stampWords x.now } 50 x
  else x

/-- A learn record when the port's mode asks for it. -/
def notifyLearn (e : EngId) (port event key : Nat) (x : Engine) : Engine :=
  if (vget x.rules.learn { mode := 1, limitDiscard := false, limit := 131072 } port).mode ≥ 2 then learnRecord e port event key x else x

/-- The forwarding table of an engine changed. -/
def Engine.modFdb (x : Engine) (f : List (Nat × FdbEntry) → List (Nat × FdbEntry)) : Engine :=
  { x with rules := { x.rules with fdb := f x.rules.fdb } }

/-- A change that learning or ageing makes to the active's table, for the next running commit (R340): while there is a
standby that copies. -/
def Engine.noteChange (x : Engine) (key : Nat) (v : Option FdbEntry) : Engine :=
  if x.core.role = 1 ∧ x.twin.copy ≠ 0 then { x with rules := { x.rules with changed := insertAt key v x.rules.changed } } else x

/-- An entry that learning writes. -/
def Engine.learnEntry (x : Engine) (key : Nat) (v : FdbEntry) : Engine := (x.modFdb (insertAt key v)).noteChange key (some v)

/-- The outcome of learning (Table 11.5 LEARN), whether the frame is discarded at the limit, and the engine after. -/
structure Learned where
  code : Nat
  discard : Bool
  eng : Engine

/-- Learning a source address on a port at a frame's tail (R171). A learned or moved entry starts with its hit bit set, and an entry that
names no port stands on another port than any (DESIGN CHOICE, log 161). -/
def learnSource (e : EngId) (port vid mac : Nat) (x : Engine) : Learned :=
  let key := fdbKey vid mac
  let q := vget x.rules.learn { mode := 1, limitDiscard := false, limit := 131072 } port
  if mac / 2 ^ 40 % 2 = 1 then { code := 0, discard := false, eng := x }
  else
    match findAt key x.rules.fdb with
    | none =>
      if q.mode = 3 then { code := 0, discard := false, eng := learnRecord e port 6 key x }
      else if q.mode = 0 then { code := 0, discard := false, eng := x }
      else if dynamicOn port x.rules.fdb ≥ q.limit then
        { code := 4, discard := q.limitDiscard, eng := notifyLearn e port 4 key (x.bumpPort port 26) }
      else if inBucket (fdbBucket key) x.rules.fdb ≥ 8 then
        { code := 5, discard := false, eng := notifyLearn e port 5 key (x.bump 49) }
      else
        let new : FdbEntry := { static := false, kind := 0, dest := port, hit := true }
        { code := 2, discard := false, eng := notifyLearn e port 1 key (x.learnEntry key new) }
    | some f =>
      if f.kind = 0 ∧ f.dest = port then { code := 1, discard := false, eng := x.modFdb (insertAt key { f with hit := true }) }
      else if f.static then { code := 6, discard := false, eng := x.bumpPort port 27 }
      else if q.mode = 1 ∨ q.mode = 2 then
        let y := (x.learnEntry key { f with kind := 0, dest := port, hit := true }).bump 47
        { code := 3, discard := false, eng := notifyLearn e port 2 key y }
      else if q.mode = 3 then { code := 0, discard := false, eng := learnRecord e port 7 key x }
      else { code := 0, discard := false, eng := x }

/-- One sweep of ageing (R173): dynamic entries with a clear hit bit go, the others lose it. The keys removed. -/
def agedOut (t : List (Nat × FdbEntry)) : List (Nat × FdbEntry) := t.filter fun e => !e.2.static && !e.2.hit

/-- The table after a sweep. -/
def afterSweep (t : List (Nat × FdbEntry)) : List (Nat × FdbEntry) :=
  (t.filter fun e => e.2.static || e.2.hit).map fun e => (e.1, if e.2.static then e.2 else { e.2 with hit := false })

/-! ## Meters (R160) -/

/-- The bytes a rate in kb/s gives in a time, and what stays below one byte, in units of 2^-16 ns x kb/s / 8 Gb. -/
def accrue (rate dt rest : Nat) : Nat × Nat :=
  let t := rate * 125 * dt + rest
  (t / s16u, t % s16u)
where
  /-- One second in 2^-16 ns. -/
  s16u : Nat := 65536000000000

/-- A meter brought up to a device time. -/
def meterRefill (now : Nat) (m : Meter) : Meter :=
  let dt := now - m.at_
  let (bc, rc) := accrue m.cir dt m.restC
  let (bp, rp) := accrue m.pir dt m.restP
  { m with tc := satN m.cbs (m.tc + bc), tp := satN m.pbs (m.tp + bp), restC := rc, restP := rp, at_ := now }

/-- The colours of RFC 2698. -/
inductive Colour where
  | green
  | yellow
  | red
deriving DecidableEq, Repr

/-- A frame of `n` bytes metered, colour-blind. A rate or burst of 0 means none. -/
def meterFrame (now n : Nat) (m0 : Meter) : Colour × Meter :=
  let m := meterRefill now m0
  if m.pir = 0 ∨ m.tp < n then (.red, m)
  else if m.cir = 0 ∨ m.tc < n then (.yellow, { m with tp := m.tp - n })
  else (.green, { m with tp := m.tp - n, tc := m.tc - n })

/-- A meter that was never written: it has no rate and no burst (R160, log 3). -/
def meterZero : Meter := { cir := 0, pir := 0, cbs := 0, pbs := 0, tc := 0, tp := 0, restC := 0, restP := 0, at_ := 0 }

/-! ## Load spreading (R174, R175) -/

/-- Which kinds of header a spread reads: outer, or inner when INNER = 1 and the frame has inner headers. -/
def spreadKinds (inner : Bool) : Nat × Nat × Nat × Nat × Nat := if inner then (11, 12, 13, 14, 16) else (1, 2, 5, 6, 8)

/-- `n` bytes at an offset of a recorded header, nothing when it is absent. -/
def hdrBytes (bs : List Byte) (o : Option Nat) (at_ n : Nat) : List Byte :=
  match o with
  | some o => (bs.drop (o + at_)).take n
  | none => []

/-- The hash input of a frame (R174); log 14 gives the widths of VID, flow label, MPLS label and port. -/
def spreadInput (g : Spread) (inner : Bool) (hs : List (Nat × Nat)) (bs : List Byte) (port : Nat) : List Byte :=
  let (eth, vlan, v4, v6, udp) := spreadKinds (g.inner && inner)
  let oe := hdrOff eth hs
  let ov := hdrOff vlan hs
  let lv := (hdrsOf vlan hs).getLast?
  let o4 := hdrOff v4 hs
  let o6 := hdrOff v6 hs
  let ou := hdrOff udp hs
  let lowBits (bits n : Nat) (v : Option Nat) : List Byte :=
    match v with
    | some v => beBytes n (v % 2 ^ bits)
    | none => []
  let num (o : Option Nat) (n : Nat) : Option Nat := o.map fun o => bytesAt bs o n
  let parts : List (List Byte) :=
    [hdrBytes bs oe 0 6, hdrBytes bs oe 6 6, lowBits 12 2 (num ov 2),
     (if lv.isSome then hdrBytes bs lv 2 2 else hdrBytes bs oe 12 2),
     hdrBytes bs o4 12 4 ++ (if o4.isSome then [] else hdrBytes bs o6 8 16),
     hdrBytes bs o4 16 4 ++ (if o4.isSome then [] else hdrBytes bs o6 24 16),
     hdrBytes bs o4 9 1 ++ (if o4.isSome then [] else hdrBytes bs o6 6 1),
     hdrBytes bs ou 0 2, hdrBytes bs ou 2 2, lowBits 20 3 (num o6 4),
     lowBits 20 3 ((num (hdrOff 3 hs) 4).map fun v => v / 4096), [BitVec.ofNat 8 port]]
  ((List.range 12).filter fun i => g.fields.getLsbD i).flatMap fun i => parts.getD i []

/-- The Toeplitz hash of a byte list under a 40-byte key (R174). Beyond its 40 bytes the key is taken as zeros (DESIGN CHOICE, log 14). -/
def toeplitz (key : List Word) (bs : List Byte) : BitVec 32 :=
  let k : BitVec 320 := BitVec.ofNat 320 (beNat (wordsBytes (key.take 10)))
  let m := beNat bs
  let n := bs.length * 8
  (List.range n).foldl (fun h i =>
    if m.testBit (n - 1 - i) then h ^^^ BitVec.ofNat 32 ((k <<< i).toNat / 2 ^ 288) else h) 0#32

/-- The hash of a spread group. -/
def spreadHash (g : Spread) (bs : List Byte) : BitVec 32 :=
  if g.toeplitz then toeplitz g.key bs else ~~~ (bs.foldl (crcByte 0x82F63B78#32) g.seed)

/-- A spread group that was never set (log 3). -/
def spreadZero0 : Spread := { fields := 0, inner := false, toeplitz := false, seed := 0, key := [] }

/-- What a probe of an indirection table finds (R175). -/
inductive Probe where
  | empty
  | noLive
  | found (w : Word)
deriving DecidableEq, Repr

/-- The probe from entry `i` with a step, over what is left of the table. A port that is down or unused, and the
ingress port, are passed over (R175, R505). -/
def probe (x : Engine) (g ingress step : Nat) : Nat → Nat → Probe
  | 0, _ => .noLive
  | k + 1, i =>
    let w := look 0#32 (g * 256 + i % 256) x.rules.indirect
    let p := field w 5 0
    if field w 31 30 = 0 then .empty
    else if (x.port p).up && p != ingress && !x.unused p then .found w
    else probe x g ingress step k (i + step)

/-- The spread of a frame over a group. -/
def spreadProbe (x : Engine) (g ingress : Nat) (inner : Bool) (hs : List (Nat × Nat)) (bs : List Byte) : Probe :=
  let sp := look spreadZero0 g x.rules.spreads
  let h := (spreadHash sp (spreadInput sp inner hs bs ingress)).toNat
  let step := h / 256 % 256
  probe x g ingress (if step % 2 = 0 then step + 1 else step) 256 (h % 256)

/-! ## Destinations -/

/-- A destination before admission (R149): the ports, the queue and template a spread entry names, the counter of the
engine that a discard adds to, whether the ingress port was the destination, and whether it is a group. -/
structure Dest where
  ports : BitVec 34
  queue : Option Nat
  template : Option Nat
  counter : Option Nat
  same : Bool
  multi : Bool
deriving DecidableEq, Repr

/-- No destination. -/
def destNone : Dest := { ports := 0, queue := none, template := none, counter := none, same := false, multi := false }

/-- One port as a mask. -/
def portBit (p : Nat) : BitVec 34 := 1#34 <<< p

/-- One port as the destination (R152). -/
def destPort (p ingress : Nat) : Dest :=
  if p = ingress then { destNone with same := true } else { destNone with ports := portBit p }

/-- A multicast group as the destination; `flood` says that a miss named it (Table 5.15). -/
def destGroup (x : Engine) (g ingress : Nat) (flood : Bool) : Dest :=
  let m := look 0#34 g x.rules.mcast
  { destNone with ports := m &&& ~~~(portBit ingress), multi := true,
                  counter := if flood && m == 0 then some 40 else none }

/-- A spread group as the destination. -/
def destSpread (x : Engine) (g ingress : Nat) (inner : Bool) (hs : List (Nat × Nat)) (bs : List Byte) : Dest :=
  match spreadProbe x g ingress inner hs bs with
  | .empty => { destNone with counter := some 51 }
  | .noLive => { destNone with counter := some 52 }
  | .found w =>
    let k := field w 31 30
    { destNone with ports := portBit (field w 5 0), queue := if k = 2 then some (field w 9 6) else none,
                    template := if k = 3 then some (field w 25 16) else none }

/-- The destination of an action (R149, R170): `da` and `vid` are what FWD_KIND 0 looks up. -/
def resolveDest (x : Engine) (act : List Word) (ingress da vid : Nat) (inner : Bool) (hs : List (Nat × Nat)) (bs : List Byte) :
    Dest :=
  match actKind act with
  | 0 =>
    match findAt (fdbKey vid da) x.rules.fdb with
    | none => destGroup x (look 0 vid x.rules.floods) ingress true
    | some f =>
      match f.kind with
      | 0 => destPort f.dest ingress
      | 1 => destSpread x f.dest ingress inner hs bs
      | 2 => destGroup x f.dest ingress false
      | _ => destNone
  | 1 => destPort (actArg act) ingress
  | 2 => destSpread x (actArg act) ingress inner hs bs
  | 3 => destGroup x (actArg act) ingress false
  | _ => destNone

/-- The ports of a destination that R505 discards. -/
def unusedOf (x : Engine) (m : BitVec 34) : BitVec 34 :=
  (List.range 32).foldl (fun r p => if m.getLsbD p && x.unused p then r ||| portBit p else r) 0

/-! ## The bank of a frame (R163, R164) -/

/-- The epoch that a frame stamped at `t` records for its first pass, and EPOCH_EDGE: within 64 ps of FLIP_AT, of a pending flip or
of the last one. A first pass takes place at most 2.048 us after its stamp, so no stamp lies further before the last flip. -/
def epochOf (r : RuleState) (t : Nat) : Nat × Bool :=
  let near (f : Option Nat) : Bool := match f with
    | some f => decide (t ≤ f + 4194) && decide (f ≤ t + 4194)
    | none => false
  let epoch := match r.flip, r.lastFlip with
    | some f, _ => if t ≥ f then (r.epoch + 1) % 65536 else r.epoch
    | none, some f => if t < f ∧ f ≤ t + 262144000 then (r.epoch + 65535) % 65536 else r.epoch
    | none, none => r.epoch
  (epoch, near r.flip || near r.lastFlip)

/-- The bank of an epoch (R149): the live bank of the live epoch; the other one of the epoch before or after a flip. In the unified
organisation there is bank A alone. -/
def bankOfEpoch (r : RuleState) (epoch : Nat) : Bool := if r.unified || epoch == r.epoch then r.liveB else !r.liveB

/-! ## Registers -/

/-- RULE_STATUS and FWD_STATUS (Tables 5.12 and 5.18). -/
def ruleReg (x : Engine) (off : Nat) : Option Word :=
  let r := x.rules
  match off with
  | 0x0400 => some (pack [(r.epoch, 16), (bit r.liveB, 15), (bit r.unified, 14), (bit r.bankA.wide, 13),
                          (bit (r.bankB.wide && !r.unified), 12), (bit r.drain.isSome, 11), (bit r.flip.isSome, 10)])
  | 0x0404 => some (word r.fdb.length)
  | _ => none

/-! ## RULE commands -/

/-- A flip is pending or draining (R161). -/
def flipBusy (c : Ctx) (s : State) : Option (Status × List Word) :=
  statusIf ((s.eng c.eng).rules.flip.isSome || (s.eng c.eng).rules.drain.isSome) .busy

/-- BANK = 1 in the unified organisation (R161). -/
def noBankB (c : Ctx) (ps : List Word) (s : State) : Option (Status × List Word) :=
  statusIf (flag (par ps 0) 31 && (s.eng c.eng).rules.unified) .state

/-- The bank that bit 31 of word 0 names. -/
def bankOf (c : Ctx) (ps : List Word) (s : State) : AmBank := (s.eng c.eng).rules.bank (flag (par ps 0) 31)

/-- The classifier of an engine changed. -/
def modRules (f : RuleState → RuleState) (x : Engine) : Engine := { x with rules := f x.rules }

/-- RULE.SET_PORT (Table 5.1). -/
def ruleSetPortSpec : CmdSpec :=
  portSpec 0x0408 (lenIs 3) (fun ps => zeroBits ps 0 31 6 && zeroBits ps 1 31 27 && zeroBits ps 2 31 28 && zeroBits ps 2 15 3)
    (fun ps => field (par ps 0) 5 0)
    (fun _ ps _ => rangeIf (decide (field (par ps 0) 5 0 > 33) || field (par ps 2) 27 16 == 0 || field (par ps 2) 27 16 == 4095))
    neverJudge
    (fun c ps s => onSelf c (modRules fun r => { r with ports := vmodN r.ports (field (par ps 0) 5 0) fun _ =>
      { profile := field (par ps 1) 26 24, pcpMap := BitVec.ofNat 24 (field (par ps 1) 23 0), pvid := field (par ps 2) 27 16,
        defClass := field (par ps 2) 2 0 } }) s)

/-- The key, mask and action words of RULE.WRITE_ENTRY for a width. -/
def entryParts (wide : Bool) (ps : List Word) : List Word × List Word × List Word :=
  let k := if wide then 20 else 10
  ((ps.drop 1).take k, (ps.drop (1 + k)).take k, (ps.drop (1 + 2 * k)).take 4)

/-- A number from words, most significant first. -/
def wordsNat (ws : List Word) : Nat := ws.foldl (fun a w => a * 2 ^ 32 + w.toNat) 0

/-- RULE.WRITE_ENTRY (R157, Table 5.7). -/
def ruleWriteEntrySpec : CmdSpec :=
  { configSpec 0x0401 (fun c s ps => ps.length == if (bankOf c ps s).wide then 45 else 25)
      (fun ps => zeroBits ps 0 29 13 && actionRsvdOk (ps.drop (ps.length - 4)))
      (fun c ps s => rangeIf (actionBad (ps.drop (ps.length - 4))
        || decide (field (par ps 0) 12 0 ≥ bankSize (s.eng c.eng).rules.unified (bankOf c ps s).wide)))
      (fun c ps s => firstOf [noBankB c ps s, flipBusy c s])
      (fun c ps s =>
        let b := flag (par ps 0) 31
        let live := (s.eng c.eng).rules.liveB == b
        let (k, m, a) := entryParts (bankOf c ps s).wide ps
        let mask := wordsNat m
        let ent : AmEntry := { key := wordsNat k &&& mask, mask := mask, action := a }
        let i := field (par ps 0) 12 0
        .now (s.modEng c.eng (modRules fun r => r.modBank b fun q =>
            { q with entries := if flag (par ps 0) 30 then insertAt i ent q.entries else eraseAt i q.entries }))
          [pack [((s.eng c.eng).rules.epoch, 16), (bit live, 0)]]) with
    absent := fun p ps =>
      let a := ps.drop (ps.length - 4)
      (actKind a == 1 && absentPort p (actArg a))
        || (actCnt a && lanesOf p == 16 && decide (actCntIdx a ≥ 2080) && decide (actCntIdx a ≤ 3871)) }

/-- RULE.READ_ENTRY (R161): an entry that is not valid reads as zeros (log 15). -/
def ruleReadEntrySpec : CmdSpec :=
  readSpec 0x0402 true (lenIs 1) (fun ps => zeroBits ps 0 30 13) neverAbsent
    (fun c ps s => rangeIf (decide (field (par ps 0) 12 0 ≥ bankSize (s.eng c.eng).rules.unified (bankOf c ps s).wide)))
    noBankB
    (fun c ps s =>
      let b := bankOf c ps s
      let i := field (par ps 0) 12 0
      let k := if b.wide then 20 else 10
      let words (v : Nat) : List Word := bytesWords (beBytes (4 * k) v)
      let head (v : Bool) : Word := pack [(field (par ps 0) 31 31, 31), (bit v, 30), (i, 0)]
      match findAt i b.entries with
      | some e => .now s (head true :: words e.key ++ words e.mask ++ e.action)
      | none => .now s (head false :: words 0 ++ words 0 ++ missAction))

/-- RULE.WRITE_PROFILE (R156). -/
def ruleWriteProfileSpec : CmdSpec :=
  configSpec 0x0403 (fun c s ps => ps.length == 1 + extractsOf (bankOf c ps s).wide)
    (fun ps => zeroBits ps 0 30 3 && (ps.drop 1).all fun d => field d 20 15 == 0 && field d 7 0 == 0)
    (fun _ ps _ => rangeIf ((ps.drop 1).any fun d => decide (field d 31 24 ≥ 22) && decide (field d 31 24 ≤ 127)))
    (fun c ps s => firstOf [noBankB c ps s, flipBusy c s])
    (fun c ps s => onSelf c (modRules fun r => r.modBank (flag (par ps 0) 31) fun q =>
      { q with profiles := insertAt (field (par ps 0) 2 0) (ps.drop 1) q.profiles }) s)

/-- RULE.CLEAR_BANK (R153). -/
def ruleClearBankSpec : CmdSpec :=
  configSpec 0x0404 (lenIs 1) (fun ps => zeroBits ps 0 30 1) neverRange
    (fun c ps s => firstOf [statusIf ((s.eng c.eng).rules.unified || (s.eng c.eng).rules.liveB == flag (par ps 0) 31) .state,
                            flipBusy c s])
    (fun c ps s => onSelf c (modRules fun r => r.modBank (flag (par ps 0) 31) fun _ => emptyBank (flag (par ps 0) 0)) s)

/-- 50 us in 2^-16 ns (R163). -/
def flipDelay : Nat := 3276800000

/-- RULE.FLIP_BANK (R163): accepted, the reply awaits the drain. The standby flips at the active's FLIP_AT, the one that has passed
where the active has flipped before the standby takes the command. -/
def ruleFlipBankSpec : CmdSpec :=
  configSpec 0x0405 (fun _ _ ps => decide (ps.length ≤ 1))
    (fun ps => zeroBits ps 0 30 16 && (flag (par ps 0) 31 || zeroBits ps 0 15 0)) neverRange
    (fun c ps s =>
      let r := (s.eng c.eng).rules
      firstOf [statusIf (r.unified || (flag (par ps 0) 31 && field (par ps 0) 15 0 != r.epoch)) .state, flipBusy c s])
    (fun c _ s =>
      let own := (s.eng c.eng).time.now16 + flipDelay
      let r := (s.eng (other c.eng)).rules
      let at_ := if c.mirror then (match r.flip, r.lastFlip with
        | some t, _ => t
        | none, some t => t
        | none, none => own) else own
      { state := s.modEng c.eng (modRules fun r => { r with flip := some at_ }), body := [], await := some .drainEnd })

/-- RULE.SET_ORG (R153); the width applies to every bank of the organisation (log 15). -/
def ruleSetOrgSpec : CmdSpec :=
  configSpec 0x0406 (lenIs 1) (fun ps => zeroBits ps 0 31 2) neverRange (fun c _ s => flipBusy c s)
    (fun c ps s => onSelf c (modRules fun r =>
      let u := flag (par ps 0) 1
      let w := flag (par ps 0) 0
      { r with unified := u, bankA := emptyBank w, bankB := emptyBank (w && !u), liveB := false }) s)

/-- RULE.LOAD_DEFAULTS (R161). -/
def ruleLoadDefaultsSpec : CmdSpec :=
  configSpec 0x0407 (lenIs 0) (fun _ => true) neverRange (fun c _ s => flipBusy c s)
    (fun c _ s => onSelf c (modRules fun r => r.modBank (!r.unified && !r.liveB) fun _ =>
      { emptyBank false with entries := shippedRules }) s)

/-- RULE.WRITE_REWRITE (R159). -/
def ruleWriteRewriteSpec : CmdSpec :=
  configSpec 0x0409 (lenIs 5) (fun ps => zeroBits ps 0 31 10 && zeroBits ps 1 7 6)
    (fun _ ps _ =>
      let v := field (par ps 1) 19 8
      rangeIf ((flag (par ps 1) 29 || flag (par ps 1) 30) && (v == 0 || v == 4095)))
    neverJudge
    (fun c ps s => onSelf c (modRules fun r =>
      { r with rewrites := put [0, 0, 0, 0] (field (par ps 0) 9 0) (ps.drop 1) r.rewrites }) s)

/-- RULE.WRITE_METER (R160): the buckets start full. -/
def ruleWriteMeterSpec : CmdSpec :=
  configSpec 0x040A (lenIs 5) (fun ps => zeroBits ps 0 31 11)
    (fun _ ps _ => rangeIf (decide ((par ps 2).toNat < (par ps 1).toNat) || decide ((par ps 1).toNat > 400000000)
      || decide ((par ps 2).toNat > 400000000) || decide ((par ps 3).toNat > 16777215) || decide ((par ps 4).toNat > 16777215)))
    neverJudge
    (fun c ps s => onSelf c (fun x => modRules (fun r =>
      let m : Meter := { cir := (par ps 1).toNat, pir := (par ps 2).toNat, cbs := (par ps 3).toNat, pbs := (par ps 4).toNat,
                         tc := (par ps 3).toNat, tp := (par ps 4).toNat, restC := 0, restP := 0, at_ := x.time.now16 }
      { r with meters := insertAt (field (par ps 0) 10 0) m r.meters, voided := r.voided.filter (· ≠ (7, field (par ps 0) 10 0)) }) x) s)

/-- RULE.SET_MIRROR. -/
def ruleSetMirrorSpec : CmdSpec :=
  { configSpec 0x040B (lenIs 1) (fun ps => zeroBits ps 0 31 19 && zeroBits ps 0 15 14 && zeroBits ps 0 7 3)
      (fun _ ps _ => rangeIf (decide (field (par ps 0) 13 8 > 33))) neverJudge
      (fun c ps s => onSelf c (modRules fun r =>
        { r with mirrors := put (0, 0) (field (par ps 0) 18 16) (field (par ps 0) 13 8, field (par ps 0) 2 0) r.mirrors,
                 voided := r.voided.filter (· ≠ (8, field (par ps 0) 18 16)) }) s) with
    absent := fun p ps => absentPort p (field (par ps 0) 13 8) }

/-! ## FWD commands (Table 5.15) -/

/-- The key that words 0 and 1 of Table 5.13 name. -/
def parKey (ps : List Word) : Nat := fdbKey (field (par ps 0) 27 16) (field (par ps 0) 15 0 * 2 ^ 32 + (par ps 1).toNat)

/-- A VID outside 1 to 4,094. -/
def badVid (v : Nat) : Bool := v == 0 || v == 4095

/-- FWD.ADD (R172). A new or replaced entry starts with its hit bit set (DESIGN CHOICE, log 161). -/
def fwdAddSpec : CmdSpec :=
  { configSpec 0x0501 (lenIs 3) (fun ps => zeroBits ps 0 31 28 && zeroBits ps 2 30 30 && zeroBits ps 2 27 12)
      (fun _ ps _ =>
        let k := field (par ps 2) 29 28
        let d := field (par ps 2) 11 0
        rangeIf (badVid (field (par ps 0) 27 16) || (k == 0 && decide (d > 33)) || (k == 1 && decide (d > 63)) || (k == 3 && d != 0)))
      (fun c ps s =>
        let t := (s.eng c.eng).rules.fdb
        let b := fdbBucket (parKey ps)
        let static := (t.filter fun e => fdbBucket e.1 == b && e.2.static).length
        if (inBucket b t ≥ 8 ∧ (findAt (parKey ps) t).isNone) ∨ static ≥ 8 then some (.state, [word b]) else none)
      (fun c ps s => onSelf c (fun x => x.modFdb (insertAt (parKey ps)
        { static := flag (par ps 2) 31, kind := field (par ps 2) 29 28, dest := field (par ps 2) 11 0, hit := true })) s) with
    absent := fun p ps => field (par ps 2) 29 28 == 0 && absentPort p (field (par ps 2) 11 0) }

/-- FWD.DELETE. -/
def fwdDeleteSpec : CmdSpec :=
  configSpec 0x0502 (lenIs 2) (fun ps => zeroBits ps 0 31 28) (fun _ ps _ => rangeIf (badVid (field (par ps 0) 27 16))) neverJudge
    (fun c ps s => .now (s.modEng c.eng fun x => x.modFdb (eraseAt (parKey ps)))
      [word (bit (findAt (parKey ps) (s.eng c.eng).rules.fdb).isSome)])

/-- FWD.LOOKUP. -/
def fwdLookupSpec : CmdSpec :=
  readSpec 0x0503 true (lenIs 2) (fun ps => zeroBits ps 0 31 28) neverAbsent
    (fun _ ps _ => rangeIf (badVid (field (par ps 0) 27 16))) neverJudge
    (fun c ps s => match findAt (parKey ps) (s.eng c.eng).rules.fdb with
      | some f => .now s [par ps 0 ||| 0x80000000#32, par ps 1, pack [(bit f.static, 31), (f.kind, 28), (f.dest, 0)], word (bit f.hit)]
      | none => .now s [0, 0, 0, 0])

/-- Whether FWD.FLUSH removes an entry. -/
def flushes (w : Word) (e : Nat × FdbEntry) : Bool :=
  (flag w 29 || !e.2.static) && (!flag w 31 || (e.2.kind == 0 && e.2.dest == field w 5 0))
    && (!flag w 30 || e.1 / 2 ^ 48 == field w 27 16)

/-- FWD.FLUSH. -/
def fwdFlushSpec : CmdSpec :=
  { configSpec 0x0504 (lenIs 1) (fun ps => zeroBits ps 0 28 28 && zeroBits ps 0 15 6)
      (fun _ ps _ => rangeIf ((flag (par ps 0) 31 && decide (field (par ps 0) 5 0 > 33))
        || (flag (par ps 0) 30 && badVid (field (par ps 0) 27 16)))) neverJudge
      (fun c ps s =>
        let t := (s.eng c.eng).rules.fdb
        .now (s.modEng c.eng fun x => x.modFdb fun t => t.filter fun e => !flushes (par ps 0) e)
          [word (t.filter (flushes (par ps 0))).length]) with
    absent := fun p ps => flag (par ps 0) 31 && absentPort p (field (par ps 0) 5 0) }

/-- FWD.SET_LEARN (R171). -/
def fwdSetLearnSpec : CmdSpec :=
  portSpec 0x0505 (lenIs 2) (fun ps => zeroBits ps 0 31 13 && zeroBits ps 0 11 10 && zeroBits ps 0 7 6)
    (fun ps => field (par ps 0) 5 0)
    (fun _ ps _ => rangeIf (decide (field (par ps 0) 5 0 > 33) || decide ((par ps 1).toNat > 131072))) neverJudge
    (fun c ps s => onSelf c (modRules fun r => { r with learn := vmodN r.learn (field (par ps 0) 5 0) fun _ =>
      { mode := field (par ps 0) 9 8, limitDiscard := flag (par ps 0) 12, limit := (par ps 1).toNat } }) s)

/-- FWD.SET_AGEING (R173). -/
def fwdSetAgeingSpec : CmdSpec :=
  configSpec 0x0506 (lenIs 1) (fun _ => true)
    (fun _ ps _ =>
      let n := (par ps 0).toNat
      rangeIf ((decide (n < 10) && n != 0) || decide (n > 1000000))) neverJudge
    (fun c ps s => onSelf c (modRules fun r => { r with ageS := (par ps 0).toNat }) s)

/-- FWD.SET_VLAN (R170). -/
def fwdSetVlanSpec : CmdSpec :=
  configSpec 0x0507 (lenIs 1) (fun ps => zeroBits ps 0 31 28 && zeroBits ps 0 15 12)
    (fun _ ps _ => rangeIf (badVid (field (par ps 0) 27 16))) neverJudge
    (fun c ps s => onSelf c (modRules fun r =>
      { r with floods := put 0 (field (par ps 0) 27 16) (field (par ps 0) 11 0) r.floods }) s)

/-- FWD.WRITE_MCAST (R200). -/
def fwdWriteMcastSpec : CmdSpec :=
  { configSpec 0x0508 (lenIs 3) (fun ps => zeroBits ps 0 31 12 && zeroBits ps 2 31 2) neverRange neverJudge
      (fun c ps s => onSelf c (modRules fun r =>
        let m := BitVec.ofNat 34 (field (par ps 2) 1 0 * 2 ^ 32 + (par ps 1).toNat)
        { r with mcast := put 0#34 (field (par ps 0) 11 0) m r.mcast }) s) with
    absent := fun p ps => lanesOf p == 16 && field (par ps 1) 31 16 != 0 }

/-- FWD.SET_SPREAD (Table 5.16). -/
def fwdSetSpreadSpec : CmdSpec :=
  configSpec 0x0509 (fun _ _ ps => ps.length == if flag (par ps 0) 8 then 12 else 2)
    (fun ps => zeroBits ps 0 31 28 && zeroBits ps 0 15 10 && zeroBits ps 0 7 6 && (!flag (par ps 0) 8 || par ps 1 == 0))
    neverRange neverJudge
    (fun c ps s => onSelf c (modRules fun r =>
      let g : Spread := { fields := BitVec.ofNat 12 (field (par ps 0) 27 16), inner := flag (par ps 0) 9,
                          toeplitz := flag (par ps 0) 8, seed := par ps 1, key := ps.drop 2 }
      { r with spreads := put spreadZero0 (field (par ps 0) 5 0) g r.spreads }) s)

/-- The reserved bits of an indirection entry, and the fields that its KIND makes 0 (Table 5.17). -/
def indirectRsvdOk (w : Word) : Bool :=
  field w 29 26 == 0 && field w 15 10 == 0 && (field w 31 30 == 3 || field w 25 16 == 0) && (field w 31 30 == 2 || field w 9 6 == 0)

/-- Entries of an indirection table written one after another. -/
def writeEntries (i : Nat) : List Word → List (Nat × Word) → List (Nat × Word)
  | [], t => t
  | w :: ws, t => writeEntries (i + 1) ws (put 0#32 i w t)

/-- FWD.WRITE_INDIRECT (R175). -/
def fwdWriteIndirectSpec : CmdSpec :=
  { configSpec 0x050A (fun _ _ ps => decide (ps.length ≥ 1) && ps.length == 1 + field (par ps 0) 6 0)
      (fun ps => zeroBits ps 0 31 22 && zeroBits ps 0 7 7 && (ps.drop 1).all indirectRsvdOk)
      (fun _ ps _ => rangeIf (decide (field (par ps 0) 6 0 > 64) || decide (field (par ps 0) 15 8 + field (par ps 0) 6 0 > 256)
        || (ps.drop 1).any fun w => decide (field w 5 0 > 33) || decide (field w 9 6 > 9))) neverJudge
      (fun c ps s =>
        let base := field (par ps 0) 21 16 * 256 + field (par ps 0) 15 8
        .now (s.modEng c.eng (modRules fun r => { r with indirect := writeEntries base (ps.drop 1) r.indirect }))
          [word (ps.drop 1).length]) with
    absent := fun p ps => (ps.drop 1).any fun w => field w 31 30 != 0 && absentPort p (field w 5 0) }

end Sys2Proof.Machine
end

