-- ==== Sys2Proof/Machine/Flits.lean ====
section
/-! DEFINITION. The flits of the Crossing (R177-R181): how a frame is cut, what a channel holds in staging and in flight, and how
flits leave it for their frame's egress side. -/

namespace Sys2Proof.Machine

/-- The Crossing channel of a port (Table 6.1). -/
def channelOf (p : Nat) : Nat := if p < 32 then p / 4 else 8

/-- The channel of the Roundabout, host frames that make their pass 0 among what it carries (Table 6.1). -/
def roundChannel : Nat := 9

/-- A monitor's path is present: all but CH4 to CH7 of the RHF3240-S (R177, R183). -/
def monitorPresent (part : Part) (k : Nat) : Bool := underpassPart part || k < 4 || k ≥ 8

/-- The flits of a frame of `n` bytes, FCS included (R178). -/
def flitsOf (i n : Nat) : List Flit :=
  let k := (n + 63) / 64
  (List.range k).map fun j => { frame := i, index := j, last := j + 1 == k }

/-- The flits a channel holds for itself (R179). -/
def flitReserve : Nat := 32

/-- The flits of the shared pool (R179): the RHF3240-S has the reservations of its absent channels in it. -/
def flitPool (part : Part) : Nat := if underpassPart part then 192 else 320

/-- The flits that a channel's ingress staging holds (R179). -/
def stagingDepth : Nat := 128

/-- The flits in a channel's ingress staging, oldest first. -/
def Engine.staging (x : Engine) (ch : Nat) : List Flit := vget x.ports.staging [] ch
/-- The flits in flight that entered by a channel, oldest first. -/
def Engine.flight (x : Engine) (ch : Nat) : List Flit := vget x.ports.flight [] ch
/-- The flits that have left the Crossing by a channel, while their frames stand. -/
def Engine.arrived (x : Engine) (ch : Nat) : List Flit := vget x.ports.arrived [] ch
/-- Ingress staging changed. -/
def Engine.modStaging (x : Engine) (ch : Nat) (f : List Flit → List Flit) : Engine :=
  { x with ports := { x.ports with staging := vmodN x.ports.staging ch f } }
/-- The flits in flight changed. -/
def Engine.modFlight (x : Engine) (ch : Nat) (f : List Flit → List Flit) : Engine :=
  { x with ports := { x.ports with flight := vmodN x.ports.flight ch f } }
/-- The flits on a channel's egress side changed. -/
def Engine.modArrived (x : Engine) (ch : Nat) (f : List Flit → List Flit) : Engine :=
  { x with ports := { x.ports with arrived := vmodN x.ports.arrived ch f } }

/-- All flits in flight (R179). -/
def Engine.inFlight (x : Engine) : Nat := ((List.range 10).map fun ch => (x.flight ch).length).sum

/-- The flits in flight on places of the shared pool: those beyond each channel's reservation. -/
def Engine.poolUse (x : Engine) : Nat := ((List.range 10).map fun ch => (x.flight ch).length - flitReserve).sum

/-- How many more flits may enter the Crossing by a channel now (R179). -/
def Engine.flitRoom (part : Part) (x : Engine) (ch : Nat) : Nat :=
  (flitReserve - (x.flight ch).length) + (flitPool part - x.poolUse)

/-- A channel's staged flits enter the Crossing as far as there is room. -/
def enterStaged (part : Part) (ch : Nat) (x : Engine) : Engine :=
  let n := x.flitRoom part ch
  (x.modFlight ch fun l => l ++ (x.staging ch).take n).modStaging ch fun l => l.drop n

/-- The staged flits of every channel enter the Crossing as far as there is room: the lower channel first (DESIGN CHOICE, log 133). -/
def enterAll (part : Part) (x : Engine) : Engine := (List.range 10).foldl (fun y ch => enterStaged part ch y) x

/-- A channel runs below the Frugal floor, by its speed monitor's last window (R181, Table 6.3). -/
def Engine.belowFrugal (x : Engine) (ch : Nat) : Bool :=
  match x.ports.monitors[ch]? with
  | some m => m.valid && decide (m.speed < 358)
  | none => false

/-- A frame has a copy to come on the egress side of a channel. -/
def Engine.leavesBy (x : Engine) (i ch : Nat) : Bool :=
  let mine (c : Copy) : Bool := c.frame == i && channelOf c.port == ch
  let sent (t : Option Tx) : Bool := match t with
    | some t => (match t.copy with
      | some c => mine c
      | none => false)
    | none => false
  (x.egress.queues.any fun q => q.2.any mine) || x.buf.residue.any mine || x.buf.waiting.any mine
    || (x.egress.ports.toList.any fun g => sent g.tx || sent g.cut)
    || (x.buf.arriving.any fun a => a.2.frame == i
        && (a.2.copies.any mine || ((a.2.trap != 0 || a.2.host != 0) && ch == 8) || (a.2.recirc.isSome && ch == roundChannel)))
    || (ch == roundChannel && x.buf.round.any fun k => k.frame == i)

/-- A flit that has crossed leaves by every channel its frame has a copy on. -/
def leaveFlit (f : Flit) (x : Engine) : Engine :=
  (List.range 10).foldl (fun y ch => if x.leavesBy f.frame ch then y.modArrived ch fun l => l ++ [f] else y) x

/-- The oldest flit in flight on a channel completes, and staged flits follow, those of that channel first. -/
def completeFirst (part : Part) (ch : Nat) (x : Engine) : Engine :=
  match x.flight ch with
  | [] => x
  | f :: rest => enterAll part (enterStaged part ch (leaveFlit f (x.modFlight ch fun _ => rest)))

/-- The flit at a place of those in flight on a channel completes (R180: in any order); staged flits follow. -/
def completeFlit (part : Part) (ch j : Nat) (x : Engine) : Engine :=
  match (x.flight ch)[j]? with
  | none => x
  | some f => enterAll part (leaveFlit f (x.modFlight ch fun l => l.eraseIdx j))

/-- A handshake: one flit, two on the Roundabout's channel (Table 6.1). -/
def handshake (part : Part) (k : Fin 10 × Nat) (x : Engine) : Engine :=
  let y := completeFlit part k.1.val k.2 x
  if k.1.val = roundChannel then completeFlit part k.1.val k.2 y else y

/-- The handshakes that have completed since the last event, in their order. -/
def handshakes (part : Part) (ks : List (Fin 10 × Nat)) (x : Engine) : Engine := ks.foldl (fun y k => handshake part k y) x

/-- A flit comes to a channel: into the Crossing, or into staging behind those that wait there. With staging full it is refused
only while the channel runs below the Frugal floor; otherwise the channel has moved on by then (R181), and the place that came free is
its own. -/
def offerFlit (part : Part) (ch : Nat) (f : Flit) (x : Engine) : Option Engine :=
  if (x.staging ch).isEmpty && decide (x.flitRoom part ch > 0) then some (x.modFlight ch fun l => l ++ [f])
  else if (x.staging ch).length < stagingDepth then some (x.modStaging ch fun l => l ++ [f])
  else if x.belowFrugal ch then none
  else
    let y := completeFirst part ch x
    if (y.staging ch).length < stagingDepth then some (y.modStaging ch fun l => l ++ [f]) else none

/-- The flits of a frame come to a channel, in order; the flag says that one was refused: the frame is discarded from that flit
on. -/
def offerFlits (part : Part) (ch : Nat) : List Flit → Engine → Engine × Bool
  | [], x => (x, false)
  | f :: rest, x =>
    match offerFlit part ch f x with
    | some y => offerFlits part ch rest y
    | none => (x, true)

/-- STAGE_OVF counted; the first of an F2 window is reported (R181). -/
def stageOverflow (ch : Nat) (x : Engine) : Engine :=
  let y := x.bump 62
  let runs := y.fault.windows.any fun w => w.msg.source == 0x04#8 && w.msg.kind == 0x03#8 && !w.msg.inj
  if runs then y else y.raise 0x04 0x03 2 (word ch)

/-- A frame of `n` bytes, FCS included, sent into the Crossing by a channel; the flag says that staging overflowed. -/
def crossFrame (part : Part) (ch i n : Nat) (x : Engine) : Engine × Bool :=
  let (y, full) := offerFlits part ch (flitsOf i n) x
  (if full then stageOverflow ch y else y, full)

/-- No flit of a frame is still to cross: it is reassembled (R180). -/
def Engine.crossed (x : Engine) (i : Nat) : Bool :=
  (List.range 10).all fun ch => (x.staging ch ++ x.flight ch).all fun f => f.frame != i

/-- A flit of a frame is at a port's egress MAC. -/
def Engine.flitHere (x : Engine) (p i k : Nat) : Bool := (x.arrived (channelOf p)).any fun f => f.frame == i && f.index == k

/-- Nothing of a frame is left in the Crossing. -/
def dropFlits (i : Nat) (x : Engine) : Engine :=
  let other (l : List Flit) : List Flit := l.filter fun f => f.frame != i
  { x with ports := { x.ports with staging := x.ports.staging.map other, flight := x.ports.flight.map other,
                                   arrived := x.ports.arrived.map other } }

end Sys2Proof.Machine
end

