-- ==== Sys2Proof/Machine/Gates.lean ====
section
/-! DEFINITION. The running gate list of a port (R247, R250): which entry is in force, what an entry sets, and what a jump of device
time does to it. -/

namespace Sys2Proof.Machine

/-- One nanosecond, one microsecond, one second in units of 2^-16 ns. -/
def ns16 : Nat := 65536
/-- One microsecond in units of 2^-16 ns. -/
def us16 : Nat := 65536000
/-- One second in units of 2^-16 ns. -/
def s16 : Nat := 65536000000000

/-- A port's egress. -/
def Engine.eg (x : Engine) (p : Nat) : Egress := vget x.egress.ports egressPortReset p
/-- A port's egress changed. -/
def Engine.modEgPort (x : Engine) (p : Nat) (f : Egress → Egress) : Engine :=
  { x with egress := { x.egress with ports := vmodN x.egress.ports p f } }

/-- INTERVAL_NS of a list entry in 2^-16 ns. -/
def gclInterval (w : Word) : Nat := field w 21 0 * ns16
/-- GATES of a list entry. -/
def gclGates (w : Word) : BitVec 8 := BitVec.ofNat 8 (field w 29 22)
/-- OP of a list entry. -/
def gclOp (w : Word) : Nat := field w 31 30

/-- Where entry `i` of a list starts within its cycle. -/
def gclStart (l : Gcl) (i : Nat) : Nat := ((l.entries.take i).map gclInterval).sum

/-- The change of gates that follows entry `i` of a cycle that began at `c`: its instant, the entry and the cycle it
opens. Entries past the end of the cycle are cut (R247). -/
def gclNext (l : Gcl) (i c : Nat) : Nat × Nat × Nat :=
  if i + 1 < l.entries.length ∧ gclStart l (i + 1) < l.cycle then (c + gclStart l (i + 1), i + 1, c)
  else (c + l.cycle, 0, c + l.cycle)

/-- The gate states and HOLD that an entry sets (R250); where preemption is not active, the two operations that hold and release act as
SetGateStates. -/
def enterGcl (p : Nat) (w : Word) (x : Engine) : Engine :=
  x.modEgPort p fun g =>
    let active := g.preempt.enable && g.preempt.state == 2
    { g with gates := gclGates w, hold := if !active then g.hold else if gclOp w = 1 then true else if gclOp w = 2 then false else g.hold }

/-- A gate that closes on a cut-through copy of more than 9,216 bytes still in transmission (R249). -/
def judgeOverrun (p : Nat) (before : BitVec 8) (x : Engine) : Engine :=
  match (x.eg p).tx with
  | some t =>
    match t.copy with
    | some c =>
      if t.ct && t.begun && decide (t.bytes.length + 4 > 9216) && before.getLsbD c.queue && !(x.eg p).gates.getLsbD c.queue then
        (x.bumpPort p 47).raise 0x06 0x01 0 (word p)
      else x
    | none => x
  | none => x

/-- How far into its cycle a list is at an instant: cycle k starts at BASE + k x CYCLE (R247). -/
def gclOffset (l : Gcl) (now : Nat) : Nat := (((now : Int) - (l.base : Int)) % (l.cycle : Int)).toNat

/-- The entries of a list that have begun at an offset into its cycle. -/
def gclBegun (l : Gcl) (off : Nat) : List Word :=
  l.entries.take (((List.range l.entries.length).filter fun i => decide (gclStart l i ≤ off)).length)

/-- The last operation at an offset that holds or releases the MAC: of this cycle, or else of the one before it. -/
def gclLastHold (l : Gcl) (off : Nat) : Option Word :=
  ((gclBegun l off).reverse ++ (gclBegun l (l.cycle - 1)).reverse).find? fun w => gclOp w == 1 || gclOp w == 2

/-- The running list of a port taken up anew where device time now has it: the entry in force, its gates, and HOLD as the last
operation that concerns it has left it (R247, R250; DEDUCED, log 165). -/
def gclResync (p : Nat) (x : Engine) : Engine :=
  let g := x.eg p
  match g.oper with
  | none => x
  | some l =>
    let now := x.time.now16
    let off := gclOffset l now
    let i := (gclBegun l off).length - 1
    let y := x.modEgPort p fun g => { g with entry := i, cycleStart := now - off }
    let z := match gclLastHold l off with
      | some w => enterGcl p w y
      | none => y
    judgeOverrun p g.gates (enterGcl p (par l.entries i) z)

/-- Device time has jumped by `j`: every running list goes on from the cycle it has jumped into. -/
def gatesJumped (j : Int) (x : Engine) : Engine :=
  if j = 0 then x else (List.range 32).foldl (fun y p => gclResync p y) x

end Sys2Proof.Machine
end

