-- ==== Sys2Proof/Machine/Buffers.lean ====
section
/-! DEFINITION. Buffers, admission and back-pressure (chapter 7): reservations, accounts, charging, flow control sent,
headroom placement, the end of copies and frames with their records, and the QUEUE commands. -/

namespace Sys2Proof.Machine

/-! ## Accounts and settings -/

/-- An account with nothing charged. -/
def acctZero : Acct := { occ := 0, hrUse := 0, minUse := 0, xoff := false, xoffAt := 0, ovf := false }

/-- The ingress account of a port and class. -/
def Engine.inAcct (x : Engine) (p c : Nat) : Acct := look acctZero (8 * p + c) x.buf.ingress
/-- The egress account of a queue. -/
def Engine.egAcct (x : Engine) (p q : Nat) : Acct := look acctZero (10 * p + q) x.buf.egress
/-- The buffers of an engine changed. -/
def Engine.modBuf (x : Engine) (f : BufState → BufState) : Engine := { x with buf := f x.buf }
/-- An ingress account changed. -/
def Engine.modIn (x : Engine) (p c : Nat) (f : Acct → Acct) : Engine :=
  x.modBuf fun b => { b with ingress := put acctZero (8 * p + c) (f (look acctZero (8 * p + c) b.ingress)) b.ingress }
/-- An egress account changed. -/
def Engine.modEg (x : Engine) (p q : Nat) (f : Acct → Acct) : Engine :=
  x.modBuf fun b => { b with egress := put acctZero (10 * p + q) (f (look acctZero (10 * p + q) b.egress)) b.egress }
/-- The guaranteed minimum of an ingress account (R239). -/
def Engine.minIn (x : Engine) (p c : Nat) : Nat := look 0 (8 * p + c) x.buf.inMin
/-- The guaranteed minimum of an egress account: 16 by default (R239). -/
def Engine.minEg (x : Engine) (p q : Nat) : Nat := look 16 (10 * p + q) x.buf.egMin
/-- A class's buffering. -/
def Engine.cls (x : Engine) (c : Nat) : ClassBuf := vget x.buf.classes classReset c
/-- A port's flow control. -/
def Engine.fc (x : Engine) (p : Nat) : PortFc := vget x.buf.fc (fcReset 0) p
/-- A port's flow control changed. -/
def Engine.modFc (x : Engine) (p : Nat) (f : PortFc → PortFc) : Engine := x.modBuf fun b => { b with fc := vmodN b.fc p f }
/-- The headroom of an account. -/
def Engine.hr (x : Engine) (p c : Nat) : Headroom := look { size := 0, under := false } (8 * p + c) x.buf.headroom
/-- A queue of an engine. -/
def Engine.queue (x : Engine) (p q : Nat) : List Copy := look [] (10 * p + q) x.egress.queues
/-- A queue of an engine replaced. -/
def Engine.setQueue (x : Engine) (p q : Nat) (l : List Copy) : Engine :=
  { x with egress := { x.egress with queues := put [] (10 * p + q) l x.egress.queues } }

/-- Whether a port's flow control works (R218). H0 is stopped by not fetching, so its frames are lossless (R222). -/
def Engine.fcWorks (x : Engine) (p : Nat) : Bool :=
  let f := x.fc p
  p == 32 || ((f.mode == 1 || f.mode == 2) && !f.pauseOff && !f.hrShort)

/-- A class is carried lossless on an ingress port (R218). -/
def Engine.lossless (x : Engine) (p c : Nat) : Bool := (x.cls c).lossless && x.fcWorks p

/-! ## Reservations (R210, R211) -/

/-- The sum of a list of numbers got from frames. -/
def Engine.overFrames (x : Engine) (f : Frame → Nat) : Nat := (x.buf.frames.map fun e => f e.2).sum

/-- The cells of an Arcade. -/
def arcadeCells : Nat := 65536
/-- The cells of an Underpass. -/
def underpassCells : Nat := 524288
/-- The Arcade reservations of fixed size (Table 7.1): Roundabout, drain and spill staging, completion reserve. -/
def fixedArcade (p : Part) : Nat := if underpassPart p then 256 + 512 + 256 + 1280 else 256 + 1280

/-- A copy that has a frame of the Underpass in drain staging. -/
def Engine.stagedCells (x : Engine) : Nat :=
  (x.egress.queues.map fun q => (q.2.map fun c =>
    if c.staged then (match findAt c.frame x.buf.frames with
      | some f => f.cells.length
      | none => 0) else 0).sum).sum

/-- The cells that the Underpass bus has written since the last cell was queued for it, at the 120 Gb/s that it sustains (R236, log 137). -/
def Engine.busWritten (x : Engine) : Nat := (x.time.now16 - x.buf.spillAt) * 15 / (256 * 65536)

/-- The cells in spill staging now: they are written after the headroom cells that wait for the bus (R234, R236). -/
def Engine.spillStaged (x : Engine) : Nat := x.buf.spillWait - (x.busWritten - x.buf.hrWait)

/-- The cells that spill staging holds (Table 7.1). -/
def spillDepth : Nat := 256

/-- `n` cells spilled: counted, and put into spill staging. -/
def spillCells (n : Nat) (x : Engine) : Engine :=
  let w := min spillDepth (x.spillStaged + n)
  let h := x.buf.hrWait - x.busWritten
  (x.bumpN 64 n).modBuf fun b => { b with spillWait := w, hrWait := h, spillAt := x.time.now16 }

/-- `n` cells of headroom put before the spill writes that wait for the Underpass bus (R236). -/
def headroomCells (n : Nat) (x : Engine) : Engine :=
  let w := x.spillStaged
  let h := x.buf.hrWait - x.busWritten
  x.modBuf fun b => { b with spillWait := w, hrWait := h + n, spillAt := x.time.now16 }

/-- Occupied cells of the Arcade, those in spill and drain staging included (Table 7.1). -/
def Engine.arcadeUsed (x : Engine) : Nat :=
  x.overFrames (fun f => if f.under then 0 else f.cells.length) + x.stagedCells + x.spillStaged
/-- Occupied cells of the Underpass. -/
def Engine.underUsed (x : Engine) : Nat := x.overFrames fun f => if f.under then f.cells.length else 0
/-- Retired cells of a store. -/
def Engine.retiredIn (x : Engine) (under : Bool) : Nat := (x.buf.retired.filter fun c => decide (c ≥ arcadeCells) == under).length

/-- The queues a port holds (R242). -/
def Engine.holdsQueues (p : Part) (x : Engine) (n : Nat) : Bool := portFitted p n && !x.unused n

/-- The sum of all minimums (R239). -/
def Engine.minSum (p : Part) (x : Engine) : Nat :=
  let eg := ((List.range 34).map fun n => if x.holdsQueues p n then ((List.range 10).map fun q => x.minEg n q).sum else 0).sum
  let inn := (x.buf.inMin.map fun e => e.2).sum
  eg + inn

/-- The unused part of the minimums. -/
def Engine.minUnused (p : Part) (x : Engine) : Nat :=
  let ui := (x.buf.ingress.map fun e => min e.2.minUse (look 0 e.1 x.buf.inMin)).sum
  let ue := (x.buf.egress.map fun e => min e.2.minUse (look 16 e.1 x.buf.egMin)).sum
  x.minSum p - ui - ue

/-- The unused part of the headroom placed in a store. -/
def Engine.hrUnused (x : Engine) (under : Bool) : Nat :=
  (x.buf.headroom.map fun e => if e.2.under == under then e.2.size - (look acctZero e.1 x.buf.ingress).hrUse else 0).sum

/-- The cells charged to the completion reserve. -/
def Engine.reserveUse (x : Engine) : Nat := x.overFrames fun f => if f.round = 0 then f.pRes else 0

/-- SHARED_FREE_A (R211). -/
def Engine.sharedFreeA (p : Part) (x : Engine) : Nat :=
  let free := arcadeCells - x.retiredIn false - x.arcadeUsed
  let round := 256 - x.overFrames fun f => f.round
  let drain := if underpassPart p then 512 - x.stagedCells + (256 - x.spillStaged) else 0
  free - (round + drain + (1280 - x.reserveUse) + x.minUnused p + x.hrUnused false)

/-- SHARED_FREE_U (R211); 0 on the RHF3240-S. -/
def Engine.sharedFreeU (p : Part) (x : Engine) : Nat :=
  if underpassPart p then underpassCells - x.retiredIn true - x.underUsed - x.hrUnused true else 0

/-- SF(c) (R211). -/
def Engine.sf (p : Part) (x : Engine) (c : Nat) : Nat :=
  x.sharedFreeA p + if x.buf.spillEn && (x.cls c).spill then x.sharedFreeU p else 0

/-- shared_use of an account (R217). -/
def sharedUse (a : Acct) (min : Nat) : Nat := a.occ - min - a.hrUse

/-- A shared use below the dynamic threshold of an exponent (R217). -/
def below (use e sf : Nat) : Bool := decide (use * 128 < 2 ^ e * sf)

/-- The exponent for a frame: lowered by 2 for a drop-eligible frame of a lossy class (R217). -/
def alphaFor (e : Nat) (drop lossless : Bool) : Nat := if drop && !lossless then e - 2 else e

/-! ## Flow-control frames (R223) -/

/-- The priorities that a port's PCP_MAP maps to a class. -/
def Engine.prios (x : Engine) (p c : Nat) : BitVec 8 :=
  let m := (vget x.rules.ports { profile := 0, pcpMap := 0, pvid := 1, defClass := 0 } p).pcpMap.toNat
  (List.range 8).foldl (fun v i => if m / 8 ^ i % 8 = c then v ||| (1#8 <<< i) else v) 0

/-- A MAC control frame put behind those that wait to be sent. -/
def Engine.putCtl (x : Engine) (p : Nat) (k : Ctl) : Engine := x.modEgPort p fun g => { g with ctl := g.ctl ++ [k] }

/-- The classes of a port that are in XOFF. -/
def Engine.xoffMask (x : Engine) (p : Nat) : BitVec 8 :=
  (List.range 8).foldl (fun v c => if (x.inAcct p c).xoff then v ||| (1#8 <<< c) else v) 0

/-- The frame that tells a partner of a class's XOFF or XON (R223): with PAUSE only the first class in and the last
class out send one. `x` is the engine after the change. -/
def Engine.tellPartner (x : Engine) (p c : Nat) (quanta : Nat) : Engine :=
  let f := x.fc p
  if !(x.port p).up then x
  else if f.mode = 2 then
    let v := x.prios p c
    if v = 0 then x else x.putCtl p { pfc := true, vec := v, quanta := quanta }
  else if f.mode = 1 ∧ f.pauseOff = false then
    let others := x.xoffMask p &&& ~~~(1#8 <<< c)
    if others = 0 then x.putCtl p { pfc := false, vec := 0, quanta := quanta } else x
  else x

/-- Whole microseconds an account has been in XOFF since it was last counted go into XOFF_US. -/
def Engine.countXoff (x : Engine) (p c : Nat) : Engine :=
  let a := x.inAcct p c
  if a.xoff then
    let us := (x.time.tbCycles - a.xoffAt) / 500
    (x.bumpN (portCtr p (84 + c)) us).modIn p c fun a => { a with xoffAt := a.xoffAt + us * 500 }
  else x

/-- The residue entries that lossless copies hold. -/
def Engine.residueLossless (x : Engine) : Nat := (x.buf.residue.filter fun c => (x.cls c.cls).lossless).length

/-- No residue entry is left for a copy (R204): of the 16,384, 2,048 are reserved for lossless classes. -/
def Engine.residueFull (x : Engine) (lossless : Bool) : Bool :=
  let own := x.residueLossless
  let shared := (x.buf.residue.length - own) + (own - 2048)
  decide (shared ≥ 14336) && (!lossless || decide (own ≥ 2048))

/-- Lossless replication is stopped (R204): copies wait for an entry. -/
def Engine.residueStopped (x : Engine) : Bool := !x.buf.waiting.isEmpty

/-- Whole microseconds of a running stop of lossless replication go into MC_RESIDUE_STALL. -/
def Engine.countStall (x : Engine) : Engine :=
  match x.buf.residueStall with
  | none => x
  | some t =>
    let us := (x.time.tbCycles - t) / 500
    (x.bumpN 61 us).modBuf fun b => { b with residueStall := some (t + us * 500) }

/-- The stop of lossless replication judged again. -/
def judgeStall (x : Engine) : Engine :=
  if x.residueStopped then
    (if x.buf.residueStall.isSome then x else x.modBuf fun b => { b with residueStall := some x.time.tbCycles })
  else x.countStall.modBuf fun b => { b with residueStall := none }

/-- Waiting copies take the entries that are free, in their order (R204, log 134). -/
def takeEntries : List Copy → Engine → Engine
  | [], x => x
  | c :: rest, x =>
    if x.residueFull true then x
    else takeEntries rest ((x.bumpPort c.port 36).modBuf fun b => { b with residue := b.residue ++ [c], waiting := rest })

/-- The residue replaced; waiting copies take entries that have come free. -/
def Engine.setResidue (x : Engine) (l : List Copy) : Engine :=
  let y := x.modBuf fun b => { b with residue := l }
  judgeStall (takeEntries y.buf.waiting y)

/-- The copies of residue, and those that wait for an entry, without those that a test names; and those it names. -/
def takeResidues (gone : Copy → Bool) (x : Engine) : List Copy × Engine :=
  let y := x.modBuf fun b => { b with waiting := b.waiting.filter fun c => !gone c }
  (x.buf.residue.filter gone ++ x.buf.waiting.filter gone, y.setResidue (x.buf.residue.filter fun c => !gone c))

/-- Every running time in XOFF, and a running stop, counted: before counters are read, cleared or latched. -/
def Engine.countXoffs (x : Engine) : Engine :=
  x.buf.ingress.foldl (fun y e => y.countXoff (e.1 / 8) (e.1 % 8)) x.countStall

/-- An account enters XOFF (R220, R221). -/
def Engine.enterXoff (x : Engine) (p c : Nat) : Engine :=
  (x.modIn p c fun a => { a with xoff := true, xoffAt := x.time.tbCycles }).tellPartner p c (x.fc p).quanta

/-- An account leaves XOFF; the partner is told unless the port is down (R221, R227). -/
def Engine.leaveXoff (x : Engine) (p c : Nat) : Engine :=
  ((x.countXoff p c).modIn p c fun a => { a with xoff := false, ovf := false }).tellPartner p c 0

/-- XOFF judged for one account (R221). -/
def judgeXon (part : Part) (k : Nat) (x : Engine) : Engine :=
  let p := k / 8
  let c := k % 8
  let a := x.inAcct p c
  let use := sharedUse a (x.minIn p c)
  let ok := a.hrUse == 0 && (use == 0 || decide ((use + (x.fc p).xonDelta) * 128 ≤ 2 ^ (x.cls c).alphaIn * x.sf part c))
  if a.xoff && ok then x.leaveXoff p c else x

/-- XOFF judged for every account, on a cell written or freed (R221). -/
def judgeXons (part : Part) (x : Engine) : Engine :=
  (x.buf.ingress.filter fun e => e.2.xoff).foldl (fun y e => judgeXon part e.1 y) x

/-- Spilling starts and stops with the Arcade's occupied cells (R234). -/
def judgeSpill (x : Engine) : Engine :=
  x.modBuf fun b =>
    let used := x.arcadeUsed
    { b with spilling := b.spillEn && (if b.spilling then decide (used ≥ b.spillOff) else decide (used ≥ b.spillOn)) }

/-! ## Admission (R218) -/

/-- The ingress side of the head test: admitted, or the counter of the port block that a refusal adds to. -/
def headIn (part : Part) (x : Engine) (p c : Nat) (drop : Bool) : Option Nat :=
  let a := x.inAcct p c
  let min := x.minIn p c
  if x.lossless p c then
    if decide (a.occ < min) || !a.xoff || decide (a.hrUse < (x.hr p c).size) then none else some (76 + c)
  else if decide (a.occ < min) || below (sharedUse a min) (alphaFor (x.cls c).alphaIn drop (x.cls c).lossless) (x.sf part c) then none
  else if (x.cls c).lossless then some 38
  else some (68 + c)

/-- out_ok of a queue for a frame of a class, by the rule of a lossless class or of a lossy one. -/
def outOk (part : Part) (x : Engine) (p q c : Nat) (drop lossless : Bool) : Bool :=
  let a := x.egAcct p q
  decide (a.occ < x.minEg p q) || below (sharedUse a (x.minEg p q)) (alphaFor (x.cls c).alphaOut drop lossless) (x.sf part c)

/-- The egress side: out_ok of a queue for a class. -/
def headOut (part : Part) (x : Engine) (p q c : Nat) (drop : Bool) : Bool := outOk part x p q c drop (x.cls c).lossless

/-- A refusal counted; the first HR_OVF of an account since its last XON is reported (Table 7.9). -/
def countRefusal (p c k : Nat) (x : Engine) : Engine :=
  let y := x.bumpPort p k
  if k = 76 + c ∧ (x.inAcct p c).ovf = false then
    (y.modIn p c fun a => { a with ovf := true }).raise 0x05 0x03 0 (pack [(p, 8), (c, 0)])
  else y

/-! ## Charging (R220) -/

/-- Cells that are neither occupied nor retired, lowest first (log 18), from `from_` on, `n` of them. -/
def pickCells (used : List Nat) : Nat → Nat → Nat → List Nat
  | 0, _, _ => []
  | _, 0, _ => []
  | fuel + 1, n + 1, c => if used.contains c then pickCells used fuel (n + 1) (c + 1) else c :: pickCells used fuel n (c + 1)

/-- The cells of a store that are not free. -/
def Engine.takenCells (x : Engine) : List Nat := x.buf.retired ++ x.buf.frames.flatMap fun e => e.2.cells

/-- The cells charged to egress minimums. -/
def Frame.egCells (f : Frame) : Nat := (f.pEg.map fun e => e.2).sum

/-- The cells charged so far, of a frame that is being written. -/
def Frame.charged (f : Frame) : Nat := f.pMin + f.pHr + f.pShared + f.pRes + f.egCells

/-- The free cells of the store a frame is written to, less those it has taken so far: they do not show before all are charged.
`inU` says that it is written to the Underpass. -/
def storeLeft (part : Part) (x : Engine) (f : Frame) (inU : Bool) : Nat :=
  if inU then x.sharedFreeU part - f.charged
  else x.sharedFreeA part - (f.pMin + f.pShared + f.egCells + if (x.hr f.ingress f.cls).under then 0 else f.pHr)

/-- SF(c) while a frame of the class is being written. -/
def sfLeft (part : Part) (x : Engine) (f : Frame) (inU : Bool) : Nat :=
  let a := if inU then x.sharedFreeA part else storeLeft part x f false
  let u := if inU then storeLeft part x f true else x.sharedFreeU part
  a + if x.buf.spillEn && (x.cls f.cls).spill then u else 0

/-- One cell charged to its place: the engine and the frame after, or none when the reserve is empty. `qs` are the
queues of the frame's stored copies, `uni` the queue of a unicast frame's copy, `inU` says that the frame is written to the Underpass: a
place of the shared space is one of the store it is written to (DEDUCED, log 162). -/
def chargeCell (part : Part) (qs : List (Nat × Nat)) (uni : Option (Nat × Nat)) (inU : Bool) (xf : Engine × Frame) :
    Option (Engine × Frame) :=
  let (x, f) := xf
  let p := f.ingress
  let c := f.cls
  let a := x.inAcct p c
  let egFree := match uni with
    | some (ep, eq) => decide ((x.egAcct ep eq).occ + (if qs.contains (ep, eq) then 0 else f.charged) < x.minEg ep eq)
    | none => false
  let took : Option (Frame × Nat × Nat) :=
    if a.occ < x.minIn p c then some ({ f with pMin := f.pMin + 1 }, 1, 0)
    else if x.lossless p c ∧ a.xoff = true then
      if a.hrUse < (x.hr p c).size then some ({ f with pHr := f.pHr + 1 }, 0, 1)
      else if x.reserveUse + f.pRes < 1280 then some ({ f with pRes := f.pRes + 1 }, 0, 0)
      else none
    else if egFree then
      let k := match uni with
        | some (ep, eq) => 10 * ep + eq
        | none => 0
      some ({ f with pEg := put 0 k (look 0 k f.pEg + 1) f.pEg }, 0, 0)
    else if storeLeft part x f inU > 0 then some ({ f with pShared := f.pShared + 1 }, 0, 0)
    else if x.reserveUse + f.pRes < 1280 then some ({ f with pRes := f.pRes + 1 }, 0, 0)
    else none
  match took with
  | none => none
  | some (f1, m, h) =>
    let x1 := x.modIn p c fun a => { a with occ := a.occ + 1, minUse := a.minUse + m, hrUse := a.hrUse + h }
    let x2 := qs.foldl (fun y (ep, eq) => y.modEg ep eq fun a => { a with occ := a.occ + 1, hrUse := a.hrUse + h }) x1
    let x3 := match uni with
      | some (ep, eq) => if f1.pEg = f.pEg then x2 else x2.modEg ep eq fun a => { a with minUse := a.minUse + 1 }
      | none => x2
    let use := sharedUse (x3.inAcct p c) (x3.minIn p c)
    let full := x.lossless p c && !(x3.inAcct p c).xoff && !below use (x3.cls c).alphaIn (sfLeft part x3 f1 inU)
    some (if full then x3.enterXoff p c else x3, f1)

/-- `n` cells charged one after another. -/
def chargeCells (part : Part) (qs : List (Nat × Nat)) (uni : Option (Nat × Nat)) (inU : Bool) :
    Nat → Engine × Frame → Option (Engine × Frame)
  | 0, xf => some xf
  | n + 1, xf =>
    match chargeCell part qs uni inU xf with
    | none => none
    | some xf1 => chargeCells part qs uni inU n xf1

/-- The cells of a frame of `n` bytes before its FCS (R207). -/
def cellsOf (n : Nat) : Nat := (n + 4 + 255) / 256

/-- A frame's charges taken back from its ingress account, and from the egress minimums it drew on; one in the Roundabout holds
places there instead. -/
def unchargeIn (f : Frame) (x : Engine) : Engine :=
  let n := f.cells.length
  let held := f.round == 0
  let x1 := if f.ingress < 34 then x.modIn f.ingress f.acls fun a =>
    { a with occ := a.occ - n, minUse := a.minUse - (if held then f.pMin else 0), hrUse := a.hrUse - (if held then f.pHr else 0) } else x
  if held then f.pEg.foldl (fun y e => y.modEg (e.1 / 10) (e.1 % 10) fun a => { a with minUse := a.minUse - e.2 }) x1 else x1

/-- A charge of one queue taken back. -/
def unchargeEg (f : Frame) (p q : Nat) (x : Engine) : Engine :=
  x.modEg p q fun a => { a with occ := a.occ - f.cells.length, hrUse := a.hrUse - f.pHr }

/-! ## Frames and their copies -/

/-- A frame by its handle. -/
def Engine.frame (x : Engine) (i : Nat) : Option Frame := findAt i x.buf.frames

/-- A frame put under its handle. -/
def Engine.putFrame (x : Engine) (i : Nat) (f : Frame) : Engine := x.modBuf fun b => { b with frames := insertAt i f b.frames }

/-! ## Retired cells (R214, R215) -/

/-- The words of a cell of 256 bytes. -/
def cellWords : Nat := 32

/-- The words of the Arcade; a word of the buffer DRAM is numbered after them. -/
def arcadeWords : Nat := 2097152

/-- The cell that a word lies in (R207); none for DRAM outside the frame store. -/
def cellOfWord (w : Nat) : Option Nat :=
  let c := w / cellWords
  if c < arcadeCells + underpassCells then some c else none

/-- A free cell retired (R215); the 257th of a store is reported. -/
def retireCell (c : Nat) (x : Engine) : Engine :=
  if x.buf.retired.contains c then x
  else
    let keep (e : Nat × Nat) : Bool := decide (cellOfWord e.1 ≠ some c)
    let y := x.modBuf fun b => { b with retired := b.retired ++ [c], weak := b.weak.filter keep }
    let under := decide (c ≥ arcadeCells)
    let k := bit under
    if decide (y.retiredIn under > 256) && !y.buf.limitRaised.getLsbD k then
      (y.modBuf fun b => { b with limitRaised := b.limitRaised ||| (1#2 <<< k) }).raise 0x05 0x06 2 (word k)
    else y

/-- A cell is poisoned: a word of it is, or an injected error has poisoned it. -/
def poisonedCell (b : BufState) (c : Nat) : Bool := b.injPoisoned.contains c || b.poisoned.any fun w => decide (cellOfWord w = some c)

/-- A cell that is retired when it is next free: poisoned, or with a word corrected in three scrub passes running. -/
def doomed (b : BufState) (c : Nat) : Bool :=
  poisonedCell b c || b.weak.any fun e => decide (e.2 ≥ 3) && decide (cellOfWord e.1 = some c)

/-- A frame taken out, its cells freed or retired (R215, log 24), and XOFF and spilling judged again. -/
def dropFrame (part : Part) (i : Nat) (x : Engine) : Engine :=
  match x.frame i with
  | none => x
  | some f =>
    let x1 := unchargeIn f x
    let bad := f.cells.filter (doomed x.buf)
    let x2 := (dropFlits i x1).modBuf fun b =>
      { b with frames := eraseAt i b.frames, injPoisoned := b.injPoisoned.filter fun c => !f.cells.contains c,
               poisoned := b.poisoned.filter fun w => !(f.cells.any fun c => decide (cellOfWord w = some c)) }
    judgeSpill (judgeXons part (bad.foldl (fun y c => retireCell c y) x2))

/-- A frame that has lost one reference; it goes when none is left (R200). -/
def unref (part : Part) (i : Nat) (x : Engine) : Engine :=
  match x.frame i with
  | none => x
  | some f => if f.refs ≤ 1 then dropFrame part i x else x.putFrame i { f with refs := f.refs - 1 }

/-- What a sample record says of how a copy ended (Table 14.4). -/
structure SampleEnd where
  egress : Nat
  queue : Nat
  outcome : Nat
  cause : Nat
  ct : Bool
  launch : Bool
  cls : Nat
  stamp : Stamp
  residence : Int

/-- The body of a sample record (Table 14.4). -/
def sampleBody (e : EngId) (seq : Nat) (f : Frame) (d : SampleEnd) : List Word :=
  [word seq,
   pack [(f.ingress, 26), (d.egress, 20), (d.queue, 16), (d.outcome, 12), (d.cause, 8), (bit d.ct, 7), (bit f.under, 6),
         (bit f.pass1, 5), (bit f.several, 4), (bit d.launch, 3), (d.cls, 0)],
   pack [(f.orig.length, 16), (f.epoch, 0)], pack [(f.hit0, 16), (f.hit1, 0)], pack [(f.pflags.toNat, 24), (f.trap, 16)]]
    ++ stampWords f.stamp ++ stampWords d.stamp ++ wordsI64 d.residence ++ [pack [(engCode e, 31)]]

/-- A sample record completed: it enters the on-die ring (R409, R410). -/
def putSample (e : EngId) (f : Frame) (d : SampleEnd) (x : Engine) : Engine :=
  match f.sample with
  | none => x
  | some seq => { x with stats := { x.stats with onDie := x.stats.onDie ++ [sampleBody e seq f d] } }

/-- The record of a taken frame that yields no copy (R409). -/
def sampleNoCopy (e : EngId) (f : Frame) (outcome cause : Nat) (x : Engine) : Engine :=
  putSample e f { egress := 63, queue := 15, outcome := outcome, cause := cause, ct := false, launch := false, cls := f.cls,
                  stamp := stampZero, residence := 0 } x

/-- The egress stamp record of a copy (Table 2.10); it waits for the event ring without bound (log 16). -/
def stampRecord (e : EngId) (port tag : Nat) (egress ingress : Stamp) (residence : Int) (x : Engine) : Engine :=
  offerRecord e 2 { type := 0x01, body := pack [(port, 16), (tag, 0)] :: stampWords egress ++ stampWords ingress ++ wordsI64 residence } x

/-- A copy discarded before it was started: its records, its charge, its reference; `cause` as Table 14.5. -/
def discardCopy (part : Part) (e : EngId) (cause : Nat) (c : Copy) (x : Engine) : Engine :=
  match x.frame c.frame with
  | none => x
  | some f =>
    let x1 := match c.tag with
      | some t => stampRecord e c.port t { stampZero with qual := 0 } f.stamp 0 x
      | none => x
    let x2 := if c.mirror || c.trap != 0 then x1 else
      putSample e f { egress := c.port, queue := c.queue, outcome := 2, cause := cause, ct := false, launch := c.launch.isSome,
                      cls := c.cls, stamp := stampZero, residence := 0 } x1
    unref part c.frame (if c.charged then unchargeEg f c.port c.queue x2 else x2)

/-- Every copy of a list discarded, each adding one to a counter of its egress port. -/
def discardAll (part : Part) (e : EngId) (cause k : Nat) (cs : List Copy) (x : Engine) : Engine :=
  cs.foldl (fun y c => discardCopy part e cause c (y.bumpPort c.port k)) x

/-! ## Headroom (R230-R233) -/

/-- The highest rate in Mb/s that ADVERT allows, bit 0 being bit 16 of Table 3.5. -/
def advertRate (mode : Nat) (adv : BitVec 8) : Nat :=
  if mode = 12 then (if adv.getLsbD 6 || adv.getLsbD 7 then 100000 else 40000)
  else if adv.getLsbD 2 || adv.getLsbD 3 then 25000
  else if adv.getLsbD 1 then 10000
  else 1000

/-- RATE of R231 in Mb/s. -/
def Engine.hrRate (x : Engine) (p : Nat) : Nat :=
  if p = 33 then 1000
  else if p = 32 then 0
  else
    let m := (x.port p).mode
    if m ≥ 11 then advertRate m (x.port p).advert else modeRate m

/-- hr_size of a lossless class on a port with flow control (R230). -/
def hrSize (rate : Nat) (f : PortFc) : Nat :=
  let t := 10 * f.lenM + 512 + f.peerNs
  let w := (rate * t + 7999) / 8000 + 2 * (f.maxFrame + 20) + 84
  (w + 255) / 256 + (w + f.minFrame + 19) / (f.minFrame + 20)

/-- The lossless accounts of a port with their size; none where nothing is reserved. -/
def Engine.hrAccounts (x : Engine) (p : Nat) : List (Nat × Nat) :=
  let f := x.fc p
  let r := x.hrRate p
  if (f.mode = 1 ∨ f.mode = 2) ∧ r ≠ 0 ∧ x.unused p = false then
    ((List.range 8).filter fun c => (x.cls c).lossless).map fun c => (8 * p + c, hrSize r f)
  else []

/-- A placement under way: what is placed, the sums in both stores, and the rate of the ports in the Underpass. -/
structure Placing where
  placed : List (Nat × Headroom)
  arcade : Nat
  under : Nat
  rate : Nat

/-- The Arcade shared pool that a headroom sum leaves (Table 7.1). -/
def arcadeShared (part : Part) (x : Engine) (hr : Nat) : Nat := arcadeCells - fixedArcade part - x.minSum part - hr

/-- One account placed, if it can be; `first` says that no account of its port lies in the Underpass yet. -/
def placeOne (part : Part) (x : Engine) (k size rate : Nat) (first : Bool) (g : Placing) : Option (Placing × Bool) :=
  let fits := decide (size ≤ 2048) && decide (g.arcade + size ≤ 49152)
    && decide (fixedArcade part + x.minSum part + g.arcade + size + 4096 ≤ arcadeCells)
  if fits then some ({ g with placed := insertAt k { size := size, under := false } g.placed, arcade := g.arcade + size }, first)
  else if underpassPart part && decide (g.under + size ≤ 458752) && (!first || decide (g.rate + rate ≤ 120000)) then
    some ({ g with placed := insertAt k { size := size, under := true } g.placed, under := g.under + size,
                   rate := if first then g.rate + rate else g.rate }, false)
  else none

/-- The accounts of one port placed, all or none. -/
def placePort (part : Part) (x : Engine) (rate : Nat) : List (Nat × Nat) → Placing × Bool → Option (Placing × Bool)
  | [], g => some g
  | (k, size) :: rest, (g, first) =>
    match placeOne part x k size rate first g with
    | none => none
    | some g1 => placePort part x rate rest g1

/-- Headroom placed for every port in the two stages of R232, and the ports that read HR_SHORT. -/
def placeAll (part : Part) (x : Engine) (changed : Option Nat) : Placing × List Nat :=
  let late (p : Nat) : Bool := (x.fc p).hrShort || changed == some p
  let order := (List.range 34).filter (fun p => !late p) ++ (List.range 34).filter late
  order.foldl (fun (g, short) p =>
    match placePort part x (x.hrRate p) (x.hrAccounts p) (g, true) with
    | some (g1, _) => (g1, short)
    | none => (g, short ++ [p])) ({ placed := [], arcade := 0, under := 0, rate := 0 }, [])

/-- A port's HR_SHORT follows a placement; a port that becomes short is reported (R233). -/
def setShort (short : List Nat) (p : Nat) (x : Engine) : Engine :=
  let now := short.contains p
  let was := (x.fc p).hrShort
  let y := x.modFc p fun f => { f with hrShort := now }
  if now && !was then y.raise 0x05 0x04 1 (word p) else y

/-- Headroom recomputed (R231). -/
def recomputeHr (part : Part) (changed : Option Nat) (x : Engine) : Engine :=
  let (g, short) := placeAll part x changed
  (List.range 34).foldl (fun y p => setShort short p y) (x.modBuf fun b => { b with headroom := g.placed })

/-- The placement in force (R231). -/
def Engine.placedNow (x : Engine) : Placing :=
  let sum (under : Bool) : Nat := (x.buf.headroom.map fun e => if e.2.under == under then e.2.size else 0).sum
  { placed := x.buf.headroom, arcade := sum false, under := sum true, rate := 0 }

/-- The placement under a configuration, and the ports that read HR_SHORT: recomputed where one of its inputs changes, that in
force otherwise (R231). -/
def placingOf (part : Part) (again : Bool) (x : Engine) : Placing × List Nat :=
  if again then placeAll part x none else (x.placedNow, (List.range 34).filter fun p => (x.fc p).hrShort)

/-- Whether a configuration is refused (R233): a port that was not short would be, or the shared pool would fall
below its floor. -/
def hrRefused (part : Part) (again : Bool) (old new : Engine) : Bool :=
  let (g, short) := placingOf part again new
  short.any (fun p => !(old.fc p).hrShort)
    || decide (fixedArcade part + new.minSum part + g.arcade + 4096 > arcadeCells)

/-- The reply of Table 7.6; `port` for QUEUE.SET_PORT_FC. On a refusal BYTES_NEEDED counts what would have been
reserved. -/
def hrReply (part : Part) (again : Bool) (old new : Engine) (refused : Bool) (port : Option Nat) : List Word :=
  let pl := placingOf part again new
  let g : Placing := pl.1
  let want := ((List.range 34).map fun p => if (old.fc p).hrShort then 0 else ((new.hrAccounts p).map (fun (a : Nat × Nat) => a.2)).sum).sum
  let cells := if refused then want else g.arcade + g.under
  let per := match port with
    | some p => (((new.hrAccounts p).map (fun (a : Nat × Nat) => a.2)).headD 0,
                 ((List.range 8).map fun c => bit (look ({ size := 0, under := false } : Headroom) (8 * p + c) g.placed).under * 2 ^ c).sum)
    | none => (0, 0)
  [word (arcadeShared part new g.arcade), word (cells * 256), word g.under, word per.1, word per.2]

/-! ## Registers (Table 7.7) -/

/-- The buffer registers. Every field but the scrub and ECC fields and PAUSED_RX reads 0 on the standby. SHARED_FREE_A and
SHARED_FREE_U read as R211 on an engine that stores, and 0, their reset value, on any other (DEDUCED, log 135). -/
def bufReg (part : Part) (x : Engine) (off : Nat) : Option Word :=
  let act := x.core.role != 2
  let b := x.buf
  let on (w : Word) : Option Word := some (if act then w else 0)
  match off with
  | 0x0600 => on (word (arcadeCells - x.retiredIn false - x.arcadeUsed))
  | 0x0604 => on (word (if x.stores then x.sharedFreeA part else 0))
  | 0x0608 => on (word (if x.stores then x.sharedFreeU part else 0))
  | 0x060C =>
    let wait := b.frames.any fun e => e.2.under && x.egress.queues.any fun q => match q.2 with
      | c :: _ => c.frame == e.1 && !c.staged
      | [] => false
    on (pack [(bit (judgeSpill x).buf.spilling, 31), (bit b.spillEn, 30), (bit wait, 29), (bit (b.fc.toList.any fun f => f.hrShort), 28)])
  | 0x0610 => some b.eccLast
  | 0x0614 => some (pack [(x.retiredIn true, 16), (x.retiredIn false, 0)])
  | _ =>
    if off ≥ 0x0640 ∧ off < 0x0640 + 4 * 34 ∧ off % 4 = 0 then
      let p := (off - 0x0640) / 4
      let f := x.fc p
      let paused := ((List.range 8).map fun c => bit (pausedQueue f (x.prios p c) c) * 2 ^ c).sum
      some (if act then pack [(f.mode, 30), (bit f.hrShort, 29), (bit f.pauseOff, 28), ((x.xoffMask p).toNat, 16), (paused, 8),
                              (f.storm.toNat, 0)] else pack [(paused, 8)])
    else none
where
  /-- A class queue is paused by the partner (R224). -/
  pausedQueue (f : PortFc) (prios : BitVec 8) (c : Nat) : Bool :=
    if f.mode = 2 then (List.range 8).any fun i => prios.getLsbD i && vget f.timers 0 i != 0
    else f.mode == 1 && vget f.timers 0 c != 0

/-! ## QUEUE commands -/

/-- A change of configuration judged by R233: applied, or ERR_RANGE with its reply. `again` says that headroom is placed anew. -/
def hrJudge (part : Part) (again : Bool) (c : Ctx) (port : Option Nat) (change : Engine → Engine) (s : State) : Option (List Word) :=
  let old := s.eng c.eng
  if hrRefused part again old (change old) then some (hrReply part again old (change old) true port) else none

/-- The reply that refuses a spill mode on a part without an Underpass: BYTES_NEEDED is the frame store that it draws on (R236). -/
def spillRefusal (part : Part) (again : Bool) (old new : Engine) : List Word :=
  (hrReply part again old new true none).set 1 (word 134217728)

/-- QUEUE.SET_CLASS changes a class; one that becomes lossy leaves XOFF on every port (R238). -/
def setClass (w : Word) (x : Engine) : Engine :=
  let c := field w 2 0
  let q : ClassBuf := { lossless := flag w 8, spill := flag w 9, alphaIn := field w 19 16, alphaOut := field w 27 24 }
  let y := if flag w 8 then x else (List.range 34).foldl (fun y p => if (y.inAcct p c).xoff then y.leaveXoff p c else y) x
  y.modBuf fun b => { b with classes := vmodN b.classes c fun _ => q }

/-- QUEUE.SET_CLASS (Table 7.4). -/
def queueSetClassSpec : CmdSpec :=
  configSpec 0x0601 (lenIs 1)
    (fun ps => zeroBits ps 0 31 28 && zeroBits ps 0 23 20 && zeroBits ps 0 15 10 && zeroBits ps 0 7 3)
    (fun c ps s =>
      let w := par ps 0
      if field w 27 24 > 10 ∨ field w 19 16 > 10 then some []
      else if flag w 9 && !underpassPart s.part then some (spillRefusal s.part true (s.eng c.eng) (setClass w (s.eng c.eng)))
      else hrJudge s.part true c none (setClass w) s)
    neverJudge
    (fun c ps s =>
      let old := s.eng c.eng
      let new := recomputeHr s.part none (setClass (par ps 0) old)
      .now (s.setEng c.eng new) (hrReply s.part true old new false none))

/-- PAUSE_OFF of a port's flow control: FC_MODE 1 with a partner that offered no symmetric PAUSE in the last negotiation (R222). -/
def pauseJudged (f : PortFc) : PortFc := { f with pauseOff := f.mode == 1 && f.peerPause == some false }

/-- A port's flow control as QUEUE.SET_PORT_FC gives it. -/
def setPortFc (ps : List Word) (x : Engine) : Engine :=
  let w2 := par ps 2
  x.modFc (field (par ps 0) 5 0) fun f => pauseJudged
    { f with mode := field (par ps 0) 9 8, lenM := (par ps 1).toNat, peerNs := field w2 31 16, quanta := field w2 15 0,
             maxFrame := field (par ps 3) 29 16, minFrame := field (par ps 3) 13 0, wdMs := field (par ps 4) 31 16,
             xonDelta := field (par ps 4) 15 0 }

/-- QUEUE.SET_PORT_FC (Table 7.5). -/
def queueSetPortFcSpec : CmdSpec :=
  portSpec 0x0602 (lenIs 5)
    (fun ps => zeroBits ps 0 31 10 && zeroBits ps 0 7 6 && zeroBits ps 3 31 30 && zeroBits ps 3 15 14)
    (fun ps => field (par ps 0) 5 0)
    (fun c ps s =>
      let p := field (par ps 0) 5 0
      let m := field (par ps 0) 9 8
      let mx := field (par ps 3) 29 16
      let mn := field (par ps 3) 13 0
      if p > 33 ∨ m = 3 ∨ (m = 2 ∧ p = 33) ∨ (m ≠ 0 ∧ p = 32) ∨ (par ps 1).toNat > 80000 ∨ field (par ps 2) 15 0 = 0
          ∨ mx < 64 ∨ mx > 9216 ∨ mn < 64 ∨ mn > mx ∨ field (par ps 4) 31 16 > 60000 ∨ field (par ps 4) 15 0 > 4096 then some []
      else hrJudge s.part true c (some p) (setPortFc ps) s)
    neverJudge
    (fun c ps s =>
      let old := s.eng c.eng
      let new := recomputeHr s.part none (setPortFc ps old)
      .now (s.setEng c.eng new) (hrReply s.part true old new false (some (field (par ps 0) 5 0))))

/-- The minimums of a port as QUEUE.SET_MIN gives them. -/
def setMin (ps : List Word) (x : Engine) : Engine :=
  let p := field (par ps 0) 5 0
  let v (i : Nat) : Nat := if i % 2 = 0 then field (par ps (1 + i / 2)) 31 16 else field (par ps (1 + i / 2)) 15 0
  if flag (par ps 0) 31 then
    x.modBuf fun b => { b with egMin := (List.range 10).foldl (fun t i => put 16 (10 * p + i) (v i) t) b.egMin }
  else x.modBuf fun b => { b with inMin := (List.range 8).foldl (fun t i => put 0 (8 * p + i) (v i) t) b.inMin }

/-- QUEUE.SET_MIN (R239). -/
def queueSetMinSpec : CmdSpec :=
  portSpec 0x0603 (fun _ _ ps => ps.length == if flag (par ps 0) 31 then 6 else 5) (fun ps => zeroBits ps 0 30 6)
    (fun ps => field (par ps 0) 5 0)
    (fun c ps s =>
      if field (par ps 0) 5 0 > 33 || (ps.drop 1).any fun w => decide (field w 31 16 > 4096) || decide (field w 15 0 > 4096) then some []
      else hrJudge s.part false c none (setMin ps) s)
    neverJudge
    (fun c ps s =>
      let old := s.eng c.eng
      let new := setMin ps old
      .now (s.setEng c.eng new) (hrReply s.part false old new false none))

/-- QUEUE.SET_AGE (R239). -/
def queueSetAgeSpec : CmdSpec :=
  portSpec 0x0604 (lenIs 2) (fun ps => zeroBits ps 0 31 12 && zeroBits ps 0 7 6) (fun ps => field (par ps 0) 5 0)
    (fun _ ps _ => rangeIf (decide (field (par ps 0) 5 0 > 33) || decide (field (par ps 0) 11 8 > 7) || decide ((par ps 1).toNat > 10000000)))
    neverJudge
    (fun c ps s => onSelf c (fun x => x.modBuf fun b =>
      { b with ages := put 0 (8 * field (par ps 0) 5 0 + field (par ps 0) 11 8) (par ps 1).toNat b.ages }) s)

/-- QUEUE.SET_BUFFER_MODE (R234, R239). -/
def queueSetBufferModeSpec : CmdSpec :=
  configSpec 0x0605 (lenIs 3) (fun ps => zeroBits ps 0 30 0 && zeroBits ps 1 31 17)
    (fun c ps s =>
      let on := (par ps 1).toNat
      if flag (par ps 0) 31 && !underpassPart s.part then some (spillRefusal s.part false (s.eng c.eng) (s.eng c.eng))
      else rangeIf (decide (on < 4096) || decide (on > 65536) || decide ((par ps 2).toNat ≥ on)))
    neverJudge
    (fun c ps s =>
      let old := s.eng c.eng
      let set : Engine := old.modBuf fun b =>
        { b with spillEn := flag (par ps 0) 31, spillOn := (par ps 1).toNat, spillOff := (par ps 2).toNat }
      let new := judgeSpill set
      .now (s.setEng c.eng new) (hrReply s.part false old new false none))

/-- QUEUE.GET_OCCUPANCY (R240). -/
def queueGetOccupancySpec : CmdSpec :=
  readSpec 0x0606 true (lenIs 1) (fun ps => zeroBits ps 0 30 6) (fun p ps => absentPort p (field (par ps 0) 5 0))
    (fun _ ps _ => rangeIf (decide (field (par ps 0) 5 0 > 33))) neverJudge
    (fun c ps s =>
      let x := s.eng c.eng
      let p := field (par ps 0) 5 0
      let one (a : Acct) : Word := if x.core.role = 2 then 0 else pack [(satN 65535 a.occ, 16), (satN 65535 a.hrUse, 0)]
      .now s (if flag (par ps 0) 31 then (List.range 10).map fun q => one (x.egAcct p q)
              else (List.range 8).map fun k => one (x.inAcct p k)))

/-- FWD.SET_MC_RESIDUE (R205). -/
def fwdSetMcResidueSpec : CmdSpec :=
  configSpec 0x050B (lenIs 1) (fun _ => true) (fun _ ps _ => rangeIf (decide ((par ps 0).toNat > 1000000))) neverJudge
    (fun c ps s =>
      let old := (s.eng c.eng).buf.residueAgeUs
      .now (s.modEng c.eng fun x => x.modBuf fun b => { b with residueAgeUs := (par ps 0).toNat }) [word old])

end Sys2Proof.Machine
end

