-- ==== Sys2Proof/Machine/Time.lean ====
section
/-! DEFINITION. Device time: its passing, its latches and readings, steps and slews, event inputs and outputs, and
the TIME commands of chapter "Device time, timebase and stamping". -/

namespace Sys2Proof.Machine

/-! ## Time passes (R66, R70, R72, R73) -/

/-- Device time counts modulo 2^64 seconds. -/
def devMod : Nat := 2 ^ 64 * 1000000000 * 2 ^ 32

/-- What a slew moves in `n` D1 cycles: its rate in ps/s over 2 ns a cycle, no more than what remains; units of
2^-32 ns x 10^-12. -/
def slewMove (n : Nat) (w : Slew) : Int :=
  let most : Int := (n * w.rate * 2 ^ 33 : Nat)
  if w.remain ≥ 0 then min most w.remain else max (-most) w.remain

/-- `n` D1 cycles of one engine's time counter: INC each (R66). The remainder of a step is slewed by offsetting SYN-T, which
moves the cycles themselves and not what the counter adds in one (R67, R72); on the fallback multiplier, `fb`, by offsetting INC
(R73). -/
def passTime (fb : Bool) (n : Nat) (t : TimeState) : TimeState :=
  let base := t.dev + n * t.inc
  match t.slew with
  | none => { t with dev := base % devMod, tbCycles := (t.tbCycles + n) % 2 ^ 64 }
  | some w =>
    let m := slewMove n w
    let sub : Int := t.subUnit + (if fb then m else 0)
    let unit : Int := 1000000000000
    let left := w.remain - m
    { t with dev := ((base + sub / unit) % devMod).toNat, subUnit := (sub % unit).toNat,
             tbCycles := (t.tbCycles + n) % 2 ^ 64,
             slew := if left = 0 then none else some { w with remain := left } }

/-- `n` D1 cycles of an engine that is out of reset. -/
def passEngine (n : Nat) (x : Engine) : Engine := if x.awake then { x with time := passTime x.clk.fallback n x.time } else x

/-- `n` D1 cycles of the module. -/
def pass (n : Nat) (s : State) : State := ({ s with ticks := s.ticks + n } : State).modBoth (passEngine n)

/-- The D1 cycle in units of 2^-16 ns. -/
def cycle16 : Nat := 131072

/-- The whole D1 cycles of an event's delay after the previous event pass (log 2). -/
def passAfter (after : Nat) (s : State) : State := pass (after / cycle16) s

/-- The position of an event within its D1 cycle (R83). -/
def interpOf (after : Nat) : Nat := after % cycle16

/-- A divided by b, rounded up. -/
def divUp (a b : Nat) : Nat := (a + b - 1) / b

/-- The D1 cycles until a time counter reaches `want`, in 2^-32 ns; on the fallback multiplier a slew moves INC (R73). -/
def cyclesTo (fb : Bool) (t : TimeState) (want : Nat) : Nat :=
  match t.slew with
  | none => divUp (want - t.dev) t.inc
  | some w =>
    if !fb then divUp (want - t.dev) t.inc
    else
      let unit : Int := 1000000000000
      let need : Int := ((want : Int) - t.dev) * unit - t.subUnit
      let step : Int := if w.remain ≥ 0 then (w.rate * 2 ^ 33 : Nat) else -((w.rate * 2 ^ 33 : Nat) : Int)
      let n := divUp need.toNat (t.inc * unit + step).toNat
      if n * w.rate * 2 ^ 33 ≤ w.remain.natAbs then n else divUp (need - w.remain).toNat (t.inc * unit).toNat

/-- Time passes until the device time of an engine has reached `t`, in 2^-16 ns; nothing when it has (log 7). -/
def passTo (e : EngId) (t : Nat) (s : State) : State :=
  let x := s.eng e
  let want := t * 65536
  if want ≤ x.time.dev then s else pass (cyclesTo x.clk.fallback x.time want) s

/-! ## Readings -/

/-- TIME_STATUS, 0x0110 (Table 2.6). SLEW_REMAIN is rounded down to its unit (DESIGN CHOICE, log 123). -/
def timeStatus (t : TimeState) : Word :=
  let rem : Int := match t.slew with
    | none => 0
    | some w => w.remain / (2 ^ 22 * 1000000000000)
  pack [(bit t.tbSet, 31), (bit t.slew.isSome, 30), (bit t.step.isSome, 29), (t.stepCount % 256, 16),
        ((BitVec.ofInt 16 rem).toNat, 0)]

/-- The index of a latch. -/
def latchIdx : LatchId → Fin 3
  | .bar0 => 0
  | .mgmt => 1
  | .spi => 2

/-- The time latch of a channel (R79, R443). -/
def chanLatch : Channel → LatchId
  | .ring => .bar0
  | .mailbox => .bar0
  | .mgmt => .mgmt
  | .spi => .spi

/-- A read of TIME_NSEC latches the block of its channel (R79). -/
def latchTime (l : LatchId) (x : Engine) : Engine :=
  { x with time := { x.time with latches := vset x.time.latches (latchIdx l) { time := x.now, cycles := x.time.tbCycles } } }

/-- EVT_STATUS, 0x0120 (Table 2.13). -/
def evtStatus (t : TimeState) : Word :=
  let pend := ((List.range 8).map fun n => bit (!(vget t.evtOut evtOutReset n).sched.isEmpty) * 2 ^ n).sum
  let q := ((List.range 8).map fun n => bit (!(vget t.evtIn evtInReset n).queue.isEmpty) * 2 ^ n).sum
  pack [(t.edgeLate.toNat, 24), (pend, 16), (t.evtOvf.toNat, 8), (q, 0)]

/-- The time block and EVT_STATUS (Tables 2.6 and 2.13). TIME_NSEC reads the present nanoseconds. -/
def timeReg (l : LatchId) (x : Engine) (off : Nat) : Option Word :=
  let k := x.time.latches[latchIdx l]
  match off with
  | 0x0100 => some (word (nsecOf x.time.now16))
  | 0x0104 => some (pack [(fracOf k.time.t, 16), (k.time.qual.toNat, 0)])
  | 0x0108 => some (word (secOf k.time.t))
  | 0x010C => some (word (secOf k.time.t / 2 ^ 32))
  | 0x0110 => some (timeStatus x.time)
  | 0x0114 => some (word k.cycles)
  | 0x0118 => some (word (k.cycles / 2 ^ 32))
  | 0x0120 => some (evtStatus x.time)
  | _ => none

/-! ## Steps (R72-R78) -/

/-- The jump of a step: the whole multiple of 64 ns that leaves a remainder from -32 ns to below +32 ns (R72). -/
def stepJump (delta : Int) : Int := (delta + 2097152) / 4194304 * 4194304

/-- A step waits for its apply instant (R74). -/
def putStep (delta : Int) (applyAt rate : Nat) (servo : Bool) (t : TimeState) : TimeState :=
  { t with step := some { jump := stepJump delta, rem := delta - stepJump delta, applyAt := applyAt, rate := rate, servo := servo } }

/-- A remainder in 2^-16 ns starts to be slewed; a remainder of 0 starts nothing. -/
def startSlew (rem : Int) (rate : Nat) : Option Slew :=
  if rem = 0 then none else some { remain := rem * 65536 * 1000000000000, rate := rate }

/-- Device time moved by whole units of 2^-16 ns. -/
def moveDev (d : Int) (t : TimeState) : TimeState := { t with dev := ((t.dev + d * 65536) % devMod).toNat }

/-- The pending step is applied (R72): J in one cycle, STEP_COUNT + 1, TB_SET, the slew of r. -/
def applyStep (p : PendingStep) (t : TimeState) : TimeState :=
  { moveDev p.jump t with step := none, tbSet := true, stepCount := (t.stepCount + 1) % 256,
                          jumpSum := t.jumpSum + p.jump, slew := startSlew p.rem p.rate }

/-- The reply of TIME.SET and TIME.STEP (Table 2.4). -/
def stepReply (rem : Int) (x : Engine) : List Word := stampWords x.now ++ [wordI rem, word (x.time.stepCount % 256)]

/-- A pulse output's offset from its aligned position, within half a period either way (R320). -/
def wrapOffset (rate : Nat) (o : Int) : Int :=
  if rate = 0 then o
  else
    let per : Int := (s16 / rate : Nat)
    (o + per / 2) % per - per / 2

/-- A pulse output's offset now (R320, R321): an alignment moves it towards 0 at its rate. -/
def ppsOffset (x : Engine) (n : Fin 4) : Int :=
  let o := x.refs.pps[n].offset
  if x.refs.align.getLsbD (8 + n.val) then
    let moved : Int := (x.refs.alignRate * (x.time.tbCycles - x.refs.alignAt) * 512 / 1000000000000 : Nat)
    if o < 0 then min (o + moved) 0 else max (o - moved) 0
  else o

/-- The offsets of the pulse outputs brought up to now. -/
def alignNow (x : Engine) : Engine :=
  { x with refs := { x.refs with
      alignAt := x.time.tbCycles,
      pps := Vector.ofFn fun n => { x.refs.pps[n] with offset := ppsOffset x n } } }

/-- Device time has jumped by `j`: every output that is on stays where its synthesizer's phase has it, and is misaligned
(R320). -/
def outputsJumped (j : Int) (x0 : Engine) : Engine :=
  let x := alignNow x0
  if j = 0 then x0
  else { x with refs := { x.refs with
    clks := x.refs.clks.map fun k => { k with misaligned := k.misaligned || k.enable },
    pps := x.refs.pps.map fun k =>
      if k.enable then { k with misaligned := true, offset := wrapOffset k.rate (k.offset * 256 + j) / 256 } else k } }

/-- The instants of the recorded frequencies move with device time (R306). -/
def historyJumped (j : Int) (x : Engine) : Engine :=
  let at_ (t : Nat) : Nat := ((t : Int) + j).toNat
  { x with net := { x.net with slots := x.net.slots.map fun q =>
      { q with history := q.history.map fun h => (at_ h.1, h.2), histAt := at_ q.histAt } } }

/-- A jump back makes the snapshot instants that it passes fall again (R404). -/
def snapJumped (j : Int) (x : Engine) : Engine :=
  if j < 0 then { x with stats := { x.stats with snapAt := none } } else x

/-- What a jump of device time by `j` does beside the time word: the outputs (R320), the recorded frequencies (R306), the gate
lists (R247) and the snapshots (R404). -/
def timeJumped (j : Int) (x : Engine) : Engine := snapJumped j (gatesJumped j (historyJumped j (outputsJumped j x)))

/-- The pending step `p` of an engine is applied and its command replies. -/
def jumpOn (e : EngId) (p : PendingStep) (s : State) : State :=
  complete e .stepApplied .ok (fun x _ => stepReply p.rem x)
    (s.modEng e fun x => timeJumped p.jump { x with time := applyStep p x.time })

/-- The step of an engine comes to its apply instant: both engines add J on the same D1 edge, where both hold the step (R74). -/
def stepApply (e : EngId) (s : State) : State :=
  match (s.eng e).time.step with
  | none => s
  | some p =>
    let s1 := jumpOn e p (passTo e p.applyAt s)
    match (s1.eng (other e)).time.step with
    | some q => if twinPart s.part && (s1.eng (other e)).awake && q.applyAt == p.applyAt then jumpOn (other e) q s1 else s1
    | none => s1

/-- The D1 cycles that a slew still takes at its rate (R72). -/
def slewCycles (w : Slew) : Nat := divUp w.remain.natAbs (w.rate * 2 ^ 33)

/-- The cycles pass that the slew of an engine takes, if one runs. -/
def endSlew (e : EngId) (s : State) : State :=
  match (s.eng e).time.slew with
  | none => s
  | some w => pass (slewCycles w) s

/-! ## Ranges of time words -/

/-- A time word whose NSEC is above 999,999,999 (R29). -/
def badNsec (ps : List Word) (i : Nat) : Bool := decide ((par ps (i + 2)).toNat > 999999999)

/-- A time word whose QUAL is not 0. -/
def badQual (ps : List Word) (i : Nat) : Bool := field (par ps (i + 3)) 15 0 != 0

/-- A delay outside -10 ns to +200 ns, in units of 2^-16 ns (Tables 2.9, 2.11). -/
def badDelay (w : Word) : Bool := decide (w.toInt < -655360) || decide (w.toInt > 13107200)

/-- An apply instant less than 100 us or more than 1 s after acceptance (R74). -/
def badApply (now t : Nat) : Bool := decide (t < now + 100 * us16) || decide (t > now + s16)

/-! ## Commands -/

/-- TIME.GET (R80). -/
def timeGetSpec : CmdSpec :=
  { opcode := 0x0801, onActive := true, onStandby := true, onSup := false, mirrored := false, inMaint := false,
    inCul := true, needsSup := false, lenOk := lenIs 0, rsvdOk := fun _ => true, absent := neverAbsent,
    rangeErr := neverRange, judge := neverJudge,
    apply := fun c _ s =>
      let x := s.eng c.eng
      .now s (stampWords x.now ++ words64 x.time.tbCycles ++ [timeStatus x.time]) }

/-- The servo of the steering slot is in ACQUIRING or LOCKED (R276). -/
def servoHolds (x : Engine) : Bool :=
  let q := vget x.net.slots (slotReset 0) x.net.steer
  q.servo == 2 || q.servo == 3

/-- The busy and state conditions of a step (Table 2.5, R276). -/
def stepJudge (c : Ctx) (s : State) : Option (Status × List Word) :=
  let x := s.eng c.eng
  firstOf [statusIf (x.time.step.isSome || x.time.slew.isSome) .busy, statusIf (servoHolds x) .state]

/-- A step of `delta` accepted: nothing to do when it is 0 (R72), else it waits for its instant (R78). -/
def acceptStep (c : Ctx) (delta : Int) (applyAt rate : Nat) (s : State) : Applied :=
  if delta = 0 then .now s (stepReply 0 (s.eng c.eng))
  else
    { state := s.modEng c.eng fun x => { x with time := putStep delta applyAt rate false x.time },
      body := [], await := some .stepApplied }

/-- TIME.SET (R77, R78). -/
def timeSetSpec : CmdSpec :=
  { opcode := 0x0802, onActive := true, onStandby := false, onSup := false, mirrored := true, inMaint := false,
    inCul := false, needsSup := false, lenOk := lenIs 9,
    rsvdOk := fun ps => !badQual ps 0 && !badQual ps 4, absent := neverAbsent,
    rangeErr := fun c ps s =>
      let rate := (par ps 8).toNat
      rangeIf (badNsec ps 0 || badNsec ps 4 || badApply (s.eng c.eng).time.now16 (parTime ps 4)
        || decide (rate < 10) || decide (rate > 1000000)),
    judge := fun c _ s => stepJudge c s,
    apply := fun c ps s =>
      acceptStep c ((parTime ps 0 : Int) - (parTime ps 4 : Int)) (parTime ps 4) (par ps 8).toNat s }

/-- TIME.STEP (R77, R78). -/
def timeStepSpec : CmdSpec :=
  { opcode := 0x0803, onActive := true, onStandby := false, onSup := false, mirrored := true, inMaint := false,
    inCul := false, needsSup := false, lenOk := lenIs 7,
    rsvdOk := fun ps => zeroBits ps 1 15 0 && !badQual ps 3, absent := neverAbsent,
    rangeErr := fun c ps s =>
      let rate := (par ps 2).toNat
      rangeIf (badNsec ps 3 || badApply (s.eng c.eng).time.now16 (parTime ps 3) || decide (rate < 10) || decide (rate > 1000000)),
    judge := fun c _ s => stepJudge c s,
    apply := fun c ps s =>
      acceptStep c ((par ps 0).toInt * 65536 + (field (par ps 1) 31 16 : Nat)) (parTime ps 3) (par ps 2).toNat s }

/-- New board delays of a lane. Stamps captured in the present D1 cycle still use the old ones, kept in `boardOld` (R86). -/
def setBoard (lane : Nat) (rx tx : Int) (t : TimeState) : TimeState :=
  let old : BoardOld := { lane := lane, cycle := t.tbCycles, rx := vget t.rxBoard 0 lane, tx := vget t.txBoard 0 lane }
  let kept := t.boardOld.filter fun k => decide (k.cycle = t.tbCycles)
  { t with rxBoard := vmodN t.rxBoard lane fun _ => rx, txBoard := vmodN t.txBoard lane fun _ => tx,
           boardOld := if kept.any fun k => k.lane == lane then kept else kept ++ [old] }

/-- The board delay of a lane and direction for a stamp captured in the present D1 cycle (R86). -/
def TimeState.board (t : TimeState) (lane dir : Nat) : Int :=
  match t.boardOld.find? fun k => k.lane = lane && k.cycle = t.tbCycles with
  | some k => if dir = 0 then k.rx else k.tx
  | none => if dir = 0 then vget t.rxBoard 0 lane else vget t.txBoard 0 lane

/-- TIME.SET_BOARD_DELAY (R86). -/
def timeSetBoardDelaySpec : CmdSpec :=
  { opcode := 0x0804, onActive := true, onStandby := false, onSup := false, mirrored := true, inMaint := false,
    inCul := false, needsSup := false, lenOk := lenIs 3, rsvdOk := fun ps => zeroBits ps 0 31 6,
    absent := fun p ps => let l := field (par ps 0) 5 0; decide (l ≥ lanesOf p) && decide (l < 32),
    rangeErr := fun _ ps _ => rangeIf (decide (field (par ps 0) 5 0 > 31) || badDelay (par ps 1) || badDelay (par ps 2)),
    judge := neverJudge,
    apply := fun c ps s =>
      let l := field (par ps 0) 5 0
      .now (s.modEng c.eng fun x => { x with time := setBoard l (par ps 1).toInt (par ps 2).toInt x.time }) [] }

/-- One event input of an engine changed. -/
def modEvtIn (n : Nat) (f : EvtIn → EvtIn) (x : Engine) : Engine :=
  { x with time := { x.time with evtIn := vmodN x.time.evtIn n f } }

/-- One event output of an engine changed. -/
def modEvtOut (n : Nat) (f : EvtOut → EvtOut) (x : Engine) : Engine :=
  { x with time := { x.time with evtOut := vmodN x.time.evtOut n f } }

/-- TIME.SET_EVTIN (R91). -/
def timeSetEvtinSpec : CmdSpec :=
  { opcode := 0x0805, onActive := true, onStandby := false, onSup := false, mirrored := true, inMaint := false,
    inCul := false, needsSup := false, lenOk := lenIs 2,
    rsvdOk := fun ps => zeroBits ps 0 31 24 && zeroBits ps 0 15 9 && zeroBits ps 0 7 6 && zeroBits ps 0 3 3,
    absent := neverAbsent, rangeErr := fun _ ps _ => rangeIf (badDelay (par ps 1)), judge := neverJudge,
    apply := fun c ps s =>
      let w := par ps 0
      .now (s.modEng c.eng (modEvtIn (field w 2 0) fun q =>
        { q with edge := field w 5 4, deliver := flag w 8, deglitch := field w 23 16, pinDelay := (par ps 1).toInt })) [] }

/-- The words of one capture (Table 2.12). -/
def captureWords (input : Nat) (k : Capture) : List Word :=
  pack [(k.seq % 65536, 16), (input, 1), (bit k.rise, 0)] :: stampWords k.time

/-- TIME.READ_EVENTS (R93, R94). -/
def timeReadEventsSpec : CmdSpec :=
  { opcode := 0x0806, onActive := true, onStandby := false, onSup := false, mirrored := false, inMaint := false,
    inCul := false, needsSup := false, lenOk := lenIs 1, rsvdOk := fun ps => zeroBits ps 0 31 16 && zeroBits ps 0 7 3,
    absent := neverAbsent, rangeErr := fun _ ps _ => rangeIf (decide (field (par ps 0) 15 8 > 64)), judge := neverJudge,
    apply := fun c ps s =>
      let n := field (par ps 0) 2 0
      let q := vget (s.eng c.eng).time.evtIn evtInReset n
      let took := q.queue.take (field (par ps 0) 15 8)
      let left := q.queue.drop (field (par ps 0) 15 8)
      let told := match took.getLast? with
        | some k => some k.seq
        | none => q.delivered
      .now (s.modEng c.eng (modEvtIn n fun r => { r with queue := left, delivered := told }))
        (pack [(took.length, 8), (left.length, 0)] :: took.flatMap (captureWords n)) }

/-- The end of a scheduled entry: its time, or its time plus WIDTH_NS for a pulse (R95). -/
def edgeEnd (k : EdgeEntry) : Nat := if k.action = 2 then k.at_ + k.widthNs * ns16 else k.at_

/-- TIME.SCHED_EDGE (R95, Table 2.15). The first entry of an output after reset has the number 1 (DESIGN CHOICE, log 124). -/
def timeSchedEdgeSpec : CmdSpec :=
  { opcode := 0x0807, onActive := true, onStandby := false, onSup := false, mirrored := true, inMaint := false,
    inCul := false, needsSup := false, lenOk := lenIs 6,
    rsvdOk := fun ps => zeroBits ps 0 31 10 && zeroBits ps 0 7 3 && !badQual ps 2
      && (decide (field (par ps 0) 9 8 ≥ 2) || (par ps 1).toNat == 0),
    absent := neverAbsent,
    rangeErr := fun c ps s =>
      let x := (s.eng c.eng).time
      let act := field (par ps 0) 9 8
      let wd := (par ps 1).toNat
      let t := parTime ps 2
      let early := match (vget x.evtOut evtOutReset (field (par ps 0) 2 0)).prevEnd with
        | some p => decide (t < p + 8 * ns16)
        | none => false
      rangeIf (act == 3 || (act == 2 && (decide (wd < 8) || decide (wd > 1000000000))) || badNsec ps 2
        || decide (t ≤ x.now16) || decide (t > x.now16 + s16) || early),
    judge := fun c ps s =>
      statusIf (decide ((vget (s.eng c.eng).time.evtOut evtOutReset (field (par ps 0) 2 0)).sched.length ≥ 16)) .busy,
    apply := fun c ps s =>
      let n := field (par ps 0) 2 0
      let q := vget (s.eng c.eng).time.evtOut evtOutReset n
      let sq := (q.seq + 1) % 65536
      let k : EdgeEntry := { seq := sq, action := field (par ps 0) 9 8, widthNs := (par ps 1).toNat, at_ := parTime ps 2 }
      .now (s.modEng c.eng (modEvtOut n fun r => { r with sched := r.sched ++ [k], seq := sq, prevEnd := some (edgeEnd k) }))
        [pack [(sq, 16), (q.sched.length + 1, 0)]] }

/-! ## Events -/

/-- STEP_APPLY (R72, R74): J is added, the slew of r begins, the command replies. -/
def rowStepApply (e : EngId) (s : State) : Host.Outcome State Fault Refusal := onEngine e s (stepApply e)

/-- SLEW_COMPLETE (R72): the remainder has been spent at its rate, and SLEWING clears. -/
def execSlewComplete (e : EngId) (s : State) : Host.Outcome State Fault Refusal :=
  onEngine e s (endSlew e)

/-- TIME_NSEC_READ (R79). -/
def execTimeNsecRead (e : EngId) (l : LatchId) (s : State) : Host.Outcome State Fault Refusal :=
  onEngine e s fun s => s.modEng e (latchTime l)

/-- TC_2STEP_AGE (R89): the oldest entry of the two-step table has waited 1 s for its Follow_Up. -/
def execTc2stepAge (e : EngId) (s : State) : Host.Outcome State Fault Refusal :=
  onEngine e s fun s => s.modEng e fun x =>
    match x.time.twoStep with
    | [] => x
    | _ :: rest => ({ x with time := { x.time with twoStep := rest } } : Engine).bump 2

/-- The capture records an engine can deliver: the oldest of an input with DELIVER = 1, while the event ring
accepts it (R92, R94). -/
def deliverCapture (e : EngId) (n : Nat) (x : Engine) : Engine :=
  let q := vget x.time.evtIn evtInReset n
  match q.queue with
  | [] => x
  | k :: rest =>
    let rec_ : RingRec := { type := 0x02, body := captureWords n k }
    if q.deliver && x.core.role == 1 && (x.ring 2).waiting.isEmpty then
      let (ok, y) := takesRecord 2 (4 + rec_.body.length) x
      if ok then modEvtIn n (fun r => { r with queue := rest, delivered := some k.seq }) (writeRecord e 2 rec_ y) else y
    else x

/-- The level of the EDGE interrupt source (Table 15.16 bit 10). -/
def edgeIrqLevel (t : TimeState) : Bool := t.evtOvf != 0 || t.edgeLate != 0

/-- An edge that an input takes as accepted (R91, R92); the first one after reset has SEQ 1 (DESIGN CHOICE,
log 124). `at_` is its capture instant in the engine's TB count,
`stamp` the stamp. -/
def takeEdge (e : EngId) (n : Nat) (rise : Bool) (at_ : Nat) (stamp : Stamp) (x : Engine) : Engine :=
  let q := vget x.time.evtIn evtInReset n
  let sq := (q.seq + 1) % 65536
  let x1 := modEvtIn n (fun r => { r with seq := sq }) x
  let close := match q.last with
    | some l => decide (at_ < l + 8 * ns16)
    | none => false
  if close then x1.bump (4 + n)
  else if q.queue.length ≥ 64 then
    let t1 := { x1.time with evtOvf := x1.time.evtOvf ||| (1#8 <<< n) }
    Engine.edge ({ x1 with time := t1 }.bump (12 + n)) (edgeIrqLevel x.time) true 10
  else
    let x2 := if x.clk.fallback then x1.bump 0 else x1
    deliverCapture e n (modEvtIn n (fun r => { r with queue := r.queue ++ [{ seq := sq, rise := rise, time := stamp }], last := some at_ }) x2)

/-- The engine's TB count in units of 2^-16 ns, at a position within the cycle. -/
def tb16 (x : Engine) (interp : Nat) : Nat := x.time.tbCycles * cycle16 + interp

/-- The five temperatures of a set in 0.125 degrees. -/
def setTemps : List Int := [-320, 0, 200, 480, 800]

/-- The sum of the readings averaged, and how many there are: the last 16 (R389). -/
def Engine.tempSum (x : Engine) : Int × Nat := (x.cal.temps.foldl (fun a t => a + t) 0, x.cal.temps.length)

/-- Linear interpolation of a set between the two set temperatures on either side, or along the outermost segment. -/
def interpolate (k : Nat) (s : Int) (n : Nat) : Int :=
  let seg (i : Nat) : Int :=
    let t0 := setTemps.getD i 0
    let t1 := setTemps.getD (i + 1) 0
    let v0 : Int := Config.fusedDelay k i
    let v1 : Int := Config.fusedDelay k (i + 1)
    v0 + (v1 - v0) * (s - t0 * n) / ((t1 - t0) * n)
  if s < 0 * n then seg 0 else if s < 200 * n then seg 1 else if s < 480 * n then seg 2 else seg 3

/-- The delay that a set gives at the present die temperature, at 0 degrees before the first reading (R389). -/
def Engine.setDelay (x : Engine) (k : Nat) : Int :=
  let (s, n) := x.tempSum
  if n = 0 then Config.fusedDelay k 1 else interpolate k s n

/-- What stands between a capture and its edge at the pin: nothing while the input's set holds; with the set failed the default delay
takes its place, and the capture is off by the difference (R389, R391). The sets of event inputs are numbered from 640 on (log 19). -/
def Engine.captureSlip (x : Engine) (input : Nat) : Int :=
  if x.cal.badSets.contains (640 + input) then x.setDelay (640 + input) - Config.defaultDelay (640 + input) else 0

/-- EVTIN_EDGE (R91, R92, R94): an edge on an event input whose new level holds for `heldNs`. -/
def execEvtinEdge (e : EngId) (input : Fin 8) (rise : Bool) (heldNs after : Nat) (s : State) :
    Host.Outcome State Fault Refusal :=
  onEngine e s fun s0 =>
    let s := passAfter after s0
    s.modEng e fun x =>
      let q := x.time.evtIn[input]
      let wanted := q.edge == 3 || (q.edge == 1 && rise) || (q.edge == 2 && !rise)
      if x.running && wanted && (q.deglitch == 0 || decide (heldNs ≥ q.deglitch * 4)) then
        let t : Int := x.time.now16 + interpOf after - q.pinDelay + x.captureSlip input
        takeEdge e input.val rise (tb16 x (interpOf after)) { t := t.toNat, qual := x.qual 0 false } x
      else x

/-- EVTOUT_EDGE (R95-R97): the next edge of an output's schedule is due: the fall of a pulse, or the head entry.
The ball follows the owner's driver unless the aligner holds the outputs. A pulse leaves the schedule at its rise (DESIGN CHOICE,
log 125). -/
def execEvtoutEdge (e : EngId) (out : Fin 8) (s : State) : Host.Outcome State Fault Refusal :=
  onEngine e s fun s =>
    let q := (s.eng e).time.evtOut[out]
    let drive (lvl : Bool) (t : State) : State :=
      if t.power.steer = e ∧ t.power.alignerHolds = false ∧ t.power.alignerLow = false ∧ (t.eng e).core.role ≠ 4 then
        let m := 1#8 <<< out.val
        { t with power := { t.power with evtBalls := if lvl then t.power.evtBalls ||| m else t.power.evtBalls &&& ~~~m } }
      else t
    let degraded (t : State) : State := if (t.eng e).clk.fallback then t.modEng e fun x => x.bump (20 + out.val) else t
    match q.fall with
    | some f =>
      let s1 := passTo e f s
      drive false (degraded (s1.modEng e (modEvtOut out.val fun r => { r with level := false, fall := none })))
    | none =>
      match q.sched with
      | [] => s
      | k :: rest =>
        let s1 := passTo e k.at_ s
        let lvl := k.action != 0
        let fall := if k.action = 2 then some (edgeEnd k) else none
        let miss := k.action == 2 && s.power.alignerHolds
        drive lvl (degraded (s1.modEng e (modEvtOut out.val fun r =>
          { r with sched := rest, level := lvl, fall := fall, missed := r.missed || miss })))

/-- EVT_STATUS_CLEAR (Table 2.13): EDGE_LATE and EVT_OVF are W1C. -/
def execEvtStatusClear (e : EngId) (mask : Word) (s : State) : Host.Outcome State Fault Refusal :=
  onEngine e s fun s => s.modEng e fun x =>
    { x with time := { x.time with edgeLate := x.time.edgeLate &&& ~~~(BitVec.ofNat 8 (field mask 31 24)),
                                   evtOvf := x.time.evtOvf &&& ~~~(BitVec.ofNat 8 (field mask 15 8)) } }

end Sys2Proof.Machine
end

