-- ==== Sys2Proof/Machine/Ecc.lean ====
section
/-! DEFINITION. Errors of stored words: the buffer code and its scrubber, injected errors, and the scrubber of the tables
(R212-R216, R365, R372-R374, R393). -/

namespace Sys2Proof.Machine

/-! ## Reads (R212, R373) -/

/-- The pointer of the cell a word lies in; 0xF_FFFF for DRAM outside the frame store. -/
def pointerOf (w : Nat) : Nat := (cellOfWord w).getD 0xFFFFF

/-- A real report of a word, with INJ_MIXED where the word also holds an injected error. -/
def reportWord (kind cls : Nat) (mixed : Bool) (w : Nat) (x : Engine) : Engine :=
  report { source := 0x05, kind := BitVec.ofNat 8 kind, cls := BitVec.ofNat 3 cls, inj := false, conseq := false, injMixed := mixed,
           part := false, address := word (pointerOf w), seq := 0, act := true, tag := 0 } x

/-- A corrected word (R212). -/
def wordCorrected (mixed : Bool) (w : Nat) (x : Engine) : Engine :=
  reportWord 0x01 1 mixed w (x.bump (if w < arcadeWords then 69 else 70))

/-- ECC_LAST for a word (Table 7.7). -/
def eccWord (scrub : Bool) (w : Nat) : Word := pack [(if w < arcadeWords then 1 else 2, 30), (bit scrub, 29), (pointerOf w, 0)]

/-- The cell is occupied. -/
def Engine.occupied (x : Engine) (c : Nat) : Bool := x.buf.frames.any fun e => e.2.cells.contains c

/-- A word of an occupied cell is uncorrectable from now on, and with it its cell poisoned; a free one is retired (R214, R215). -/
def poisonCell (w : Nat) (x : Engine) : Engine :=
  match cellOfWord w with
  | none => x
  | some c =>
    if x.occupied c then
      if x.buf.poisoned.contains w then x else x.modBuf fun b => { b with poisoned := b.poisoned ++ [w] }
    else retireCell c x

/-- An injected error poisons the cell of its word (Table 12.6); the word itself gets no poison bit. -/
def poisonInjected (w : Nat) (x : Engine) : Engine :=
  match cellOfWord w with
  | none => x
  | some c =>
    if x.occupied c then
      if x.buf.injPoisoned.contains c then x else x.modBuf fun b => { b with injPoisoned := b.injPoisoned ++ [c] }
    else retireCell c x

/-- An uncorrectable word (R212): reported, counted, noted in ECC_LAST, its cell poisoned. -/
def wordUncorrectable (scrub mixed : Bool) (w : Nat) (x : Engine) : Engine :=
  let y := (x.bump 71).modBuf fun b => { b with eccLast := eccWord scrub w }
  poisonCell w (reportWord 0x02 0 mixed w y)

/-- The weight of an injected pattern. -/
def patternWeight (p : BitVec 80) : Nat := ((List.range 80).map fun i => bit (p.getLsbD i)).sum

/-- The word number of an injection's address, those of the DRAM after those of the Arcade. -/
def eccNumber (k : EccEntry) : Nat := if k.dram then arcadeWords + k.word else k.word

/-- The read of a word with a written entry and no real error (Table 12.6): an injected report with the entry's tag; with
ACT a pattern of 3 bits poisons the cell. -/
def readEntry (scrub : Bool) (k : EccEntry) (x : Engine) : Engine :=
  let w := eccNumber k
  let heavy := patternWeight k.pattern == 3
  let y := report { source := 0x05, kind := if heavy then 0x02 else 0x01, cls := if heavy then 0 else 1, inj := true, conseq := false,
                    injMixed := false, part := false, address := word (pointerOf w), seq := 0, act := k.act, tag := k.tag } x
  if heavy && k.act then poisonInjected w ((y.bump 71).modBuf fun b => { b with eccLast := eccWord scrub w }) else y

/-- The written entry that a word holds. -/
def writtenEntry (x : Engine) (w : Nat) : Option EccEntry := x.fault.ecc.find? fun k => k.written && eccNumber k == w

/-- A word lies in one of a list of cells. -/
def wordIn (cs : List Nat) (w : Nat) : Bool := match cellOfWord w with
  | some c => cs.contains c
  | none => false

/-- The reads of cells that meet written entries, of words without a real error. -/
def readInjected (cs : List Nat) (flaws : List (Nat × WordOutcome)) (x : Engine) : Engine :=
  (x.fault.ecc.filter fun k => k.written && wordIn cs (eccNumber k) && !x.buf.poisoned.contains (eccNumber k)
    && !(flaws.any fun f => f.1 == eccNumber k)).foldl (fun y k => readEntry false k y) x

/-- Whether any cell of a list reads poisoned. -/
def Engine.poisonedAny (x : Engine) (cs : List Nat) : Bool := cs.any (poisonedCell x.buf)

/-- The words of a frame that a read finds in error, by their numbers: `flaws` count them from the frame's first word. -/
def frameWords (cs : List Nat) (flaws : List (Nat × WordOutcome)) : List (Nat × WordOutcome) :=
  flaws.filterMap fun k => cs[k.1 / cellWords]?.map fun c => (c * cellWords + k.1 % cellWords, k.2)

/-- A word that a read finds in error (R212, R373). -/
def readFlaw (k : Nat × WordOutcome) (x : Engine) : Engine :=
  let inj := writtenEntry x k.1
  match k.2 with
  | .clean => match inj with
    | some e => readEntry false e x
    | none => x
  | .threeBits => wordUncorrectable false inj.isSome k.1 x
  | _ => wordCorrected inj.isSome k.1 x

/-- The words of a list of cells that stand uncorrectable or poisoned read again (R212, Table 12.6). -/
def readPoison (cs : List Nat) (x : Engine) : Engine :=
  (x.buf.poisoned.filter (wordIn cs)).foldl (fun y w => wordUncorrectable false (writtenEntry y w).isSome w y) x

/-- Cells read (R212): what stands poisoned in them, the injected errors and the real ones that the read meets. -/
def readCells (cs : List Nat) (flaws : List (Nat × WordOutcome)) (x : Engine) : Engine :=
  let here := flaws.filter fun k => wordIn cs k.1 && !x.buf.poisoned.contains k.1
  here.foldl (fun y k => readFlaw k y) (readPoison cs (readInjected cs here x))

/-! ## Writes (R372) -/

/-- The words that a frame of `n` bytes, FCS included, writes to its cells. -/
def writesWord (cs : List Nat) (n w : Nat) : Bool :=
  match cs.findIdx? fun c => c == w / cellWords with
  | none => false
  | some i => decide ((i * cellWords + w % cellWords) * 8 < n)

/-- A frame written to its cells: written entries of those words are released, armed ones take effect. -/
def writeInjected (cs : List Nat) (n : Nat) (x : Engine) : Engine :=
  let hit (k : EccEntry) : Bool := writesWord cs n (eccNumber k)
  let kept := x.fault.ecc.filter fun k => !(k.written && hit k)
  let l := kept.map fun k => if hit k then { k with written := true } else k
  { x with fault := { x.fault with ecc := l } }

/-! ## The buffer scrubber -/

/-- The corrections of a word in consecutive scrub passes (R215). -/
def countWeak (w n : Nat) (x : Engine) : Engine := x.modBuf fun b => { b with weak := put 0 w n b.weak }

/-- A word lies in a cell under test: a retired one, while a repair pass runs (R392). -/
def Engine.underTest (x : Engine) (w : Nat) : Bool := x.cal.repairing && wordIn x.buf.retired w

/-- A word read by the scrubber (R214, R373). A word with a written entry is neither corrected nor rewritten; one that stands
uncorrectable, or holds its poison bit, is uncorrectable again. A word corrected in three passes running stays due for retirement until
its cell is free (log 24). -/
def scrubWord (w : Nat) (outcome : WordOutcome) (x : Engine) : Engine :=
  if x.buf.poisoned.contains w then wordUncorrectable true (writtenEntry x w).isSome w x
  else match writtenEntry x w, outcome with
  | some k, .clean => readEntry true k x
  | some _, .threeBits => wordUncorrectable true true w x
  | some _, _ => wordCorrected true w x
  | none, .clean => if look 0 w x.buf.weak ≥ 3 then x else countWeak w 0 x
  | none, .threeBits => wordUncorrectable true false w x
  | none, _ =>
    let n := look 0 w x.buf.weak + 1
    let y := countWeak w n (wordCorrected false w x)
    match cellOfWord w with
    | none => y
    | some c => if n ≥ 3 ∧ y.occupied c = false then retireCell c y else y

/-- BUFFER_SCRUB (R214-R216). A cell under test is skipped (R392). `late` says that this access ends the grace of a pass (SCRUB_LATE). -/
def execBufferScrub (e : EngId) (store : Store) (wordNo : Nat) (outcome : WordOutcome) (late : Bool) (s : State) :
    Host.Outcome State Fault Refusal :=
  onEngine e s fun s => s.modEng e fun x0 =>
    let x := if late then x0.bump 68 else x0
    match store with
    | .arcade => if decide (wordNo < arcadeWords) && !x.underTest wordNo then scrubWord wordNo outcome x else x
    | .dram => if underpassPart s.part && decide (wordNo < 134217728) && !x.underTest (arcadeWords + wordNo) then scrubWord (arcadeWords + wordNo) outcome x else x
    | .descriptors => if outcome = .threeBits then x.raise 0x05 0x07 3 (word wordNo) else x

/-! ## The table scrubber (R365, R393) -/

/-- TABLE of a table (Table 12.10). -/
def tableCode : TableId → Nat
  | .am => 1
  | .profiles => 2
  | .parse => 3
  | .forwarding => 4
  | .indirection => 5
  | .rewrite => 6
  | .meter => 7
  | .mirror => 8
  | .multicast => 9

/-- The forwarding entry that an index means: the one at that place in the order of VID and address (log 25). -/
def fdbAt (x : Engine) (i : Nat) : Option (Nat × FdbEntry) := x.rules.fdb[i]?

/-- An entry made invalid: absent until software writes it again. -/
def voidEntry (t : TableId) (i : Nat) (x : Engine) : Engine :=
  let r := x.rules
  let void (g : RuleState) : Engine := { x with rules := g }
  let noEntry (b : AmBank) : AmBank := { b with entries := eraseAt (i % 8192) b.entries }
  let noProfile (b : AmBank) : AmBank := { b with profiles := eraseAt (i % 256) b.profiles }
  match t with
  | .am => void (r.modBank (decide (i ≥ 8192)) noEntry)
  | .profiles => void (r.modBank (decide (i ≥ 256)) noProfile)
  | .parse => { x with parser := { x.parser with graph := eraseAt i x.parser.graph } }
  | .forwarding => void { r with fdb := match fdbAt x i with
      | some q => eraseAt q.1 r.fdb
      | none => r.fdb }
  | .indirection => void { r with indirect := eraseAt i r.indirect }
  | .rewrite => void { r with rewrites := eraseAt i r.rewrites }
  | .meter => void { r with meters := eraseAt i r.meters, voided := r.voided.filter (· ≠ (7, i)) ++ [(7, i)] }
  | .mirror => void { r with mirrors := eraseAt i r.mirrors, voided := r.voided.filter (· ≠ (8, i)) ++ [(8, i)] }
  | .multicast => void { r with mcast := eraseAt i r.mcast }

/-- An associative-memory entry whose word is uncorrectable a second time within 24 h is marked for repair (R393). -/
def markAm (i : Nat) (x : Engine) : Engine :=
  let now := x.time.now16
  let again := match findAt i x.cal.amSeen with
    | some t => decide (now < t + 86400 * s16)
    | none => false
  let marked := if again && !x.cal.marked.contains i then x.cal.marked ++ [i] else x.cal.marked
  { x with cal := { x.cal with amSeen := insertAt i now x.cal.amSeen, marked := marked } }

/-- A table word that cannot be corrected (R365). -/
def tableUncorrectable (part : Part) (t : TableId) (i : Nat) (x : Engine) : Engine :=
  let y : Engine := { x with fault := { x.fault with tableBad := BitVec.ofNat 4 (tableCode t), tableBadIndex := BitVec.ofNat 28 i } }
  let z := if t = .am then markAm i y else y
  let dynamic := t == .forwarding && (match fdbAt x i with
    | some q => !q.2.static
    | none => false)
  if dynamic then (voidEntry t i z).raise 0x03 0x02 1 0
  else if underpassPart part then z.raise 0x03 0x02 1 0
  else (voidEntry t i z).raise 0x03 0x02 2 0

/-- TABLE_SCRUB (R365). -/
def execTableScrub (e : EngId) (table : TableId) (index : Nat) (corrected : Bool) (s : State) : Host.Outcome State Fault Refusal :=
  onEngine e s fun s => s.modEng e fun x =>
    if corrected then x.raise 0x03 0x01 1 0 else tableUncorrectable s.part table index x

end Sys2Proof.Machine
end

