-- ==== Sys2Proof/Machine/Rewrite.lean ====
section
/-! DEFINITION. What the egress MAC changes in a frame's bytes: rewrite templates (R159), redundancy trailers and tags
(R259), and the correctionField with its checksums (R88). -/

namespace Sys2Proof.Machine

/-- Bytes on their way out and the headers recorded in them, as kind and offset; the HSR tag of the frame stands among them under
`hsrMark`. -/
structure Edit where
  bytes : List Byte
  hdrs : List (Nat × Nat)
deriving DecidableEq, Repr

/-- Offsets from `at_` on moved by `d`. -/
def shiftHdrs (at_ : Nat) (d : Int) (hs : List (Nat × Nat)) : List (Nat × Nat) :=
  hs.map fun (k, o) => if o ≥ at_ then (k, ((o : Int) + d).toNat) else (k, o)

/-- Bytes inserted before an offset. -/
def insertBytes (bs : List Byte) (off : Nat) (new : List Byte) : List Byte := bs.take off ++ new ++ bs.drop off

/-- A 16-bit value written at an offset. -/
def putHalf (bs : List Byte) (off v : Nat) : List Byte := spliceBytes bs off (beBytes 2 v)

/-- The one's complement sum of two 16-bit values. -/
def ocAdd (a b : Nat) : Nat := (a + b) % 65536 + (a + b) / 65536

/-- A checksum updated for a 16-bit word that changes from `old` to `new` (incremental update). -/
def ocUpdate (sum old new : Nat) : Nat := 65535 - ocAdd (ocAdd (65535 - sum) (65535 - old)) new

/-- A checksum updated for the `n` 16-bit words from an offset on that differ between two byte lists. -/
def ocUpdates (sum : Nat) (a b : List Byte) (off n : Nat) : Nat :=
  (List.range n).foldl (fun c i => ocUpdate c (half a (off + 2 * i)) (half b (off + 2 * i))) sum

/-- The mark under which a frame's HSR header stands in an edit: no header kind has it (Table 4.3). -/
def hsrMark : Nat := 256

/-- The headers that a template works on (R159, log 136): the outer kinds, or the inner ones where a pass recorded no outer Ethernet,
VLAN or IP header first, as after a decapsulation. What is added to a kind of Table 4.3. -/
def kindShift (hs : List (Nat × Nat)) : Nat :=
  match hs.find? fun h => h.1 == 1 || h.1 == 2 || h.1 == 5 || h.1 == 6 || (decide (11 ≤ h.1) && decide (h.1 ≤ 14)) with
  | some (k, _) => if k ≥ 11 then 1 else 0
  | none => 0

/-- The kind of Ethernet header a template works on. -/
def ethKind (hs : List (Nat × Nat)) : Nat := if kindShift hs = 1 then 11 else 1
/-- The kind of VLAN tag a template works on. -/
def vlanKind (hs : List (Nat × Nat)) : Nat := if kindShift hs = 1 then 12 else 2

/-- The IP header a template works on: its version and offset. -/
def ipHdr (hs : List (Nat × Nat)) : Option (Nat × Nat) :=
  let (v4, v6) := if kindShift hs = 1 then (13, 14) else (5, 6)
  (hs.find? fun h => h.1 == v4 || h.1 == v6).map fun h => (if h.1 = v4 then 4 else 6, h.2)

/-! ## Rewrite templates (R159) -/

/-- The operations of a template, bit 7 POP_VLAN down to bit 0 DEC_TTL. -/
def templateOp (t : List Word) (i : Nat) : Bool := flag (par t 0) (24 + i)

/-- The template stands under a number; one never written has no operation (log 3). -/
def templateOf (x : Engine) (i : Nat) : List Word := look [0, 0, 0, 0] i x.rules.rewrites

/-- DEC_TTL meets a TTL or hop limit of 0 or 1: the frame is not sent (R159). -/
def ttlExpires (t : List Word) (e : Edit) : Bool :=
  templateOp t 0 && match ipHdr e.hdrs with
    | some (4, o) => byteAt e.bytes (o + 8) ≤ 1
    | some (_, o) => byteAt e.bytes (o + 7) ≤ 1
    | none => false

/-- A byte of an IPv4 header changed, its checksum updated incrementally. -/
def putV4 (bs : List Byte) (o i v : Nat) : List Byte :=
  let b1 := spliceBytes bs (o + i) (beBytes 1 v)
  let w := (o + i) - (o + i - o) % 2
  putHalf b1 (o + 10) (ocUpdate (half bs (o + 10)) (half bs w) (half b1 w))

/-- One operation of a template: the edit after it, or none where it is skipped. -/
def templateStep (t : List Word) (i : Nat) (e : Edit) : Option Edit :=
  let w0 := par t 0
  let vk := vlanKind e.hdrs
  let ek := ethKind e.hdrs
  let vlan := hdrOff vk e.hdrs
  let eth := hdrOff ek e.hdrs
  match i with
  | 7 =>
    match vlan with
    | some o =>
      let gone := (e.hdrs.findIdx? fun h => h.1 == vk && h.2 == o).getD 0
      some { bytes := e.bytes.take (o - 2) ++ e.bytes.drop (o + 2), hdrs := shiftHdrs (o + 1) (-4) (e.hdrs.eraseIdx gone) }
    | none => none
  | 6 =>
    match eth with
    | some o =>
      let tci := field w0 22 20 * 8192 + field w0 19 8
      let tpid := if flag w0 23 then 0x88A8 else 0x8100
      let hs := shiftHdrs (o + 12) 4 e.hdrs
      let at_ := (hs.findIdx? fun h => h.1 == ek).getD 0 + 1
      some { bytes := insertBytes e.bytes (o + 12) (beBytes 2 tpid ++ beBytes 2 tci),
             hdrs := hs.take at_ ++ [(vk, o + 14)] ++ hs.drop at_ }
    | none => none
  | 5 => vlan.map fun o => { e with bytes := putHalf e.bytes o (half e.bytes o / 4096 * 4096 + field w0 19 8) }
  | 4 => vlan.map fun o => { e with bytes := putHalf e.bytes o (field w0 22 20 * 8192 + half e.bytes o % 8192) }
  | 3 => eth.map fun o => { e with bytes := spliceBytes e.bytes o (beBytes 6 (field (par t 1) 31 16 * 2 ^ 32 + (par t 2).toNat)) }
  | 2 => eth.map fun o => { e with bytes := spliceBytes e.bytes (o + 6) (beBytes 6 (field (par t 1) 15 0 * 2 ^ 32 + (par t 3).toNat)) }
  | 1 =>
    match ipHdr e.hdrs with
    | some (4, o) => some { e with bytes := putV4 e.bytes o 1 (field w0 5 0 * 4 + byteAt e.bytes (o + 1) % 4) }
    | some (_, o) =>
      let v := half e.bytes o
      some { e with bytes := putHalf e.bytes o (v / 4096 * 4096 + field w0 5 0 * 64 + v % 64) }
    | none => none
  | _ =>
    match ipHdr e.hdrs with
    | some (4, o) => some { e with bytes := putV4 e.bytes o 8 (byteAt e.bytes (o + 8) - 1) }
    | some (_, o) => some { e with bytes := spliceBytes e.bytes (o + 7) (beBytes 1 (byteAt e.bytes (o + 7) - 1)) }
    | none => none

/-- A template applied in the order of R159, and how many operations were skipped. -/
def applyTemplate (t : List Word) (e : Edit) : Edit × Nat :=
  [7, 6, 5, 4, 3, 2, 1, 0].foldl (fun (q : Edit × Nat) i =>
    if templateOp t i then
      match templateStep t i q.1 with
      | some e1 => (e1, q.2)
      | none => (q.1, q.2 + 1)
    else q) (e, 0)

/-! ## Redundancy (R259) -/

/-- A frame's bytes padded to 60. -/
def pad60 (bs : List Byte) : List Byte := bs ++ List.replicate (60 - bs.length) 0

/-- The PRP trailer: sequence number, LAN, LSDU size, suffix. -/
def prpAdd (seq : Nat) (lanB : Bool) (bs : List Byte) : List Byte :=
  let b := pad60 bs
  b ++ beBytes 2 seq ++ beBytes 2 ((if lanB then 0xB else 0xA) * 4096 + (b.length + 6 - 14)) ++ beBytes 2 0x88FB

/-- The LAN identifier of a valid trailer rewritten. -/
def prpRelan (lanB : Bool) (bs : List Byte) : List Byte :=
  let o := bs.length - 4
  putHalf bs o ((if lanB then 0xB else 0xA) * 4096 + half bs o % 4096)

/-- The HSR tag after the source address: EtherType, path, LSDU size, sequence number. -/
def hsrAdd (seq : Nat) (pathB : Bool) (bs : List Byte) : List Byte :=
  insertBytes bs 12 (beBytes 2 0x892F ++ beBytes 2 (bit pathB * 4096 + (bs.length + 6 - 14)) ++ beBytes 2 seq)

/-- The path of an HSR tag rewritten; `o` is where its header stands, after its EtherType. -/
def hsrRepath (o : Nat) (pathB : Bool) (bs : List Byte) : List Byte := putHalf bs o (bit pathB * 4096 + half bs o % 4096)

/-- An HSR tag taken off. -/
def hsrStrip (o : Nat) (bs : List Byte) : List Byte := bs.take (o - 2) ++ bs.drop (o + 4)

/-- A PRP trailer taken off. -/
def prpStrip (bs : List Byte) : List Byte := bs.take (bs.length - 6)

/-! ## PTP headers -/

/-- messageType of the PTP header at an offset. -/
def ptpType (bs : List Byte) (o : Nat) : Nat := byteAt bs o % 16
/-- majorSdoId. -/
def ptpMajorSdo (bs : List Byte) (o : Nat) : Nat := byteAt bs o / 16
/-- versionPTP, major. -/
def ptpVersion (bs : List Byte) (o : Nat) : Nat := byteAt bs (o + 1) % 16
/-- domainNumber. -/
def ptpDomain (bs : List Byte) (o : Nat) : Nat := byteAt bs (o + 4)
/-- twoStepFlag. -/
def ptpTwoStep (bs : List Byte) (o : Nat) : Bool := byteAt bs (o + 6) / 2 % 2 == 1
/-- correctionField, as an unsigned number of 64 bits. -/
def ptpCorr (bs : List Byte) (o : Nat) : Nat := bytesAt bs (o + 8) 8
/-- correctionField, signed, in 2^-16 ns. -/
def ptpCorrI (bs : List Byte) (o : Nat) : Int := (BitVec.ofNat 64 (ptpCorr bs o)).toInt
/-- sourcePortIdentity. -/
def ptpSource (bs : List Byte) (o : Nat) : BitVec 80 := BitVec.ofNat 80 (bytesAt bs (o + 20) 10)
/-- sequenceId. -/
def ptpSeq (bs : List Byte) (o : Nat) : Nat := half bs (o + 30)

/-- A value added to the correctionField, the UDP checksum updated: over IPv4 a zero checksum stays zero (R88). -/
def addCorr (v : Int) (o : Nat) (e : Edit) : Edit :=
  let b1 := spliceBytes e.bytes (o + 8) (beBytes 8 ((BitVec.ofNat 64 (ptpCorr e.bytes o) + BitVec.ofInt 64 v).toNat))
  let before := e.hdrs.takeWhile fun h => h.1 != 17
  match (before.filter fun h => h.1 == 8 || h.1 == 16).getLast? with
  | none => { e with bytes := b1 }
  | some (_, u) =>
    let v6 := match (before.filter fun h => h.1 == 5 || h.1 == 6 || h.1 == 13 || h.1 == 14).getLast? with
      | some (k, _) => k == 6 || k == 14
      | none => false
    let c := half e.bytes (u + 6)
    if c = 0 ∧ v6 = false then { e with bytes := b1 }
    else
      let pad := (o + 8 - u) % 2
      let n := ocUpdates c (e.bytes) b1 (o + 8 - pad) (4 + pad)
      { e with bytes := putHalf b1 (u + 6) (if n = 0 then 65535 else n) }

end Sys2Proof.Machine
end

