-- ==== Sys2Proof/Machine/Stamps.lean ====
section
/-! DEFINITION. The delays a stamp is referred by, its qualifier, and frame stamps (R81-R86, R253, R385-R391). -/

namespace Sys2Proof.Machine

/-! ## Calibration paths and die temperature -/

/-- A calibration path of an engine; kinds 0 to 6 (R382). -/
def Engine.path (x : Engine) (kind idx : Nat) : CalPath := look calPathReset (64 * kind + idx) x.cal.paths

/-- A calibration path changed. -/
def Engine.modPath (x : Engine) (kind idx : Nat) (f : CalPath → CalPath) : Engine :=
  { x with cal := { x.cal with paths := put calPathReset (64 * kind + idx) (f (x.path kind idx)) x.cal.paths } }

/-- The die temperature in 0.125 degrees; 0 before the first reading (Table 13.4). -/
def Engine.dieTemp (x : Engine) : Int :=
  let (s, n) := x.tempSum
  if n = 0 then 0 else s / n

/-- The present quality figure of kinds 1 to 6, in 0.01 ps (R388): 2 ps a degree and 0.5 ps a minute. -/
def Engine.quality (x : Engine) (kind idx : Nat) : Nat :=
  let k := x.path kind idx
  if kind = 0 then k.q
  else k.q + 25 * (x.dieTemp - k.tLast).natAbs + 50 * (x.time.tbCycles - k.at_) / 30000000000

/-! ## Timing sets (R389, R391) -/

/-- The coding of a mode (Table 13.2). -/
def codingOf (mode : Nat) : Nat := if mode ≤ 2 then 0 else mode - 2

/-- The number of a timing set: lane, coding and direction, 0 for receive. -/
def setKey (lane coding dir : Nat) : Nat := 18 * lane + 2 * coding + dir

/-- A direction of a lane uses defaults (R389, R391). -/
def Engine.defaulted (x : Engine) (lane coding dir : Nat) : Bool :=
  let (s, n) := x.tempSum
  x.cal.badSets.contains (setKey lane coding dir) || decide (s < -360 * n) || decide (s > 920 * n)

/-- The offset set of a Fofaene lane has failed: that lane's default offset stands in its place, and SYNC cannot leave SYNCING (R391).
The records of Fofaene lanes are numbered from 660 on (log 19). -/
def Engine.fofDefault (x : Engine) (lane : Nat) : Bool := x.cal.badSets.contains (660 + lane)

/-- RX_PHY or TX_PHY of a lane for a coding, 2^-16 ns, with what the trim cannot reach (R385, R389). -/
def Engine.phy (x : Engine) (lane coding dir : Nat) : Int :=
  let k := setKey lane coding dir
  let base : Int := if x.defaulted lane coding dir then Config.defaultDelay k else x.setDelay k
  base + (x.path (1 + dir) lane).sat * 65536 / 100000

/-- A path's trim starts from the one found for a coding, where one was (R455). -/
def startTrim (coding : Nat) (k : CalPath) : CalPath :=
  match k.trims.find? fun t => t.1 == coding with
  | some t =>
    let goal := max (-511) (min 511 t.2)
    { k with trim := goal, target := t.2, sat := (goal - t.2) * 25 }
  | none => k

/-- A port has entered a mode: the trims of its lanes start from those of that mode's coding (R455). -/
def enterCoding (p : Nat) (x : Engine) : Engine :=
  let c := codingOf (x.port p).modeNow
  let lanes := if p ≥ 32 then [] else if groupedMode (x.port p).modeNow then [p, p + 1, p + 2, p + 3] else [p]
  lanes.foldl (fun y l => (y.modPath 1 l (startTrim c)).modPath 2 l (startTrim c)) x

/-- The stamps of a lane and direction carry TS_UNCAL (R387). -/
def Engine.uncal (x : Engine) (lane coding dir : Nat) : Bool :=
  decide (x.quality (1 + dir) lane > 2500) || x.defaulted lane coding dir

/-- The delay that refers a stamp of a front port to the reference plane, 2^-16 ns: PHY and board of the port's lane,
L4g when grouped (R84, R85). A host port has none. -/
def Engine.delay (x : Engine) (p dir : Nat) : Int :=
  if p ≥ 32 then 0
  else x.phy p (codingOf (x.port p).modeNow) dir + x.time.board p dir

/-- The settled LEVEL of a port, coded as Table 2.7; 0 on host ports. -/
def Engine.level (x : Engine) (p : Nat) : Nat := if p ≥ 32 then 0 else (x.port p).ahnud.level

/-- The stamp of a port at a D1 position `interp` after the present cycle (R83, R84). -/
def Engine.portStamp (x : Engine) (p dir interp : Nat) : Stamp :=
  let d := x.delay p dir
  let t : Int := (x.time.now16 + interp : Nat) + if dir = 0 then -d else d
  { t := t.toNat, qual := x.qual (x.level p) (decide (p < 32) && x.uncal p (codingOf (x.port p).modeNow) dir) }

/-! ## The launch grid (R253, Table 8.5) -/

/-- PERIOD of a mode in 2^-16 ns x 25: 0.64 ns is 41,943.04 units. -/
def gridPeriod25 (mode : Nat) : Nat :=
  match mode with
  | 9 => 1048576
  | 10 => 1048576
  | 8 => 2621440
  | 5 => 4194304
  | 6 => 4194304
  | 7 => 4194304
  | 4 => 10485760
  | 3 => 10485760
  | 1 => 26214400
  | 2 => 26214400
  | _ => 0

/-- The GRID code of a mode. -/
def gridCode (mode : Nat) : Nat :=
  match mode with
  | 9 => 1
  | 10 => 1
  | 8 => 2
  | 5 => 3
  | 6 => 3
  | 7 => 3
  | 4 => 4
  | 3 => 4
  | 1 => 5
  | 2 => 5
  | _ => 0

/-- A port has a grid: a front port that is up, with D1 on SYN-T and its phases pulled back (R253, R256, R315). -/
def Engine.hasGrid (x : Engine) (p : Nat) : Bool :=
  decide (p < 32) && (x.port p).up && !x.clk.fallback && !x.refs.pulling && gridCode (x.port p).modeNow != 0

/-- GRID_PHASE in 2^-16 ns x 25. -/
def Engine.gridPhase25 (x : Engine) (p : Nat) : Nat :=
  let per := gridPeriod25 (x.port p).modeNow
  if per = 0 then 0 else (x.delay p 1 * 25 % per).toNat

/-- The first grid point of a port at or after a time, in 2^-16 ns x 25. Every whole second is a boundary (R253). -/
def Engine.gridPoint25 (x : Engine) (p : Nat) (t : Nat) : Nat :=
  let per := gridPeriod25 (x.port p).modeNow
  let ph := x.gridPhase25 p
  if per = 0 then t * 25
  else
    let s := secOf t * s16 * 25
    let u := t * 25 - s
    if u ≤ ph then s + ph else s + ph + (u - ph + per - 1) / per * per

/-- The last grid point of a port at or before a time, in 2^-16 ns x 25. -/
def Engine.gridBefore25 (x : Engine) (p : Nat) (t : Nat) : Nat :=
  let per := gridPeriod25 (x.port p).modeNow
  let ph := x.gridPhase25 p
  if per = 0 then t * 25
  else
    let s := secOf t * s16 * 25
    let u := t * 25 - s
    if u < ph then s + ph - per else s + ph + (u - ph) / per * per

end Sys2Proof.Machine
end

