-- ==== Sys2Proof/Machine/NetOps.lean ====
section
/-! DEFINITION. Network time: slots and ports, asymmetry, the messages the engine originates, and what their launch
sets off (R266-R271, R280). -/

namespace Sys2Proof.Machine

/-! ## Slots and ports -/

/-- A slot of an engine. -/
def Engine.slot (x : Engine) (d : Nat) : Slot := vget x.net.slots (slotReset d) d
/-- A slot changed. -/
def Engine.modSlot (x : Engine) (d : Nat) (f : Slot → Slot) : Engine :=
  { x with net := { x.net with slots := vmodN x.net.slots d f } }
/-- A front port in a slot. -/
def Engine.ptp (x : Engine) (d p : Nat) : PtpPort := vget (vget x.net.ptp (Vector.replicate 32 (ptpPortReset 0)) d) (ptpPortReset p) p
/-- A front port in a slot changed. -/
def Engine.modPtp (x : Engine) (d p : Nat) (f : PtpPort → PtpPort) : Engine :=
  { x with net := { x.net with ptp := vmodN x.net.ptp d fun v => vmodN v p f } }
/-- What a front port keeps for network time. -/
def Engine.netPort (x : Engine) (p : Nat) : NetPort := vget x.net.ports netPortReset p
/-- The same changed. -/
def Engine.modNetPort (x : Engine) (p : Nat) (f : NetPort → NetPort) : Engine :=
  { x with net := { x.net with ports := vmodN x.net.ports p f } }

/-- Picoseconds in 2^-16 ns. -/
def ps16 (ps : Int) : Int := ps * 65536 / 1000

/-- ASYM_RX of a port in 2^-16 ns (R280). -/
def Engine.asymRx (x : Engine) (p : Nat) : Int :=
  let q := x.netPort p
  q.model + ps16 (q.fixedPs + q.trimPs)

/-- mpd_f of a slot: its mean path delay on a port averaged over the last 64 s (R279). -/
def Engine.mpdMean (x : Engine) (d p : Nat) : Option Int :=
  let l := (x.ptp d p).mpds
  if l.isEmpty then none else some ((l.foldl (fun a e => a + e.2) 0) / l.length)

/-- ANCHOR of a slot on a port is valid: 64 s of samples have accrued since its window began (R279). -/
def Engine.anchored (x : Engine) (d p : Nat) : Bool :=
  let q := x.ptp d p
  x.level p == 4 && !q.anchors.isEmpty && decide (q.since + 64 * s16 ≤ x.time.now16)

/-- ANCHOR of a slot on a port: the mean of a over the last 64 s. -/
def Engine.anchorMean (x : Engine) (d p : Nat) : Int :=
  let l := (x.ptp d p).anchors
  if l.isEmpty then 0 else (l.foldl (fun a e => a + e.2) 0) / l.length

/-- A port's state in both slots changed. -/
def Engine.modPtps (x : Engine) (p : Nat) (f : PtpPort → PtpPort) : Engine := (x.modPtp 0 p f).modPtp 1 p f

/-- ANCHOR of a port is invalid, and its window starts again (R279). -/
def Engine.dropAnchors (x : Engine) (p : Nat) : Engine := x.modPtps p fun q => { q with since := x.time.now16, anchors := [] }

/-- mpd_f of a port (R280): that of the steering slot, or of the other where that slot has none there. -/
def Engine.portMpd (x : Engine) (p : Nat) : Option Int := (x.mpdMean x.net.steer p).or (x.mpdMean (1 - x.net.steer) p)

/-- The SLAVE port of a slot; 63 for none. -/
def Engine.slavePort (x : Engine) (d : Nat) : Nat := ((List.range 32).find? fun p => (x.ptp d p).state == 3).getD 63

/-- DELTA_d (R270): BUILD_OUT for the steering slot, the filtered offset for the other. -/
def Engine.delta (x : Engine) (d : Nat) : Int := if x.net.steer = d then (x.slot d).buildOut else (x.slot d).theta

/-- The enabled slot with a domainNumber and majorSdoId (R268). -/
def Engine.slotOf (x : Engine) (domain major : Nat) : Option Nat :=
  [0, 1].find? fun d => (x.slot d).enable && (x.slot d).domain == domain && (x.slot d).majorSdo == major

/-- The headers that led to a PTP header are those of PTP over Ethernet with at most one VLAN tag (R266); a redundancy tag is no VLAN
tag. -/
def plainPtp (hdrs : List (Nat × Nat)) : Bool :=
  let l := (hdrs.takeWhile fun h => h.1 != 17).map fun h => h.1
  (l.all fun k => [1, 2, 11, 12, 18].contains k) && (l.filter fun k => k == 1 || k == 11).length == 1
    && decide ((l.filter fun k => k == 2 || k == 12).length ≤ 1)

/-- The enabled slot that a received PTP frame belongs to: an engine-run one carries PTP over Ethernet only (R266). -/
def Engine.slotFor (x : Engine) (hdrs : List (Nat × Nat)) (domain major : Nat) : Option Nat :=
  (x.slotOf domain major).filter fun d => (x.slot d).hostRun || plainPtp hdrs

/-- A message of the peer delay mechanism. -/
def isPdelay (t : Nat) : Bool := t == 2 || t == 3 || t == 10

/-- The unwrap of a port's phase detector ends and starts afresh (R265). -/
def restartUnwrap (p : Nat) (x : Engine) : Engine :=
  if x.level p < 3 then x
  else ((x.bumpPort p 65).modNetPort p (fun n => { n with phi := 0 })).modPtps p fun q =>
    { q with since := x.time.now16, anchors := [] }

/-- A running TIME.CAL_ASYM whose condition has failed: it ends with ERR_STATE (R282). -/
def Engine.failCal (x : Engine) (b : Bool) : Engine :=
  if b then { x with net := { x.net with cal := x.net.cal.map fun k => { k with failed := true } } } else x

/-- The LEVEL of a front port is about to be `l`: away from A3 its anchor is invalid (R279), and below A2 a TIME.CAL_ASYM
that runs on it fails (R282). -/
def levelMoved (p l : Nat) (x : Engine) : Engine :=
  let y := if x.level p = 4 ∧ l ≠ 4 then x.dropAnchors p else x
  y.failCal (decide (l < 3) && (x.net.cal.map fun k => decide (k.port = p)) == some true)

/-! ## Frames the engine originates (R243, R269) -/

/-- The partner's wavelength noted and judged against the model's (R281). -/
def judgeWl (p wl : Nat) (x0 : Engine) : Engine :=
  let x := x0.modNetPort p fun n => { n with peerWl := wl }
  let q := x.netPort p
  let bad := wl != 0 && q.rxWl != 0 && (decide (wl > q.rxWl + 2) || decide (q.rxWl > wl + 2))
  let y := x.modNetPort p fun n => { n with wlMismatch := bad }
  if bad && !q.wlMismatch then y.raise 0x07 0x03 1 (word p) else y

/-- A frame the engine originates, put into a class queue of a port; it holds no cell. `slot` is the slot of a PTP message. -/
def Engine.sendOwn (x : Engine) (slot p cls : Nat) (stamp : Stamp) (hdrs : List (Nat × Nat)) (bytes : List Byte) : Engine :=
  let i := x.buf.nextFrame
  let f : Frame :=
    { ingress := 63, stamp := stamp, jumps := x.time.jumpSum, bytes := pad60 bytes, orig := pad60 bytes, hdrs := hdrs, pflags := 0,
      truncPtp := false, pp := portParseReset, pr := portRuleReset, epoch := x.rules.epoch, edge := false, hit0 := 0xFFFF, hit1 := 0xFFFF,
      cls := cls, acls := cls, dropElig := false, cells := [], under := false, pMin := 0, pHr := 0, pShared := 0, pRes := 0, pEg := [], round := 0,
      refs := 1, sample := none, trap := 0, red := none, bad := 0, multi := false, several := false,
      pass1 := false, noTag := false, seqs := [], phi := 0, slot := slot }
  let c : Copy :=
    { frame := i, port := p, queue := cls, cls := cls, launch := none, tag := none, rewrites := [], mirror := false, trap := 0,
      staged := false, held := false, enq := x.time.now16, charged := false, ring := false }
  let y := (x.modBuf fun b => { b with nextFrame := i + 1 }).putFrame i f
  y.setQueue p cls (y.queue p cls ++ [c])

/-- The 10 bytes of a PTP timestamp (R270): 48 bits of seconds, whole nanoseconds. -/
def ptpTime (t : Int) : List Byte :=
  let n := t.toNat
  beBytes 6 (secOf n % 2 ^ 48) ++ beBytes 4 (nsecOf n)

/-- The fraction of a time that goes into correctionField, in 2^-16 ns. -/
def ptpFrac (t : Int) : Nat := t.toNat % 65536

/-- The bytes of a PTP message of a slot on a port: Ethernet header with the slot's tagging, common header, body. Fields
that the manual does not give follow IEEE 1588-2019 (log 20). -/
def ptpMessage (x : Engine) (d p typ : Nat) (twoStep : Bool) (corr : Int) (seq ctl log : Nat) (body : List Byte) : List Byte :=
  let s := x.slot d
  let da := if s.daSel then 0x0180C200000E else 0x011B19000000
  let tag := if s.tagged then beBytes 2 0x8100 ++ beBytes 2 (s.pcp * 8192 + s.vid) else []
  let number := if p < 32 then (x.ptp d p).number else p + 1
  beBytes 6 da ++ beBytes 6 (x.port p).addr.toNat ++ tag ++ beBytes 2 0x88F7
    ++ [BitVec.ofNat 8 (s.majorSdo * 16 + typ), 0x12] ++ beBytes 2 (34 + body.length)
    ++ [BitVec.ofNat 8 s.domain, BitVec.ofNat 8 s.minorSdo] ++ beBytes 2 (bit twoStep * 512)
    ++ beBytes 8 (BitVec.ofInt 64 corr).toNat ++ beBytes 4 0 ++ beBytes 8 s.clockId.toNat ++ beBytes 2 number
    ++ beBytes 2 seq ++ [BitVec.ofNat 8 ctl, BitVec.ofNat 8 log] ++ body

/-- A PTP message sent in its slot's CLASS. `stamp` is kept for what is written at launch. -/
def Engine.sendPtp (x : Engine) (d p typ : Nat) (twoStep : Bool) (corr : Int) (seq ctl log : Nat) (stamp : Stamp) (body : List Byte) : Engine :=
  let s := x.slot d
  x.sendOwn d p s.cls stamp (if s.tagged then [(1, 0), (2, 14), (17, 18)] else [(1, 0), (17, 14)])
    (ptpMessage x d p typ twoStep corr seq ctl log body)

/-- The next sequenceId of a message type on a port (R269), and the engine with it used. -/
def Engine.nextSeq (x : Engine) (d p k : Nat) : Nat × Engine :=
  let n := (vget (x.ptp d p).seqs 0 k + 1) % 65536
  (n, x.modPtp d p fun q => { q with seqs := vmodN q.seqs k fun _ => n })

/-- A logarithmic interval as its byte. -/
def logByte (i : Int) : Nat := (BitVec.ofInt 8 i).toNat

/-- The time values written into an engine-originated PTP message at its launch (R270): originTimestamp of a one-step
Sync, the turnaround of a one-step Pdelay_Resp. -/
def ptpFill (x : Engine) (p : Nat) (f : Frame) (egress : Stamp) (e : Edit) : Edit :=
  match hdrOff 17 f.hdrs with
  | none => e
  | some o =>
    let bs := e.bytes
    let t : Int := egress.t - x.delta f.slot
    if ptpTwoStep bs o then e
    else if ptpType bs o = 0 then addCorr (ptpFrac t) o { e with bytes := spliceBytes bs (o + 34) (ptpTime t) }
    else if ptpType bs o = 3 then addCorr (egress.t - f.stamp.t) o e
    else e

/-- What the launch of an engine-originated PTP message of a slot sets off: its count (R270), the Follow_Up of a two-step message,
the egress stamp of a request (R273). -/
def ptpLaunched (d p : Nat) (bs : List Byte) (hdrs : List (Nat × Nat)) (egress : Stamp) (x0 : Engine) : Engine :=
  match hdrOff 17 hdrs with
  | none => x0
  | some o =>
    let x := x0.bumpPort p 63
    let t : Int := egress.t - x.delta d
    let seq := ptpSeq bs o
    match ptpType bs o with
    | 0 =>
      if ptpTwoStep bs o then x.sendPtp d p 8 false (ptpFrac t) seq 2 (logByte (x.slot d).logSync) stampZero (ptpTime t)
      else x
    | 1 => x.modPtp d p fun q => { q with req := some { seqId := seq, sent := some egress.t, delta := x.delta d, resp := none } }
    | 2 => x.modPtp d p fun q => { q with preq := some { seqId := seq, sent := some egress.t, delta := x.delta d, resp := none } }
    | 3 =>
      if ptpTwoStep bs o then
        x.sendPtp d p 10 false (ptpFrac t) seq 5 0x7F stampZero (ptpTime t ++ (bs.drop (o + 44)).take 10)
      else x
    | _ => x

end Sys2Proof.Machine
end

