-- ==== Sys2Proof/Machine/Egress.lean ====
section
/-! DEFINITION. Egress (chapter 8): gates, guard, shapers and the order of service; what is done to a frame as it leaves;
transmissions and how they end. -/

namespace Sys2Proof.Machine

/-! ## Gates (R247, R248, R250) -/

/-- The first instant from entry `i` of a cycle on at which a queue's gate closes, looking at most `fuel` changes
ahead. -/
def gclCloses (l : Gcl) (q : Nat) : Nat → Nat → Nat → Option Nat
  | 0, _, _ => none
  | fuel + 1, i, c =>
    let (t, j, c1) := gclNext l i c
    if (gclGates (par l.entries j)).getLsbD q then gclCloses l q fuel j c1 else some t

/-- The next closing of a class queue's gate (R249). -/
def Engine.nextClose (x : Engine) (p q : Nat) : Option Nat :=
  let g := x.eg p
  let own := match g.oper with
    | some l => gclCloses l q (l.entries.length + 1) g.entry g.cycleStart
    | none => none
  match g.commit with
  | none => own
  | some k =>
    let kept := match own with
      | some t => if t < k.ct then some t else none
      | none => none
    let fresh := match k.list with
      | some l => if (gclGates (par l.entries 0)).getLsbD q then gclCloses l q (l.entries.length + 1) 0 k.ct else some k.ct
      | none => none
    match kept with
    | some t => some t
    | none => fresh

/-! ## Shapers (R245) -/

/-- One bit of credit. -/
def creditBit : Int := 65536000000

/-- A shaper's credit after a time. -/
def Shaper.refill (dt : Nat) (h : Shaper) : Shaper :=
  if h.on then { h with credit := min (h.credit + (h.rate * dt : Nat)) (h.burst * 8 * creditBit) } else h

/-- A shaper charged with bytes. -/
def Shaper.charge (n : Nat) (h : Shaper) : Shaper := if h.on then { h with credit := h.credit - n * 8 * creditBit } else h

/-- The shapers of a port brought up to now. -/
def refillPort (p : Nat) (x : Engine) : Engine :=
  let dt := x.time.now16 - (x.eg p).creditAt
  x.modEgPort p fun g =>
    { g with creditAt := x.time.now16, shaper := g.shaper.refill dt,
             classes := g.classes.map fun k => { k with shaper := k.shaper.refill dt } }

/-! ## What a frame looks like on the wire -/

/-- A frame's bytes in the pass in force with its recorded headers, and its HSR header where they hold one. -/
def editOf (f : Frame) : Edit :=
  { bytes := f.bytes, hdrs := f.hdrs ++ (match f.red with
      | some r => r.off.toList.map fun o => (hsrMark, o)
      | none => []) }

/-- A frame as received, with the headers of the pass in force where they stand in it: what a pass strips is its front (R167). -/
def editWhole (f : Frame) : Edit :=
  { bytes := f.orig, hdrs := f.hdrs.map fun h => (h.1, h.2 + (f.orig.length - f.bytes.length)) }

/-- The bytes a copy would send before redundancy tags, its templates applied; and the operations skipped. A mirror copy
is the frame as received; a trap copy is the whole frame as received (R158), as is what goes on round a ring (R261). -/
def templated (x : Engine) (c : Copy) (f : Frame) : Edit × Nat :=
  if c.mirror || c.trap != 0 || c.ring then (editWhole f, 0)
  else c.rewrites.foldl (fun (q : Edit × Nat) i =>
    let (e, n) := applyTemplate (templateOf x i) q.1
    (e, q.2 + n)) (editOf f, 0)

/-- A template of the copy meets an expired TTL (R159). -/
def copyExpires (x : Engine) (c : Copy) (f : Frame) : Bool :=
  !c.mirror && c.trap == 0 &&
    (c.rewrites.foldl (fun (q : Edit × Bool) i =>
      ((applyTemplate (templateOf x i) q.1).1, q.2 || ttlExpires (templateOf x i) q.1))
      (editOf f, false)).2

/-- The enabled pair a port belongs to (R258). -/
def Engine.pairOf (x : Engine) (p : Nat) : Option Nat :=
  (List.range 8).find? fun r =>
    let k := vget x.egress.pairs { mode := 0, portA := 0, portB := 0, forgetMs := 0, seq := 0 } r
    k.mode != 0 && (k.portA == p || k.portB == p)

/-- A pair. -/
def Engine.pair (x : Engine) (r : Nat) : Pair := vget x.egress.pairs { mode := 0, portA := 0, portB := 0, forgetMs := 0, seq := 0 } r

/-- MAC control and Ahnud frames are never tagged (R259). -/
def neverTagged (x : Engine) (bs : List Byte) : Bool := half bs 12 == 0x8808 || half bs 12 == x.ports.etype.toNat

/-- The redundancy trailer or tag of a copy on its port (R259): added, rewritten or removed; a copy that goes on round an HSR ring keeps
its bytes (R261). `seq` is the number of the frame; the flag says that the LSDU size leaves no room. -/
def redTagged (x : Engine) (c : Copy) (f : Frame) (seq : Nat) (e : Edit) : List Byte × Bool :=
  let bs := e.bytes
  let tag := hdrOff hsrMark e.hdrs
  let bare := match tag with
    | some o => hsrStrip o bs
    | none => bs
  if c.ring then (bs, false)
  else match x.pairOf c.port with
  | none =>
    match f.red with
    | some r => (if r.hsr then bare else prpStrip bs, false)
    | none => (bs, false)
  | some r =>
    let k := x.pair r
    let b := k.portB == c.port
    if neverTagged x bs then (bs, false)
    else if k.mode = 1 then
      match f.red with
      | some t => if t.hsr then prpOr b bare else (prpRelan b bs, false)
      | none => prpOr b bs
    else
      match f.red with
      | some t =>
        if t.hsr then (match tag with
          | some o => (hsrRepath o b bs, false)
          | none => hsrOr b bs)
        else hsrOr b (prpStrip bs)
      | none => hsrOr b bs
where
  /-- A trailer added where the LSDU size fits. -/
  prpOr (b : Bool) (bs : List Byte) : List Byte × Bool :=
    if (pad60 bs).length + 6 - 14 > 4095 then (bs, true) else (prpAdd seq b bs, false)
  /-- A tag added where the LSDU size fits. -/
  hsrOr (b : Bool) (bs : List Byte) : List Byte × Bool :=
    if bs.length + 6 - 14 > 4095 then (bs, true) else (hsrAdd seq b bs, false)

/-- The bytes of a copy's frame, FCS included, for guard and shaper. -/
def outLen (x : Engine) (c : Copy) (f : Frame) : Nat :=
  let e := (templated x c f).1
  let bs := if c.mirror || c.trap != 0 then e.bytes else (redTagged x c f 0 e).1
  (pad60 bs).length + 4

/-! ## Guard and eligibility (R243, R249) -/

/-- The time that `n` bytes take on a port, in 2^-16 ns x 25, rounded up. -/
def Engine.wire25 (x : Engine) (p n : Nat) : Nat := if x.rate p = 0 then 0 else (n * 8 * 1000 * 65536 * 25 + x.rate p - 1) / x.rate p

/-- The earliest on-time grid point of the frames in a port's launch queues, in 2^-16 ns x 25 (R249). -/
def Engine.launchPoint (x : Engine) (p : Nat) : Option Nat :=
  let ts := ((x.queue p 8).take 1 ++ (x.queue p 9).take 1).filterMap fun c => c.launch
  match ts with
  | [] => none
  | t :: rest => let m := rest.foldl min t
                 some (if x.hasGrid p then x.gridPoint25 p m else m * 25)

/-- Both conditions of the guard for a length at an instant (2^-16 ns x 25). -/
def Engine.guardOk (x : Engine) (p q t25 n : Nat) : Bool :=
  (match x.nextClose p q with
   | some c => decide (t25 + x.wire25 p (n + 20) ≤ c * 25)
   | none => true)
  && (match x.launchPoint p with
      | some g => decide (t25 + x.wire25 p (n + 28) ≤ g)
      | none => true)

/-- Preemption is active on a port, and a class goes out on the preemptable MAC (R251). -/
def Engine.preemptable (x : Engine) (p q : Nat) : Bool :=
  let g := x.eg p
  decide (q < 8) && g.preempt.enable && g.preempt.state == 2 && g.preempt.classes.getLsbD q

/-- F: the least first fragment (R251). -/
def Engine.fragMin (x : Engine) (p : Nat) : Nat := ((x.eg p).preempt.addFrag + 1) * 64

/-- While a planned swap is prepared, no frame starts on a lane that would not end before SW_AT (R345). -/
def Engine.endsBeforeSwap (x : Engine) (p t25 n : Nat) : Bool :=
  match x.twin.swapAt with
  | none => true
  | some t => decide (p ≥ 32) || decide (t25 + x.wire25 p (n + 8) < t * 25)

/-- The guard for a frame of `n` bytes of a class queue. -/
def Engine.passes (x : Engine) (p q t25 n : Nat) : Bool :=
  x.guardOk p q t25 n
    || (x.preemptable p q && decide (n ≥ x.fragMin p + 64) && x.guardOk p q t25 (x.fragMin p))

/-- A class queue is paused by the partner (R224). -/
def Engine.paused (x : Engine) (p q : Nat) : Bool := bufReg.pausedQueue (x.fc p) (x.prios p q) q

/-- A spilled copy that is not in drain staging (R235). -/
def Engine.awaitsDrain (x : Engine) (c : Copy) : Bool :=
  !c.staged && (match x.frame c.frame with
    | some f => f.under
    | none => false)

/-- The receive ring can take a copy's record now (R436). -/
def Engine.hostRoom (x : Engine) (f : Frame) (bytes : List Byte) : Bool :=
  f.ingress == 63 || ringRoom (x.ring 7) (4 + 8 + (bytes.length + 4 + 3) / 4)

/-- A copy of a frame the engine originates. -/
def Engine.ownCopy (x : Engine) (c : Copy) : Bool :=
  match x.frame c.frame with
  | some f => f.ingress == 63
  | none => false

/-- The first copy of a list that a pause does not hold, and the others (R225). -/
def firstOwn (x : Engine) : List Copy → Option (Copy × List Copy)
  | [] => none
  | c :: rest => if x.ownCopy c then some (c, rest) else (firstOwn x rest).map fun (k, l) => (k, c :: l)

/-- The copy that a queue has to send, and the rest of it: its head; while the queue is paused, the first frame the engine itself
originates, which the pause does not hold (R225, R243). -/
def Engine.front (x : Engine) (p q : Nat) : Option (Copy × List Copy) :=
  match x.queue p q with
  | [] => none
  | c :: rest => if x.paused p q then firstOwn x (c :: rest) else some (c, rest)

/-- The copy that a class queue can send now: every condition of R243 but the guard, and its frame reassembled (R180). -/
def Engine.open_ (x : Engine) (p q : Nat) : Option (Copy × Frame) :=
  match x.front p q with
  | none => none
  | some (c, _) =>
    match x.frame c.frame with
    | none => none
    | some f =>
      let k := vget (x.eg p).classes schedReset q
      let free := (x.eg p).gates.getLsbD q && !x.awaitsDrain c && x.crossed c.frame
        && (!k.shaper.on || decide (k.shaper.credit ≥ 0)) && (!(x.eg p).shaper.on || decide ((x.eg p).shaper.credit ≥ 0))
        && (p != 32 || x.hostRoom f f.orig)
      if free then some (c, f) else none

/-- A queue is eligible (R243); with a preempted frame still to be finished, no other preemptable frame is. -/
def Engine.eligible (x : Engine) (p t25 q : Nat) : Bool :=
  match x.open_ p q with
  | none => false
  | some (c, f) =>
    let pre := x.preemptable p q
    let n := outLen x c f
    !(pre && ((x.eg p).cut.isSome || (x.eg p).hold)) && x.passes p q t25 n && x.endsBeforeSwap p t25 n

/-- Heads that the guard holds, each counted once (R249). -/
def countGuard (p t25 : Nat) (x : Engine) : Engine :=
  (List.range 8).foldl (fun y q =>
    match y.open_ p q with
    | some (c, f) =>
      if !c.held && !y.passes p q t25 (outLen y c f) then
        (y.setQueue p q ((y.queue p q).map fun k => if k = c then { k with held := true } else k)).bumpPort p 46
      else y
    | none => y) x

/-! ## Order of service (R243, R244) -/

/-- The DWRR group walked in descending order after the last served class: the class served and the deficits after. -/
def dwrrPick (elig : Nat → Bool) (quantum : Nat → Nat) : Nat → Nat → (Nat → Int) → Option (Nat × (Nat → Int))
  | 0, _, _ => none
  | fuel + 1, c, d =>
    let next := if c = 0 then 7 else c - 1
    if !elig c then dwrrPick elig quantum fuel next d
    else if d c ≤ 0 then dwrrPick elig quantum fuel next (fun k => if k = c then d c + quantum c else d k)
    else some (c, d)

/-- The most visits a DWRR choice can need: a deficit of at most 16,403 + 20 bytes below 0 with a quantum of 64. -/
def dwrrFuel : Nat := 8 * 600

/-- The class queue that is served next, with the scheduler's deficits as that choice leaves them. -/
def Engine.pickClass (x : Engine) (p t25 : Nat) : Option (Nat × Engine) :=
  let g := x.eg p
  let el := (List.range 8).map fun q => x.eligible p t25 q
  let elig (q : Nat) : Bool := el.getD q false
  let strict (q : Nat) : Bool := (vget g.classes schedReset q).strict
  match [7, 6, 5, 4, 3, 2, 1, 0].find? fun q => strict q && elig q with
  | some q => some (q, x)
  | none =>
    let group (q : Nat) : Bool := !strict q && elig q
    if (List.range 8).any group then
      match dwrrPick group (fun q => (vget g.classes schedReset q).quantum) dwrrFuel (if g.last = 0 then 7 else g.last - 1)
          (fun q => (vget g.classes schedReset q).deficit) with
      | none => none
      | some (q, d) =>
        some (q, x.modEgPort p fun g =>
          { g with last := q, classes := Vector.ofFn fun i => { g.classes[i] with deficit := d i.val } })
    else none

/-- The launch queue whose head has the earliest point, LQ0 first (R255), with the point. A queue whose head is still in the Underpass is
passed over (R235). -/
def Engine.launchHead (x : Engine) (p : Nat) : Option (Nat × Nat) :=
  let at_ (q : Nat) : Option Nat :=
    match x.queue p q with
    | [] => none
    | c :: _ => if x.awaitsDrain c then none else c.launch.map fun t => if x.hasGrid p then x.gridPoint25 p t else t * 25
  match at_ 8, at_ 9 with
  | some a, some b => if b < a then some (9, b) else some (8, a)
  | some a, none => some (8, a)
  | none, some b => some (9, b)
  | none, none => none

/-! ## Traps at egress -/

/-- H0's class queue takes a trap copy of a frame (R436): by out_ok of the lossy test, whatever its class, or by the port-down rules
while H0 is down. -/
def trapRoom (part : Part) (f : Frame) (x : Engine) : Bool :=
  if (x.port 32).up then outOk part x 32 f.cls f.cls f.dropElig false
  else (x.port 32).holding && decide ((x.egAcct 32 f.cls).occ + f.cells.length ≤ x.minEg 32 f.cls)

/-- A trap copy offered to H0's class queue (R436); a refusal counts in DROPS of ring 7, or in DOWN_DISCARD. -/
def offerTrap (part : Part) (i reason : Nat) (x : Engine) : Engine :=
  match x.frame i with
  | none => x
  | some f =>
    if trapRoom part f x then
      let c : Copy :=
        { frame := i, port := 32, queue := f.cls, cls := f.cls, launch := none, tag := none, rewrites := [], mirror := false,
          trap := reason, staged := false, held := false, enq := x.time.now16, charged := true, ring := false }
      let y := (x.putFrame i { f with refs := f.refs + 1, trap := reason }).modEg 32 f.cls fun a =>
        { a with occ := a.occ + f.cells.length, hrUse := a.hrUse + f.pHr }
      y.setQueue 32 f.cls (y.queue 32 f.cls ++ [c])
    else if (x.port 32).up then x.modRing 7 fun q => { q with drops := satN (2 ^ 32 - 1) (q.drops + 1) }
    else x.bumpPort 32 7

/-- The trap copies of a frame offered, a reason of 0 being none; the reason of the last one that its queue took, 0 for none. -/
def offerTraps (part : Part) (i : Nat) : List Nat → Engine → Nat × Engine
  | [], x => (0, x)
  | n :: rest, x =>
    let took := n != 0 && (match x.frame i with
      | some f => trapRoom part f x
      | none => false)
    let (m, y) := offerTraps part i rest (if n = 0 then x else offerTrap part i n x)
    (if m = 0 ∧ took = true then n else m, y)

/-! ## Transparent clock (R88, R89, R142, R283, R284) -/

/-- What the transparent clock does to a copy of a PTP frame: the edit, and the engine after. -/
def transparent (c : Copy) (f : Frame) (residence : Int) (e : Edit) (x : Engine) : Edit × Engine :=
  if c.mirror || c.trap != 0 || decide (f.ingress ≥ 32) || decide (c.port ≥ 32) then (e, x)
  else
    let mi := (x.netPort f.ingress).tcMode
    let mo := (x.netPort c.port).tcMode
    if mi = 0 ∨ mo = 0 then (e, x)
    else match hdrOff 17 e.hdrs with
      | none => (e, if f.truncPtp then x.bumpPort c.port 21 else x)
      | some o =>
        let bs := e.bytes
        let typ := ptpType bs o
        if (x.slotFor f.hdrs (ptpDomain bs o) (ptpMajorSdo bs o)).isSome then (e, x)
        else
          let peer := mi == 2 && mo == 2
          let mld := (x.netPort f.ingress).mld
          let extra : Int := if peer then (match mld with
            | some m => m + x.asymRx f.ingress
            | none => 0) else 0
          let lacks (y : Engine) : Engine := if peer && mld.isNone then y.bumpPort f.ingress 66 else y
          if typ = 0 then
            if ptpTwoStep bs o then
              let new : TwoStep := { domain := ptpDomain bs o, source := ptpSource bs o, seqId := ptpSeq bs o, port := c.port,
                                     residence := residence + extra }
              let full := decide (x.time.twoStep.length ≥ 256)
              let t := (if full then x.time.twoStep.drop 1 else x.time.twoStep) ++ [new]
              let y : Engine := { x with time := { x.time with twoStep := t } }
              (e, lacks (if full then y.bump 1 else y))
            else (addCorr (residence + extra) o e, lacks (x.bumpPort c.port 15))
          else if typ < 4 then
            if peer then (e, x) else (addCorr residence o e, x.bumpPort c.port 15)
          else if typ = 8 then
            match x.time.twoStep.find? fun k =>
                k.domain == ptpDomain bs o && k.source == ptpSource bs o && k.seqId == ptpSeq bs o && k.port == c.port with
            | none => (e, x.bump 3)
            | some k =>
              let y : Engine := { x with time := { x.time with twoStep := x.time.twoStep.filter fun j => decide (j ≠ k) } }
              (addCorr k.residence o e, y.bumpPort c.port 15)
          else (e, x)

/-! ## Sequence numbers of a pair (R260) -/

/-- The number a source's next frame takes on a pair, and the engine after: from the proxy table, or from the pair's
counter when the table is full. -/
def takeSeq (r src : Nat) (x : Engine) : Nat × Engine :=
  match x.egress.proxies.find? fun k => k.pair == r && k.src == src with
  | some k =>
    let n := (k.seq + 1) % 65536
    (n, { x with egress := { x.egress with proxies := x.egress.proxies.map fun j =>
            if j.pair = r ∧ j.src = src then { j with seq := n, used := x.time.now16 } else j } })
  | none =>
    if x.egress.proxies.length < 1024 then
      let k : Proxy := { pair := r, src := src, seq := 0, used := x.time.now16 }
      (0, { x with egress := { x.egress with proxies := x.egress.proxies ++ [k] } })
    else
      let n := ((x.pair r).seq + 1) % 65536
      (n, ({ x with egress := { x.egress with pairs := vmodN x.egress.pairs r fun k => { k with seq := n } } } : Engine).bump 74)

/-! ## Starting a frame -/

/-- The sum of the jumps between a frame's stamps taken off its residence (R87). -/
def residenceOf (x : Engine) (f : Frame) (egress : Stamp) : Int := egress.t - f.stamp.t - (x.time.jumpSum - f.jumps)

/-- The egress qualifier of a residence-bearing record (R82): the flags of both stamps, TS_STEP when a jump fell
between. -/
def egressQual (x : Engine) (f : Frame) (egress : Stamp) : BitVec 16 :=
  let both := egress.qual ||| (if f.ingress = 63 then 0 else f.stamp.qual &&& 0x7000#16)
  if x.time.jumpSum ≠ f.jumps ∧ f.ingress ≠ 63 then both ||| 0x0800#16 else both

/-- STAMP_DEGRADED advances with each stamp that carries TS_DEGRADED (R82). -/
def countDegraded (w : Stamp) (x : Engine) : Engine := if w.qual.getLsbD 14 then x.bump 0 else x

/-- The egress stamp of a frame started at an opportunity (R83, R253): on the port's grid where it has one. -/
def Engine.egressStamp (x : Engine) (p interp : Nat) : Stamp :=
  let w := x.portStamp p 1 interp
  if x.hasGrid p then { w with t := x.gridBefore25 p (w.t + 1) / 25 } else w

/-- The instant of an opportunity at the reference plane, in 2^-16 ns x 25 (R255). -/
def Engine.oppPoint (x : Engine) (p interp : Nat) : Nat :=
  let w := x.portStamp p 1 interp
  if x.hasGrid p then x.gridBefore25 p (w.t + 1) else w.t * 25

/-- The pair sequence number of a copy: both copies of a frame carry the same. A frame that arrived tagged keeps its
own (R259). -/
def copySeq (c : Copy) (f : Frame) (x : Engine) : Nat × Engine × Frame :=
  match x.pairOf c.port, f.red with
  | _, some r => (r.seq, x, f)
  | none, none => (0, x, f)
  | some r, none =>
    if c.mirror || c.trap != 0 || neverTagged x f.bytes then (0, x, f)
    else
      match findAt r f.seqs with
      | some n => (n, x, f)
      | none =>
        let (n, y) := takeSeq r (bytesAt f.bytes 6 6) x
        (n, y, { f with seqs := insertAt r n f.seqs })

/-- S_q of a copy's queue as the copy starts (R345): frames the engine originates have no ingress stamp. -/
def noteStarted (c : Copy) (f : Frame) (x : Engine) : Engine :=
  if f.ingress = 63 then x
  else
    let k := 10 * c.port + c.queue
    let v := match c.launch with
      | some t => t
      | none => f.stamp.t
    { x with egress := { x.egress with newest := put 0 k (max v (look 0 k x.egress.newest)) x.egress.newest } }

/-- A copy's transmission begun at an opportunity: the bytes as they leave, stamps, residence, counters (R83, R87, R88,
R159, R259, R270, R400). `ct` and `stomp` are those of the claim. -/
def beginCopy (p interp : Nat) (c : Copy) (ct : Bool) (stomp : Nat) (x : Engine) : Engine :=
  match x.frame c.frame with
  | none => x
  | some f0 =>
    let (e0, skipped) := templated x c f0
    let (seq, x1, f) := copySeq c f0 x
    let w := x1.egressStamp p interp
    let residence := if f.ingress = 63 then 0 else residenceOf x1 f w
    let stamp : Stamp := { w with qual := egressQual x1 f w }
    let (e1, x2) := transparent c f residence e0 x1
    let e2 := if f.ingress = 63 then ptpFill x2 p f w e1 else e1
    let (bs, noTag) := if c.mirror || c.trap != 0 then (e2.bytes, false) else redTagged x2 c f seq e2
    let bytes := pad60 bs
    let t : Tx :=
      { copy := some c, bytes := bytes, stamp := stamp, residence := residence, stomp := stomp, ct := ct, begun := true,
        pre := x2.preemptable p c.queue, left := bytes.length + 4, started := x2.time.now16, starved := false }
    let x3 := (countDegraded stamp (x2.putFrame c.frame { f with noTag := f.noTag || noTag })).bumpN 38 skipped
    let x4 := if noTag && !f.noTag then x3.bump 73 else x3
    let x5 := ((x4.bumpPort p 5).bumpN (portCtr p 2) (bytes.length + 4)).modEgPort p fun g => { g with tx := some t }
    let x6 := noteStarted c f (if ct then x5.bumpPort p 28 else x5)
    if f.ingress = 63 then ptpLaunched f.slot p bytes e2.hdrs w x6 else x6

/-- What a frame of a class queue, or of a launch queue, takes from the shapers and from its class's deficit (R244,
R245). -/
def chargeService (p : Nat) (c : Copy) (n : Nat) (x : Engine) : Engine :=
  x.modEgPort p fun g =>
    let g1 := { g with shaper := g.shaper.charge (n + 20) }
    if c.queue < 8 then
      { g1 with classes := vmodN g1.classes c.queue fun k =>
          { k with shaper := k.shaper.charge (n + 20),
                   deficit := if k.strict then k.deficit else if (x.queue p c.queue).isEmpty then 0 else k.deficit - (n + 20) } }
    else g1

/-- The bytes of a PFC or PAUSE frame (R223). -/
def ctlBytes (x : Engine) (p : Nat) (k : Ctl) : List Byte :=
  let head := beBytes 6 0x0180C2000001 ++ beBytes 6 (x.port p).addr.toNat ++ beBytes 2 0x8808
  if k.pfc then
    pad60 (head ++ beBytes 2 0x0101 ++ beBytes 2 k.vec.toNat
      ++ (List.range 8).flatMap fun i => beBytes 2 (if k.vec.getLsbD i then k.quanta else 0))
  else pad60 (head ++ beBytes 2 0x0001 ++ beBytes 2 k.quanta)

/-- The MAC control frame at the front of a port's list is started (R223). -/
def beginCtl (p interp : Nat) (k : Ctl) (rest : List Ctl) (x : Engine) : Engine :=
  let w := x.egressStamp p interp
  let bs := ctlBytes x p k
  let t : Tx := { copy := none, bytes := bs, stamp := w, residence := 0, stomp := 0, ct := false, begun := true, pre := false,
                  left := bs.length + 4, started := x.time.now16, starved := false }
  let y := (countDegraded w x).modEgPort p fun g => { g with tx := some t, ctl := rest, shaper := g.shaper.charge (bs.length + 24) }
  ((y.bumpPort p (if k.pfc then 41 else 42)).bumpPort p 5).bumpN (portCtr p 2) (bs.length + 4)

/-- The age limit of a class queue that a copy exceeds; launch and own frames have none (R237). -/
def Engine.tooOld (x : Engine) (c : Copy) (f : Frame) : Bool :=
  let a := look 0 (8 * c.port + c.queue) x.buf.ages
  decide (c.queue < 8) && f.ingress != 63 && a != 0 && decide (x.time.now16 > f.stamp.t + a * us16)

/-- The copy a queue has to send taken: discarded when too old, found bad, poisoned or with an expired TTL, else started. `flaws` are the
errors that the read of its cells meets, by the word of the frame (R212). The flag says that it was started. -/
def takeHead (part : Part) (e : EngId) (p q interp : Nat) (flaws : List (Nat × WordOutcome)) (x : Engine) : Engine × Bool :=
  match x.front p q with
  | none => (x, false)
  | some (c, rest) =>
    let y0 := x.setQueue p q rest
    match y0.frame c.frame with
    | none => (y0, false)
    | some f =>
      let first := f.cells.take 1
      if y0.tooOld c f then (discardCopy part e 5 c (y0.bumpPort p (92 + q)), false)
      else if f.bad ≠ 0 then (discardCopy part e 8 c (y0.bumpPort p 31), false)
      else
        let ws := frameWords f.cells flaws
        let y := readCells first ws y0
        if y.poisonedAny first then (discardCopy part e 9 c (y.bumpPort p 40), false)
        else if copyExpires y c f then
          let z := if f.ingress < 34 then y.bumpPort f.ingress 25 else y
          (endTrapped part e (trapRoom part f z) c (offerTrap part c.frame 5 z), false)
        else
          let z := readCells (f.cells.drop 1) ws y
          (chargeService p c (outLen z c f) (beginCopy p interp c false (if z.poisonedAny f.cells then 4 else 0) z), true)
where
  /-- The copy that a trap has replaced ends without a record but its stamp record (R90). -/
  endTrapped (part : Part) (e : EngId) (took : Bool) (c : Copy) (x : Engine) : Engine :=
    match x.frame c.frame with
    | none => x
    | some f =>
      let x1 := match c.tag with
        | some t => stampRecord e c.port t stampZero f.stamp 0 x
        | none => x
      let d : SampleEnd :=
        { egress := c.port, queue := c.queue, outcome := if took then 3 else 2, cause := if took then 0 else 11, ct := false, launch := c.launch.isSome, cls := c.cls,
          stamp := stampZero, residence := 0 }
      let x2 := putSample e f d x1
      unref part c.frame (if c.charged then unchargeEg f c.port c.queue x2 else x2)

/-- The launch head judged at an opportunity (R255-R257): sent, dropped as late, or still to come. On a grid the opportunity is a grid
point; where there is none it is the device time that must have come, and the slip of a front port is its egress stamp's. -/
def takeLaunch (part : Part) (e : EngId) (p interp : Nat) (flaws : List (Nat × WordOutcome)) (x : Engine) : Option (Engine × Bool) :=
  match x.launchHead p with
  | none => none
  | some (q, g) =>
    let now25 := (x.time.now16 + interp) * 25
    let s := if p ≥ 32 then now25 else x.oppPoint p interp
    if (if x.hasGrid p then s else now25) < g then none
    else
      let slip := s - g
      match x.queue p q with
      | [] => none
      | c :: rest =>
        let n := match x.frame c.frame with
          | some f => outLen x c f
          | none => 0
        if !x.crossed c.frame then none
        else if slip > (x.eg p).lateMaxNs * ns16 * 25 then
          some (discardCopy part e 6 c ((x.setQueue p q rest).bumpPort p 52), false)
        else if !x.endsBeforeSwap p ((x.time.now16 + interp) * 25) n then none
        else
          let k := if p ≥ 32 then none else if !x.hasGrid p then some 55 else if slip = 0 then some 50 else some 51
          let (y, started) := takeHead part e p q interp flaws x
          some (match k with
            | some k => if started then y.bumpPort p k else y
            | none => y, started)

/-- A frame preempted earlier goes on, unless its MAC is held, its gate closed, or the guard holds what remains of it: that counts once
for the frame (R249, R251). -/
def resumeCut (p t25 : Nat) (x : Engine) : Engine :=
  match (x.eg p).cut with
  | none => x
  | some t =>
    let q := match t.copy with
      | some c => c.queue
      | none => 0
    if (x.eg p).hold || !(x.eg p).gates.getLsbD q then x
    else if x.passes p q t25 t.left then
      let again : Tx := { t with started := x.time.now16 }
      x.modEgPort p fun g => { g with tx := some again, cut := none }
    else match t.copy with
      | some c =>
        if c.held then x
        else
          let noted : Tx := { t with copy := some { c with held := true } }
          (x.modEgPort p fun g => { g with cut := some noted }).bumpPort p 46
      | none => x

/-- The next frame of an idle port by the order of service (R243); heads that are discarded make way for the next. `flaws` are met by
the first frame that is read. -/
def serve (part : Part) (e : EngId) (p interp : Nat) (flaws : List (Nat × WordOutcome)) : Nat → Engine → Engine
  | 0, x => x
  | fuel + 1, x =>
    match (x.eg p).ctl with
    | k :: rest => if x.endsBeforeSwap p ((x.time.now16 + interp) * 25) 64 then beginCtl p interp k rest x else x
    | [] =>
      match takeLaunch part e p interp flaws x with
      | some (y, started) => if started then y else serve part e p interp [] fuel y
      | none =>
        let t25 := (x.time.now16 + interp) * 25
        match x.pickClass p t25 with
        | some (q, y) =>
          let (z, started) := takeHead part e p q interp flaws y
          if started then z else serve part e p interp [] fuel z
        | none => resumeCut p t25 x

/-! ## Preemption (R249, R251) -/

/-- A frame of the express MAC could start now. -/
def Engine.expressReady (x : Engine) (p interp : Nat) : Bool :=
  let t25 := (x.time.now16 + interp) * 25
  !(x.eg p).ctl.isEmpty
    || (match x.launchHead p with
        | some (_, g) => decide (g ≤ t25 + x.wire25 p 8)
        | none => false)
    || (List.range 8).any fun q => !x.preemptable p q && x.eligible p t25 q

/-- The frame bytes of a transmission's present fragment that have gone by a device time: its 8 preamble bytes come first. -/
def Engine.sentBytes (x : Engine) (p now : Nat) (t : Tx) : Nat := (now - t.started) * x.rate p / (8 * 1000 * 65536) - 8

/-- A preemptable transmission interrupted, where a fragment of at least F bytes, its mCRC included, has been sent and 64 bytes remain
(R251): for an express frame, for HOLD, or in time for its gate or a launch point. PREEMPT_COUNT counts the frame once. -/
def preempt (p interp : Nat) (t : Tx) (x : Engine) : Option Engine :=
  let now := x.time.now16
  let sent := x.sentBytes p now t
  let q := match t.copy with
    | some c => c.queue
    | none => 0
  let left := t.left - sent
  let due := (x.eg p).hold || x.expressReady p interp || !x.guardOk p q ((now + interp) * 25) left
  if t.pre && due && decide (sent + 4 ≥ x.fragMin p) && decide (left ≥ 64) then
    let rest : Tx := { t with left := left }
    let y := x.modEgPort p fun g => { g with tx := none, cut := some rest }
    some (if t.left = t.bytes.length + 4 then y.bumpPort p 48 else y)
  else none

/-! ## How a transmission ends -/

/-- A stomp of a copy counted and noted (R196, R199). -/
def countStomp (p ingress cause : Nat) (x : Engine) : Engine :=
  let y := (x.bumpPort p 32).bump (52 + cause)
  { y with ports := { y.ports with stomp := pack [(p, 26), (ingress, 20), (cause, 16), ((field y.ports.stomp 15 0 + 1) % 65536, 0)] } }

/-- The cause that is recorded when a further one meets a copy: the lowest number (R196). -/
def lowerCause (a b : Nat) : Nat := if a = 0 then b else if b = 0 then a else min a b

/-- The FCS that a transmission carries (R196): the CRC-32 of its bytes, with the pattern of a stomp. -/
def Tx.fcs (t : Tx) : BitVec 32 := if t.stomp = 0 then ethCrc t.bytes else ethCrc t.bytes ^^^ 0x53544F4D#32

/-- The record of a frame for the host (Table 15.11): the bytes sent with their FCS. -/
def hostRecord (c : Copy) (f : Frame) (t : Tx) : RingRec :=
  let bs := t.bytes ++ (beBytes 4 t.fcs.toNat)
  { type := 0x0A,
    body := [pack [(c.trap, 24), (f.ingress, 18), (c.cls, 15), (bs.length % 16384, 0)], pack [(f.hit0, 16), (f.epoch, 0)],
             pack [(f.pflags.toNat, 24)]] ++ stampWords f.stamp ++ [0] ++ bytesWords bs }

/-- The end of a copy whose head has left: `outcome` 0 sent, 1 sent stomped, 4 cut off. Its stamp and sample records are
completed, its charge and its reference go (R90, R200, R409). -/
def endCopy (part : Part) (e : EngId) (p : Nat) (t : Tx) (c : Copy) (outcome : Nat) (x : Engine) : Engine :=
  match x.frame c.frame with
  | none => x
  | some f =>
    let x1 := match c.tag with
      | some g => stampRecord e p g t.stamp f.stamp t.residence x
      | none => x
    let d : SampleEnd :=
      { egress := p, queue := c.queue, outcome := outcome, cause := if outcome = 1 then t.stomp else 0, ct := t.ct,
        launch := c.launch.isSome, cls := c.cls, stamp := t.stamp, residence := t.residence }
    let x2 := if c.mirror || c.trap != 0 then x1 else putSample e f d x1
    let x3 := if p = 32 ∧ outcome ≠ 4 then offerRecord e 7 (hostRecord c f t) x2 else x2
    unref part c.frame (if c.charged then unchargeEg f p c.queue x3 else x3)

/-- The end of the transmission on a port (R196): nothing while a cut-through frame's tail, or a flit of it, is still to come. -/
def endTx (part : Part) (e : EngId) (p : Nat) (x : Engine) : Engine :=
  match (x.eg p).tx with
  | none => x
  | some t =>
    let y := x.modEgPort p fun g => { g with tx := none }
    match t.copy with
    | none => y
    | some c =>
      let coming := t.ct && ((x.buf.arriving.any fun a => a.2.frame == c.frame) || !(x.crossed c.frame || t.starved))
      if !t.begun || coming then x
      else
        let ing := match x.frame c.frame with
          | some f => f.ingress
          | none => 63
        endCopy part e p t c (if t.stomp = 0 then 0 else 1) (if t.stomp = 0 then y else countStomp p ing t.stomp y)

/-- A transmission cut off by its port's going down (R198); a claim whose head had not left is discarded. TX_ABORT counts copies: a MAC
control frame is none. -/
def cutTx (part : Part) (e : EngId) (p : Nat) (t : Tx) (x : Engine) : Engine :=
  match t.copy with
  | none => x
  | some c =>
    if t.begun then endCopy part e p t c 4 (x.bumpPort p 33)
    else discardCopy part e 4 c (x.bumpPort p 7)

/-- Every transmission of a port cut off. -/
def cutPort (part : Part) (e : EngId) (p : Nat) (x : Engine) : Engine :=
  let g := x.eg p
  let ts := g.tx.toList ++ g.cut.toList
  ts.foldl (fun y t => cutTx part e p t y) (x.modEgPort p fun g => { g with tx := none, cut := none, ctl := [] })

/-- The copies of a frame that stand in queues, taken out of them. -/
def takeQueued (i : Nat) (x : Engine) : List Copy × Engine :=
  let mine (c : Copy) : Bool := c.frame == i
  (x.egress.queues.flatMap fun q => q.2.filter mine,
   x.egress.queues.foldl (fun y q => if q.2.any mine then y.setQueue (q.1 / 10) (q.1 % 10) (q.2.filter fun c => !mine c) else y) x)

/-- A frame found bad (R195): copies not started are discarded with TAIL_DISCARD, those whose head has left are ended
stomped with the cause. -/
def foundBad (part : Part) (e : EngId) (i cause : Nat) (x : Engine) : Engine :=
  let claims (y : Engine) (p : Nat) : Engine :=
    match (y.eg p).tx with
    | none => y
    | some t =>
      match t.copy with
      | none => y
      | some c =>
        if c.frame ≠ i then y
        else if t.begun then
          let marked : Tx := { t with stomp := lowerCause t.stomp cause }
          y.modEgPort p fun g => { g with tx := some marked }
        else discardCopy part e 8 c ((y.modEgPort p fun g => { g with tx := none }).bumpPort p 31)
  let cutClaims (y : Engine) (p : Nat) : Engine :=
    let mark (t : Tx) : Tx := if (t.copy.map fun c => c.frame) = some i then { t with stomp := lowerCause t.stomp cause } else t
    y.modEgPort p fun g => { g with cut := g.cut.map mark }
  let y := (List.range 34).foldl (fun y p => cutClaims (claims y p) p) x
  let (queued, w) := takeQueued i y
  let (res, z) := takeResidues (fun c => c.frame == i) w
  discardAll part e 8 31 (queued ++ res) z

/-- A frame found bad whose tail may still be to come: what comes of it later is discarded too. -/
def markBad (part : Part) (e : EngId) (cause i : Nat) (x : Engine) : Engine :=
  let y := foundBad part e i cause x
  match y.frame i with
  | some f => y.putFrame i { f with bad := lowerCause f.bad cause }
  | none => y

/-- A whole frame's flits sent into the Crossing by a channel, where a copy of it waits for them; where staging overflows the frame is
found bad (R178, R181). -/
def crossWhole (part : Part) (e : EngId) (ch i : Nat) (x : Engine) : Engine :=
  match x.frame i with
  | none => x
  | some f =>
    if !x.stores || f.refs ≤ 1 then x
    else
      let (y, full) := crossFrame part ch i (f.bytes.length + 4) x
      if full then markBad part e 7 i y else y

end Sys2Proof.Machine
end

