-- ==== Sys2Proof/Machine/Scheduler.lean ====
section
/-! DEFINITION. The events of egress and of blocked queues, the scheduling registers and the SCHED commands (chapters 7
and 8). -/

namespace Sys2Proof.Machine

/-! ## Queues (R220, R254) -/

/-- A launch copy that its queue refuses at enqueue (R254): the counter of its port. -/
def Engine.launchRefusal (x : Engine) (c : Copy) : Option Nat :=
  match c.launch with
  | some t =>
    if t > x.time.now16 + s16 then some 53 else if c.queue ≥ 8 ∧ (x.queue c.port c.queue).length ≥ 256 then some 54 else none
  | none => none

/-- A launch copy put in launch-time order, after those of its own time (R254). -/
def insertLaunch (c : Copy) : List Copy → List Copy
  | [] => [c]
  | d :: rest => if c.launch.getD 0 < d.launch.getD 0 then c :: d :: rest else d :: insertLaunch c rest

/-- A stored copy put into its queue, which a launch queue may refuse it (R254). -/
def queueCopy (part : Part) (e : EngId) (c : Copy) (x : Engine) : Engine :=
  match x.launchRefusal c with
  | some k => discardCopy part e 6 c (x.bumpPort c.port k)
  | none =>
    let k : Copy := { c with enq := x.time.now16 }
    let q := x.queue c.port c.queue
    x.setQueue c.port c.queue (if c.queue ≥ 8 then insertLaunch k q else q ++ [k])

/-- The cells of a frame counted against the queue of a copy. -/
def chargeEg (c : Copy) (f : Frame) (x : Engine) : Engine :=
  x.modEg c.port c.queue fun a => { a with occ := a.occ + f.cells.length, hrUse := a.hrUse + f.pHr }

/-! ## Transmission -/

/-- An engine may start frames: it is the active and the switchover gap, if any, is over (R325, R331). -/
def Engine.sends (x : Engine) : Bool := x.core.role == 1 && x.core.mayStart

/-- A port on which frames can be started. -/
def Engine.txUp (x : Engine) (p : Nat) : Bool := x.sends && (x.port p).up && !x.unused p

/-- The copies that wait for a port: the most heads that a choice can discard. -/
def Engine.waitingOn (x : Engine) (p : Nat) : Nat := ((List.range 10).map fun q => (x.queue p q).length).sum

/-- A cut-through copy underruns (R193): the flit that the MAC needs now, counted over all its fragments, has not crossed.
It can happen only while a monitor reads below
FLOOR, and once to a copy. -/
def Engine.underruns (x : Engine) (p : Nat) (t : Tx) (i : Nat) : Bool :=
  let k := (t.bytes.length + 4 - t.left + x.sentBytes p x.time.now16 t) / 64
  t.ct && !t.starved && decide (64 * k < t.bytes.length + 4) && !x.flitHere p i k && !x.crossed i
    && x.ports.monitors.any fun m => m.valid && m.below

/-- TX_OPPORTUNITY on one engine (R243): a claim begins once its first flit is there, an underrun stomps (R193), a preemptable frame gives
way, or an idle port takes the next frame. -/
def opportunity (part : Part) (e : EngId) (p interp : Nat) (flaws : List (Nat × WordOutcome)) (x0 : Engine) : Engine :=
  let x := refillPort p x0
  if !x.txUp p then x
  else
    let idle (y : Engine) : Engine :=
      let z := countGuard p ((y.time.now16 + interp) * 25) y
      serve part e p interp flaws (y.waitingOn p + 2) z
    match (x.eg p).tx with
    | none => idle x
    | some t =>
      match t.copy with
      | some c =>
        if !t.begun then
          if !x.flitHere p c.frame 0 then x
          else
            let y := beginCopy p interp c true t.stomp x
            match y.frame c.frame with
            | some f => chargeService p c (outLen y c f) y
            | none => y
        else if x.underruns p t c.frame then
          let marked : Tx := { t with stomp := lowerCause t.stomp 5, starved := true }
          ((x.modEgPort p fun g => { g with tx := some marked }).bumpPort p 30).raise 0x04 0x05 0 (word p)
        else match preempt p interp t x with
          | some y => idle y
          | none => x
      | none => x

/-- TX_OPPORTUNITY: time passes, the Crossing's handshakes come, then the MAC chooses (R243, R212). -/
def execTxOpportunity (e : EngId) (port : Fin 34) (after : Nat) (read : TxRead) (s : State) : Host.Outcome State Fault Refusal :=
  onEngine e s fun s0 =>
    let s := passAfter after s0
    s.modEng e fun x => opportunity s.part e port.val (interpOf after) read.flaws (handshakes s.part read.hands x)

/-- COPY_TRANSMIT_END. -/
def execCopyTransmitEnd (e : EngId) (port : Fin 34) (s : State) : Host.Outcome State Fault Refusal :=
  onEngine e s fun s => s.modEng e (endTx s.part e port.val)

/-! ## The Underpass (R235) -/

/-- The oldest copy of a queue whose frame lies in the Underpass, where it is not yet staged. -/
def Engine.unstaged (x : Engine) (k : Nat) : Option Copy :=
  let spilled (c : Copy) : Bool := match x.frame c.frame with
    | some f => f.under
    | none => false
  ((look [] k x.egress.queues).find? spilled).filter fun c => !c.staged

/-- The queues in the order of a turn of fetches: launch queues, then the higher class, each from the lowest port on (log 21). -/
def drainOrder : List Nat := ([8, 9, 7, 6, 5, 4, 3, 2, 1, 0] : List Nat).flatMap fun q => (List.range 34).map fun p => 10 * p + q

/-- The queue that is fetched for next: the turn goes on after the queue last fetched for (R235). -/
def Engine.drainNext (x : Engine) : Option Nat :=
  let i := match x.buf.drainLast with
    | some k => (drainOrder.findIdx? fun j => j == k).getD 0 + 1
    | none => 0
  (drainOrder.drop i ++ drainOrder.take i).find? fun k => (x.unstaged k).isSome

/-- One frame of the Underpass fetched into drain staging, where there is room; `flaws` are the errors that the read meets. A poisoned
word stays poisoned (R212). -/
def drainFetch (part : Part) (flaws : List (Nat × WordOutcome)) (x : Engine) : Engine :=
  match x.drainNext with
  | none => x
  | some k =>
    let cells := match x.unstaged k with
      | some c => (match x.frame c.frame with
        | some f => f.cells
        | none => [])
      | none => []
    if !underpassPart part || decide (x.stagedCells + cells.length > 512) then x
    else
      let y := readCells cells (frameWords cells flaws) (x.modBuf fun b => { b with drainLast := some k })
      judgeSpill (y.setQueue (k / 10) (k % 10) (stageFirst y (look [] k y.egress.queues)))
where
  /-- The first unstaged spilled copy of a list staged. -/
  stageFirst (x : Engine) : List Copy → List Copy
    | [] => []
    | c :: rest => if x.awaitsDrain c then { c with staged := true } :: rest else c :: stageFirst x rest

/-- DRAIN_FETCH_DONE. -/
def execDrainFetchDone (fetch : DrainFetch) (s : State) : Host.Outcome State Fault Refusal :=
  onEngine fetch.eng s fun s => s.modEng fetch.eng (drainFetch s.part fetch.flaws)

/-! ## Multicast residue (R203, R204) -/

/-- The residue without its first copy for a port and class, and that copy. -/
def takeResidue (p c : Nat) : List Copy → Option (Copy × List Copy)
  | [] => none
  | k :: rest =>
    if k.port = p ∧ k.cls = c then some (k, rest)
    else (takeResidue p c rest).map fun (j, l) => (j, k :: l)

/-- The copy of a list that a test names whose frame has the oldest ingress stamp. -/
def oldestCopy (x : Engine) (test : Copy → Bool) (l : List Copy) : Option (Nat × Copy) :=
  l.foldl (fun best c =>
    if !test c then best
    else match x.frame c.frame, best with
      | none, _ => best
      | some f, none => some (f.stamp.t, c)
      | some f, some (t, _) => if f.stamp.t < t then some (f.stamp.t, c) else best) none

/-- The tail of a copy's frame is still to come. -/
def Engine.tailDue (x : Engine) (c : Copy) : Bool := x.buf.arriving.any fun a => a.2.frame == c.frame

/-- The first residue copy of a port and class retried (R203): enqueued at the tail of its queue when admitted, once the tail of its frame
has come (R190, log 164). -/
def retryResidue (part : Part) (e : EngId) (p c : Nat) (x : Engine) : Engine :=
  match takeResidue p c x.buf.residue with
  | none => x
  | some (k, rest) =>
    match x.frame k.frame with
    | none => x
    | some f =>
      if !x.tailDue k && headOut part x p k.queue k.cls f.dropElig then
        queueCopy part e { k with charged := true } (chargeEg k f (x.setResidue rest))
      else x

/-- MC_RESIDUE_RETRY. -/
def execMcResidueRetry (e : EngId) (port : Fin 34) (cls : Fin 8) (s : State) : Host.Outcome State Fault Refusal :=
  onEngine e s fun s => s.modEng e (retryResidue s.part e port.val cls.val)

/-- MC_RESIDUE_AGE_EXPIRY: the lossy residue copy of a port and class with the oldest ingress stamp has reached MC_RESIDUE_AGE. -/
def execMcResidueAgeExpiry (e : EngId) (port : Fin 34) (cls : Fin 8) (s : State) : Host.Outcome State Fault Refusal :=
  onEngine e s fun s =>
    let x := s.eng e
    if (x.cls cls.val).lossless then s
    else match oldestCopy x (fun c => decide (c.port = port.val) && decide (c.cls = cls.val)) x.buf.residue with
    | none => s
    | some (t, k) =>
      (passTo e (t + x.buf.residueAgeUs * us16) s).modEng e fun y =>
        discardCopy s.part e 7 k ((y.setResidue (y.buf.residue.erase k)).bumpPort port.val 37)

/-! ## Flow control (R223-R226) -/

/-- The frames that repeat an XOFF: for each class in XOFF with PFC, one PAUSE otherwise. -/
def repeatXoff (p : Nat) (x : Engine) : Engine :=
  let f := x.fc p
  if !(x.port p).up then x
  else if f.mode = 2 then
    (List.range 8).foldl (fun y c =>
      if (x.inAcct p c).xoff ∧ x.prios p c ≠ 0 then y.putCtl p { pfc := true, vec := x.prios p c, quanta := f.quanta } else y) x
  else if f.mode = 1 ∧ f.pauseOff = false ∧ x.xoffMask p ≠ 0 then x.putCtl p { pfc := false, vec := 0, quanta := f.quanta }
  else x

/-- PFC_REPEAT. -/
def execPfcRepeat (e : EngId) (port : Fin 34) (s : State) : Host.Outcome State Fault Refusal :=
  onEngine e s fun s => s.modEng e (repeatXoff port.val)

/-- The class queues that are no longer paused may trip their watchdog again (R226). -/
def settlePauses (p : Nat) (x : Engine) : Engine :=
  let still := (List.range 8).foldl (fun v q => if x.paused p q then v ||| (1#8 <<< q) else v) 0#8
  x.modFc p fun f => { f with tripped := f.tripped &&& still }

/-- PAUSE_TIMER_EXPIRY: the timer of a priority; PAUSE runs one timer for all. -/
def execPauseTimerExpiry (e : EngId) (port : Fin 34) (prio : Fin 8) (s : State) : Host.Outcome State Fault Refusal :=
  onEngine e s fun s => s.modEng e fun x => settlePauses port.val (x.modFc port.val fun f =>
    { f with timers := if f.mode = 1 then Vector.replicate 8 0 else vset f.timers prio 0 })

/-- PFC_STORM: a class queue has been paused for longer than PFC_WD_MS; it counts once in a pause (R226). -/
def execPfcStorm (e : EngId) (port : Fin 34) (cls : Fin 8) (s : State) : Host.Outcome State Fault Refusal :=
  onEngine e s fun s => s.modEng e fun x =>
    if x.paused port.val cls.val && (x.fc port.val).wdMs != 0 && !(x.fc port.val).tripped.getLsbD cls.val then
      let set (b : BitVec 8) : BitVec 8 := b ||| (1#8 <<< cls.val)
      ((x.modFc port.val fun f => { f with storm := set f.storm, tripped := set f.tripped }).bumpPort port.val (102 + cls.val)).raise
        0x05 0x05 1 (pack [(port.val, 8), (cls.val, 0)])
    else x

/-- STORM_CLEAR: STORM bits are W1C. -/
def execStormClear (e : EngId) (port : Fin 34) (mask : Word) (s : State) : Host.Outcome State Fault Refusal :=
  onEngine e s fun s => s.modEng e fun x => x.modFc port.val fun f =>
    { f with storm := f.storm &&& ~~~(BitVec.ofNat 8 (field mask 7 0)) }

/-! ## Age limits (R237) -/

/-- The head of a blocked queue checked against its age limit. -/
def ageQueue (part : Part) (e : EngId) (k : Nat) (x : Engine) : Engine :=
  let p := k / 10
  let q := k % 10
  match x.queue p q with
  | [] => x
  | c :: rest =>
    match x.frame c.frame with
    | none => x
    | some f =>
      let blocked := (x.paused p q && f.ingress != 63) || !(x.eg p).gates.getLsbD q || x.awaitsDrain c || (p == 32 && !x.hostRoom f f.orig)
      let held := !(x.port p).up && (x.port p).holding
      if decide (q < 8) && blocked && !held && x.tooOld c f then discardCopy part e 5 c ((x.setQueue p q rest).bumpPort p (92 + q)) else x

/-- A lossless residue copy checked against the age limit of its queue. -/
def ageResidue (part : Part) (e : EngId) (c : Copy) (x : Engine) : Engine :=
  match x.frame c.frame with
  | none => x
  | some f =>
    if (x.cls c.cls).lossless && x.tooOld c f then
      discardCopy part e 5 c ((x.setResidue (x.buf.residue.filter fun k => decide (k ≠ c))).bumpPort c.port (92 + c.queue))
    else x

/-- AGE_CHECK. -/
def execAgeCheck (e : EngId) (s : State) : Host.Outcome State Fault Refusal :=
  onEngine e s fun s => s.modEng e fun x =>
    let y := x.egress.queues.foldl (fun y k => ageQueue s.part e k.1 y) x
    y.buf.residue.foldl (fun y c => ageResidue s.part e c y) y

/-! ## Gates (R247, R248) -/

/-- GCL_ENTRY_CHANGE: the next change of gates of a running list comes; a pending change time that is due comes first. -/
def execGclEntryChange (e : EngId) (port : Fin 32) (s : State) : Host.Outcome State Fault Refusal :=
  onEngine e s fun s =>
    let g := (s.eng e).eg port.val
    match g.oper with
    | none => s
    | some l =>
      let (t, i, c) := gclNext l g.entry g.cycleStart
      let early := match g.commit with
        | some k => decide (k.ct ≤ t)
        | none => false
      if early then s
      else
        (passTo e t s).modEng e fun x =>
          judgeOverrun port.val g.gates (enterGcl port.val (par l.entries i) (x.modEgPort port.val fun g =>
            { g with entry := i, cycleStart := c }))

/-- GCL_CHANGE_TIME: CT has come, or a jump of device time has passed it, when the list is taken up where it now
is (R247). A MAC that is held stays so until a Set-And-Release-MAC entry begins (R250). -/
def execGclChangeTime (e : EngId) (port : Fin 32) (s : State) : Host.Outcome State Fault Refusal :=
  onEngine e s fun s =>
    let g := (s.eng e).eg port.val
    match g.commit with
    | none => s
    | some k =>
      let late := decide (k.ct < (s.eng e).time.now16)
      (passTo e k.ct s).modEng e fun x =>
        let y := x.modEgPort port.val fun g =>
          { g with oper := k.list, commit := none, entry := 0, cycleStart := k.ct, gates := 0xFF }
        match k.list with
        | some l =>
          let z := judgeOverrun port.val g.gates (enterGcl port.val (par l.entries 0) y)
          if late then gclResync port.val z else z
        | none => y

/-! ## Preemption (R251) -/

/-- PREEMPT_VERIFY_TIMER: a verify mPacket is sent again, or the third attempt has failed. -/
def execPreemptVerifyTimer (e : EngId) (port : Fin 32) (s : State) : Host.Outcome State Fault Refusal :=
  onEngine e s fun s => s.modEng e fun x =>
    let k := (x.eg port.val).preempt
    if x.core.role != 1 || !k.enable || !k.verify || k.state != 1 || !(x.port port.val).up then x
    else if k.tries < 3 then x.modEgPort port.val fun g => { g with preempt := { g.preempt with tries := g.preempt.tries + 1 } }
    else
      ((x.modEgPort port.val fun g => { g with preempt := { g.preempt with state := 3 } }).bumpPort port.val 49).raise 0x06 0x02 0
        (word port.val)

/-- PREEMPT_VERIFY_RESPONSE. -/
def execPreemptVerifyResponse (e : EngId) (port : Fin 32) (s : State) : Host.Outcome State Fault Refusal :=
  onEngine e s fun s => s.modEng e fun x =>
    let k := (x.eg port.val).preempt
    if x.core.role == 1 && k.enable && k.verify && k.state == 1 && (x.port port.val).up then
      x.modEgPort port.val fun g => { g with preempt := { g.preempt with state := 2 } }
    else x

/-- Verification started afresh: active at once with VERIFY 0; the first verify mPacket goes out while the port is up. -/
def restartVerify (up : Bool) (k : Preempt) : Preempt :=
  { k with state := if !k.enable then 0 else if k.verify then 1 else 2, tries := bit (k.enable && k.verify && up) }

/-! ## Redundancy (R260, R261) -/

/-- FORGET_MS of a pair in 2^-16 ns. -/
def forgetTime (x : Engine) (r : Nat) : Nat := (x.pair r).forgetMs * 1000 * us16

/-- DUP_FORGET: entries older than FORGET_MS go. -/
def execDupForget (e : EngId) (s : State) : Host.Outcome State Fault Refusal :=
  onEngine e s fun s =>
    match (s.eng e).egress.dups.map fun k => k.at_ + forgetTime (s.eng e) k.pair with
    | [] => s
    | t :: rest =>
      (passTo e (rest.foldl min t) s).modEng e fun x =>
        let keep (k : Dup) : Bool := decide (x.time.now16 < k.at_ + forgetTime x k.pair)
        { x with egress := { x.egress with dups := x.egress.dups.filter keep } }

/-- PROXY_AGE: entries not used for 60 s go. -/
def execProxyAge (e : EngId) (s : State) : Host.Outcome State Fault Refusal :=
  onEngine e s fun s =>
    match (s.eng e).egress.proxies.map fun k => k.used + 60 * s16 with
    | [] => s
    | t :: rest =>
      (passTo e (rest.foldl min t) s).modEng e fun x =>
        let keep (k : Proxy) : Bool := decide (x.time.now16 < k.used + 60 * s16)
        { x with egress := { x.egress with proxies := x.egress.proxies.filter keep } }

/-! ## Registers (Table 8.8) -/

/-- The scheduling registers. -/
def egressReg (x : Engine) (off : Nat) : Option Word :=
  if off = 0x0700 then
    some (pack [(x.egress.dups.length, 16), (((List.range 8).map fun r => bit ((x.pair r).mode != 0) * 2 ^ r).sum, 0)])
  else if off ≥ 0x0740 ∧ off < 0x0740 + 4 * 34 ∧ off % 4 = 0 then
    let p := (off - 0x0740) / 4
    let g := x.eg p
    let shown := decide (p < 32) && (x.port p).up && (x.port p).mode != 0 && decide ((x.port p).mode < 11)
    some (pack [(g.gates.toNat, 24), (bit g.oper.isSome, 23), (bit g.commit.isSome, 22), (g.preempt.state, 20), (bit g.hold, 19),
                (if shown && x.hasGrid p then gridCode (x.port p).modeNow else 0, 16),
                (if shown then x.gridPhase25 p / 400 else 0, 0)])
  else none

/-! ## SCHED commands -/

/-- RATE and BURST of a shaper that is on are in range (Table 8.1). -/
def shapeBad (on : Bool) (rate burst : Word) : Bool :=
  on && (rate == 0 || decide (rate.toNat > 400000000) || decide (burst.toNat < 64) || decide (burst.toNat > 16777215))

/-- A shaper set: newly enabled it starts with BURST bytes of credit (R245). -/
def setShaper (on : Bool) (rate burst : Word) (h : Shaper) : Shaper :=
  let full : Int := burst.toNat * 8 * creditBit
  { on := on, rate := rate.toNat, burst := burst.toNat, credit := if !on then 0 else if h.on then min h.credit full else full }

/-- SCHED.SET_CLASS (Table 8.1). -/
def schedSetClassSpec : CmdSpec :=
  portSpec 0x0701 (lenIs 4)
    (fun ps => zeroBits ps 0 31 11 && zeroBits ps 0 7 6 && zeroBits ps 1 29 16 && (!flag (par ps 1) 31 || zeroBits ps 1 15 0)
      && (flag (par ps 1) 30 || (par ps 2 == 0 && par ps 3 == 0)))
    (fun ps => field (par ps 0) 5 0)
    (fun _ ps _ => rangeIf (decide (field (par ps 0) 5 0 > 33) || (!flag (par ps 1) 31 && decide (field (par ps 1) 15 0 < 64))
      || shapeBad (flag (par ps 1) 30) (par ps 2) (par ps 3)))
    neverJudge
    (fun c ps s => onSelf c (fun x0 =>
      let p := field (par ps 0) 5 0
      let x := refillPort p x0
      x.modEgPort p fun g => { g with classes := vmodN g.classes (field (par ps 0) 10 8) fun k =>
        { strict := flag (par ps 1) 31, quantum := field (par ps 1) 15 0, deficit := if flag (par ps 1) 31 then 0 else k.deficit,
          shaper := setShaper (flag (par ps 1) 30) (par ps 2) (par ps 3) k.shaper } }) s)

/-- SCHED.SET_PORT_SHAPER (R245). -/
def schedSetPortShaperSpec : CmdSpec :=
  portSpec 0x0702 (lenIs 3)
    (fun ps => zeroBits ps 0 30 6 && (flag (par ps 0) 31 || (par ps 1 == 0 && par ps 2 == 0)))
    (fun ps => field (par ps 0) 5 0)
    (fun _ ps _ => rangeIf (decide (field (par ps 0) 5 0 > 33) || shapeBad (flag (par ps 0) 31) (par ps 1) (par ps 2)))
    neverJudge
    (fun c ps s => onSelf c (fun x0 =>
      let p := field (par ps 0) 5 0
      let x := refillPort p x0
      x.modEgPort p fun g => { g with shaper := setShaper (flag (par ps 0) 31) (par ps 1) (par ps 2) g.shaper }) s)

/-- A commit waits on the port. -/
def gclBusy (c : Ctx) (ps : List Word) (s : State) : Option (Status × List Word) :=
  statusIf ((s.eng c.eng).eg (field (par ps 0) 5 0)).commit.isSome .busy

/-- SCHED.WRITE_GCL (Table 8.2). -/
def schedWriteGclSpec : CmdSpec :=
  portSpec 0x0703 (fun _ _ ps => decide (ps.length ≥ 2) && ps.length == 2 + field (par ps 1) 9 0)
    (fun ps => zeroBits ps 0 31 26 && zeroBits ps 0 15 6 && zeroBits ps 1 31 10) (fun ps => field (par ps 0) 5 0)
    (fun _ ps _ =>
      let n := field (par ps 1) 9 0
      rangeIf (decide (field (par ps 0) 5 0 > 31) || decide (n > 512) || decide (field (par ps 0) 25 16 + n > 1024)
        || (ps.drop 2).any fun w => gclOp w == 3 || field w 21 0 == 0))
    gclBusy
    (fun c ps s => onSelf c (fun x => x.modEgPort (field (par ps 0) 5 0) fun g =>
      { g with admin := writeEntries (field (par ps 0) 25 16) (ps.drop 2) g.admin }) s)

/-- The change time of a commit accepted at `now` (R248). -/
def changeTime (now base cycle : Nat) : Nat :=
  let least := now + 100 * us16
  if base ≥ least ∨ cycle = 0 then base else base + (least - base + cycle - 1) / cycle * cycle

/-- CYCLE of SCHED.COMMIT_GCL in 2^-16 ns. -/
def gclCycle (ps : List Word) : Nat := (par ps 5).toNat * ns16 + field (par ps 6) 31 16

/-- SCHED.COMMIT_GCL (Table 8.3); the standby takes the active's CT, whether it has come there or not (R262). -/
def schedCommitGclSpec : CmdSpec :=
  portSpec 0x0704 (lenIs 7)
    (fun ps => zeroBits ps 0 30 27 && zeroBits ps 0 15 6 && (flag (par ps 0) 31 || zeroBits ps 0 26 16) && !badQual ps 1
      && zeroBits ps 6 15 0 && ((par ps 5).toNat != 1000000000 || zeroBits ps 6 31 16))
    (fun ps => field (par ps 0) 5 0)
    (fun _ ps _ =>
      let n := field (par ps 0) 26 16
      let cy := (par ps 5).toNat
      rangeIf (decide (field (par ps 0) 5 0 > 31) || (flag (par ps 0) 31 && n == 0) || decide (n > 1024) || badNsec ps 1
        || decide (cy < 1000) || decide (cy > 1000000000)))
    gclBusy
    (fun c ps s =>
      let p := field (par ps 0) 5 0
      let x := s.eng c.eng
      let own := changeTime x.time.now16 (parTime ps 1) (gclCycle ps)
      let ct := (c.settled.map Int.toNat).getD own
      let l : Gcl :=
        { entries := (List.range (field (par ps 0) 26 16)).map fun i => look 0#32 i (x.eg p).admin, base := parTime ps 1,
          cycle := gclCycle ps }
      let k : GclCommit := { ct := ct, list := if flag (par ps 0) 31 then some l else none }
      { state := s.setEng c.eng (x.modEgPort p fun g => { g with commit := some k }), body := stampWords { t := ct, qual := 0 },
        await := none, settled := some (ct : Int) })

/-- SCHED.SET_PREEMPT (Table 8.4). -/
def schedSetPreemptSpec : CmdSpec :=
  portSpec 0x0705 (lenIs 2) (fun ps => zeroBits ps 0 27 24 && zeroBits ps 0 15 6 && zeroBits ps 1 31 8)
    (fun ps => field (par ps 0) 5 0)
    (fun _ ps _ => rangeIf (decide (field (par ps 0) 5 0 > 31) || field (par ps 1) 7 0 == 0 || decide (field (par ps 1) 7 0 > 128)))
    (fun c ps s =>
      let m := ((s.eng c.eng).port (field (par ps 0) 5 0)).mode
      statusIf (flag (par ps 0) 31 && (m == 0 || decide (m > 10))) .state)
    (fun c ps s => onSelf c (fun x =>
      let p := field (par ps 0) 5 0
      let old := (x.eg p).preempt
      let new : Preempt :=
        { old with enable := flag (par ps 0) 31, verify := flag (par ps 0) 30, addFrag := field (par ps 0) 29 28,
                   classes := BitVec.ofNat 8 (field (par ps 0) 23 16), verifyMs := field (par ps 1) 7 0 }
      let same := old.enable == new.enable && old.verify == new.verify && old.addFrag == new.addFrag
      x.modEgPort p fun g => { g with preempt := if same then new else restartVerify (x.port p).up new }) s)

/-- SCHED.SET_LAUNCH (Table 8.6). -/
def schedSetLaunchSpec : CmdSpec :=
  portSpec 0x0706 (lenIs 4)
    (fun ps => zeroBits ps 0 31 18 && zeroBits ps 0 15 6 && (flag (par ps 0) 16 || par ps 2 == 0) && (flag (par ps 0) 17 || par ps 3 == 0))
    (fun ps => field (par ps 0) 5 0)
    (fun _ ps _ => rangeIf (decide (field (par ps 0) 5 0 > 33) || decide ((par ps 1).toNat > 1000000)
      || decide ((par ps 2).toNat > 10000000) || decide ((par ps 3).toNat > 10000000)))
    neverJudge
    (fun c ps s => onSelf c (fun x => x.modEgPort (field (par ps 0) 5 0) fun g =>
      { g with lq0Mode := flag (par ps 0) 16, lq1Mode := flag (par ps 0) 17, lateMaxNs := (par ps 1).toNat,
               delay0 := (par ps 2).toNat, delay1 := (par ps 3).toNat }) s)

/-- A pair as SCHED.SET_REDUNDANCY gives it. -/
def setPair (ps : List Word) (x : Engine) : Engine :=
  let r := field (par ps 0) 18 16
  let k : Pair := { mode := field (par ps 0) 9 8, portA := field (par ps 1) 5 0, portB := field (par ps 1) 13 8,
                    forgetMs := field (par ps 2) 31 16, seq := (x.pair r).seq }
  { x with egress := { x.egress with
      pairs := vmodN x.egress.pairs r fun _ => k,
      dups := x.egress.dups.filter fun d => d.pair != r,
      proxies := x.egress.proxies.filter fun d => d.pair != r } }

/-- SCHED.SET_REDUNDANCY (Table 8.7). -/
def schedSetRedundancySpec : CmdSpec :=
  { configSpec 0x0707 (lenIs 3)
      (fun ps => zeroBits ps 0 31 19 && zeroBits ps 0 15 10 && zeroBits ps 0 7 0 && zeroBits ps 1 31 14 && zeroBits ps 1 7 6
        && zeroBits ps 2 15 0 && (field (par ps 0) 9 8 != 0 || (par ps 1 == 0 && par ps 2 == 0)))
      (fun _ ps _ =>
        let m := field (par ps 0) 9 8
        let a := field (par ps 1) 5 0
        let b := field (par ps 1) 13 8
        rangeIf (m == 3 || decide (a > 31) || decide (b > 31) || (m != 0 && (a == b || field (par ps 2) 31 16 == 0))))
      (fun c ps s =>
        let x := s.eng c.eng
        let m := field (par ps 0) 9 8
        let r := field (par ps 0) 18 16
        let bad (p : Nat) : Bool :=
          x.unused p || (match x.pairOf p with
            | some q => q != r
            | none => false) || (m == 1 && !(vget x.parser.ports portParseReset p).prp)
        statusIf (m != 0 && (bad (field (par ps 1) 5 0) || bad (field (par ps 1) 13 8))) .state)
      (fun c ps s => onSelf c (setPair ps) s) with
    absent := fun part ps => absentPort part (field (par ps 1) 5 0) || absentPort part (field (par ps 1) 13 8) }

end Sys2Proof.Machine
end

