-- ==== Sys2Proof/Machine/Ports.lean ====
section
/-! DEFINITION. Ports: modes, negotiation, link state, the link-down hold, host ports and the Ahnud exchange (chapter
"Lanes, ports and negotiation"). -/

namespace Sys2Proof.Machine

/-! ## Records and registers -/

/-- A port event record (Table 3.3). The LEVEL in QUAL of AT is 0, as for a reading that is no stamp (DEDUCED, log 128). -/
def portRecord (e : EngId) (p event cause : Nat) (x : Engine) : Engine :=
  offerEvent e { type := 0x03, body := pack [(p, 24), (event, 20), (cause, 16), (x.level p, 13)] :: stampWords x.now } 36 x

/-- The level of the LINK interrupt source (Table 15.16 bit 6). -/
def linkIrqLevel (x : Engine) : Bool := x.ports.ports.toList.any fun q => q.chg

/-- A change of LINK_UP is noted in PORT_LINK_CHG, H0_CHG or H1_CHG. -/
def noteLink (p : Nat) (x : Engine) : Engine := (x.modPort p fun q => { q with chg := true }).edge (linkIrqLevel x) true 6

/-- A mode whose up condition has alignment-marker lock and deskew (R106): grouped, or RS-FEC. -/
def needsAlign (m : Nat) : Bool := m == 7 || decide (m ≥ 8)

/-- The code of the first up condition of the mode in effect that is not met; 0 when all are (R108, R106). -/
def firstUnmet (q : PortState) : Nat :=
  if !q.signal then 2
  else if !q.lock then 3
  else if needsAlign q.modeNow && !q.aligned then 4
  else if q.remote then 6
  else if q.hiBer && decide (q.modeNow ≥ 4) then 5
  else 0

/-- FEC_NOW of a mode (Table 3.2). -/
def fecOf (m : Nat) : Nat := if m = 6 then 1 else if m = 7 ∨ m = 10 then 2 else 0

/-- CAUSE of a front port as PORT_STAT reads it. -/
def Engine.causeOf (x : Engine) (p : Nat) : Nat := if x.unused p then 9 else (x.port p).cause

/-- PORT_STAT of a front port (Table 3.2). -/
def portStat (x : Engine) (p : Nat) : Word :=
  let q := x.port p
  pack [(q.modeNow, 28), (q.ahnud.level, 25), (q.ahnud.state, 22), (x.causeOf p, 18), (q.anState, 16), (bit q.up, 15),
        (bit q.holding, 14), (q.fecNow, 12), (q.anRestarts % 256, 0)]

/-- One bit of every front port, as a register. -/
def portBits (part : Part) (x : Engine) (f : PortState → Bool) : Word :=
  word ((List.range (lanesOf part)).map fun p => bit (f (x.port p)) * 2 ^ p).sum

/-- The link registers (Table 3.2). -/
def portsReg (part : Part) (x : Engine) (off : Nat) : Option Word :=
  let h0 := x.port 32
  let h1 := x.port 33
  match off with
  | 0x0200 => some (portBits part x fun q => q.up)
  | 0x0204 => some (portBits part x fun q => q.chg)
  | 0x0208 => some (portBits part x fun q => q.holding)
  | 0x020C => some (pack [(bit h1.holding, 5), (bit h0.holding, 4), (bit h1.chg, 3), (bit h0.chg, 2), (bit h1.up, 1), (bit h0.up, 0)])
  | _ =>
    if off ≥ 0x0240 ∧ off < 0x0240 + 4 * 32 ∧ off % 4 = 0 then
      let p := (off - 0x0240) / 4
      some (if p < lanesOf part then portStat x p else 0)
    else none

/-! ## The Ahnud exchange (R119-R123) -/

/-- One front port's exchange changed. -/
def Engine.modAhnud (x : Engine) (p : Nat) (f : Ahnud → Ahnud) : Engine := x.modPort p fun q => { q with ahnud := f q.ahnud }

/-- CAPABLE of a front port (R120, R315): A3 only with D1 on SYN-T and the grid restored, A1 only as a Synchronous
Ethernet port. -/
def capable (x : Engine) (p : Nat) : BitVec 4 :=
  let m := (x.port p).modeNow
  let a3 := decide (m ≥ 4) && !x.clk.fallback && !x.refs.pulling
  let a1 := (vget x.refs.refs (refReset (8 + p)) (8 + p)).enable
  if m = 0 ∨ m > 10 then 0
  else 0b0101#4 ||| (if a1 then 0b0010#4 else 0) ||| (if a3 then 0b1000#4 else 0)

/-- LOCAL of a front port (R120). -/
def localLevels (x : Engine) (p : Nat) : BitVec 4 := (x.port p).ahnud.allowed &&& capable x p

/-- One more than the highest bit of a set of levels; 0 for none: LEVEL's coding. -/
def highestLevel (v : BitVec 4) : Nat := if v.getLsbD 3 then 4 else if v.getLsbD 2 then 3 else if v.getLsbD 1 then 2 else bit (v.getLsbD 0)

/-- chosen(local, peer) of R120. -/
def chosen (loc peer : BitVec 4) : Nat := highestLevel (loc &&& peer)

/-- The levels of a set below a level. -/
def levelsBelow (v : BitVec 4) (l : Nat) : BitVec 4 := v &&& BitVec.ofNat 4 (2 ^ (l - 1) - 1)

/-- A level is in a set; level 0 is in every set. -/
def hasLevel (v : BitVec 4) (l : Nat) : Bool := l == 0 || v.getLsbD (l - 1)

/-- FALLBACK, or the highest level of LOCAL below it (R122). -/
def fallbackLevel (x : Engine) (p : Nat) : Nat :=
  let f := (x.port p).ahnud.fallback
  let loc := localLevels x p
  if hasLevel loc f then f else highestLevel (levelsBelow loc f)

/-- LEVEL moved on an up port: counted and reported when it changes, reported when it is settled anew. -/
def setLevel (e : EngId) (p l : Nat) (settled : Bool) (x : Engine) : Engine :=
  let was := (x.port p).ahnud.level
  let y := (levelMoved p l x).modAhnud p fun a => { a with level := l }
  let z := if was = l then y else y.bumpPort p 14
  if settled || was != l then portRecord e p 3 0 z else z

/-- An Ahnud frame sent on a port (R119): MSG and CHOSEN. The first SEQ of a port is 1, and the frame goes into class queue 7:
R119 gives neither (DESIGN CHOICE, log 127). -/
def sendAhnud (p msg chosenL : Nat) (x : Engine) : Engine :=
  let a := (x.port p).ahnud
  if a.allowed = 0 || x.core.role != 1 then x
  else
    let sq := (a.seq + 1) % 65536
    let bytes := beBytes 6 0x0180C200000E ++ beBytes 6 (x.port p).addr.toNat ++ beBytes 2 x.ports.etype.toNat
      ++ [0x01, BitVec.ofNat 8 msg] ++ beBytes 2 sq ++ [(localLevels x p).setWidth 8, BitVec.ofNat 8 chosenL]
      ++ beBytes 2 (x.netPort p).txWl ++ beBytes 4 a.nonce.toNat ++ beBytes 4 a.peerNonce.toNat ++ List.replicate 30 0
    (x.modAhnud p fun a => { a with seq := sq }).sendOwn 0 p 7 stampZero [(1, 0), (19, 14)] bytes

/-- The engine carries on the exchange on a port: it is the active, the port is up and ALLOWED is not 0. -/
def ahnudOn (x : Engine) (p : Nat) : Bool := x.core.role == 1 && decide (p < 32) && (x.port p).up && (x.port p).ahnud.allowed != 0

/-- Offering entered; with `fresh` the session's NONCE is new (a free value, never 0, R119), and an OFFER is sent. -/
def enterOffering (e : EngId) (p : Nat) (fresh : Bool) (s : State) : State :=
  let (n, s1) := if fresh then takeFree s else (0, s)
  s1.modEng e fun x =>
    sendAhnud p 1 0 (x.modAhnud p fun a =>
      if fresh then { a with state := 1, heard := false, nonce := word (1 + n % 4294967295), peerNonce := 0 }
      else { a with state := 1, heard := false })

/-- Fallback entered with a level (R121). -/
def enterFallback (e : EngId) (p l : Nat) (x : Engine) : Engine := setLevel e p l true (x.modAhnud p fun a => { a with state := 3 })

/-- The exchange begins on an up declaration (Table 3.11); ANEG_WAIT 0 enters Fallback at once. -/
def startAhnud (e : EngId) (p : Nat) (s : State) : State :=
  if ahnudOn (s.eng e) p then
    let s1 := enterOffering e p true (s.modEng e fun x => (levelMoved p 0 x).modAhnud p fun a => { a with level := 0, partner := none })
    if ((s1.eng e).port p).ahnud.waitMs = 0 then s1.modEng e fun x => enterFallback e p (fallbackLevel x p) x else s1
  else s

/-- LOCAL has changed on a port (R122): a level that has gone moves, and the exchange restarts. -/
def localChanged (e : EngId) (p : Nat) (s : State) : State :=
  let x := s.eng e
  if x.core.role != 1 || decide (p ≥ 32) || !(x.port p).up then s
  else if (x.port p).ahnud.allowed = 0 then
    s.modEng e fun x => setLevel e p 0 false (x.modAhnud p fun a => { a with state := 0 })
  else
    let a := (x.port p).ahnud
    let loc := localLevels x p
    let l := if hasLevel loc a.level then a.level else match a.partner with
      | some v => chosen loc v
      | none => highestLevel (levelsBelow loc a.level)
    enterOffering e p true (s.modEng e (setLevel e p l false))

/-- LOCAL has changed on every port: SYNT_FALLBACK has (R122). -/
def localsChanged (e : EngId) (s : State) : State := (List.range 32).foldl (fun t p => localChanged e p t) s

/-- The fields of an Ahnud frame the engine reads (R119, R123), from the bytes of a 64-byte frame without FCS. -/
structure AhnudMsg where
  version : Nat
  msg : Nat
  levels : BitVec 4
  chosenL : Nat
  wl : Nat
  nonce : Word
  peerNonce : Word

/-- Table 3.10 read. -/
def ahnudOf (bs : List Byte) : AhnudMsg :=
  { version := byteAt bs 14, msg := byteAt bs 15, levels := BitVec.ofNat 4 (byteAt bs 18), chosenL := byteAt bs 19 % 8,
    wl := half bs 20, nonce := word (bytesAt bs 22 4), peerNonce := word (bytesAt bs 26 4) }

/-- An accepted frame in Offering. -/
def ahnudOffering (e : EngId) (p : Nat) (m : AhnudMsg) (x : Engine) : Engine :=
  let y := x.modAhnud p fun a => { a with heard := true, peerNonce := m.nonce }
  let own := chosen (localLevels y p) m.levels
  if m.msg = 1 then sendAhnud p 2 own y
  else if m.msg = 2 ∧ m.peerNonce = (y.port p).ahnud.nonce ∧ m.chosenL = own then
    setLevel e p own true (y.modAhnud p fun a => { a with state := 2 })
  else y

/-- An accepted frame handled by the exchange of the active (Table 3.11, R122). The OFFER that takes Fallback to Offering counts as a frame received
since that entry (DESIGN CHOICE, log 161). -/
def ahnudHandle (e : EngId) (p : Nat) (m : AhnudMsg) (s : State) : State :=
  let x0 := s.eng e
  let a := (x0.port p).ahnud
  let s1 := s.modEng e fun x => x.modAhnud p fun a => { a with partner := some m.levels }
  let s2 := if m.msg = 1 ∧ hasLevel m.levels a.level = false then
      s1.modEng e fun x => setLevel e p (chosen (localLevels x p) m.levels) false x
    else s1
  match a.state with
  | 1 => s2.modEng e (ahnudOffering e p m)
  | 2 =>
    if m.nonce ≠ a.peerNonce ∨ (m.msg ≠ 1 ∧ m.chosenL ≠ a.level) then
      let s3 := enterOffering e p true s2
      if m.msg = 1 then s3.modEng e (ahnudOffering e p m) else s3
    else if m.msg = 1 then s2.modEng e fun x => sendAhnud p 3 (x.port p).ahnud.level x
    else s2
  | 3 =>
    let s3 := s2.modEng e fun x => x.modAhnud p fun a => { a with peerNonce := m.nonce }
    if m.msg = 1 then (enterOffering e p false s3).modEng e (ahnudOffering e p m) else s3
  | _ => s2

/-- An Ahnud frame at its tail (R123): discarded or accepted. It is read only on an up port, with the configured
EtherType and destination. -/
def ahnudFrame (e : EngId) (p : Nat) (bs : List Byte) (fcsOk : Bool) (s : State) : State :=
  let x := s.eng e
  if !(x.port p).up || bytesAt bs 0 6 != 0x0180C200000E || half bs 12 != x.ports.etype.toNat then s
  else
    let m := ahnudOf bs
    if !fcsOk || m.version == 0 || m.msg == 0 || decide (m.msg > 3) || m.nonce == 0 then s.modEng e fun x => x.bumpPort p 13
    else
      let s1 := s.modEng e fun x => judgeWl p m.wl (x.bumpPort p 12)
      if ahnudOn (s1.eng e) p then ahnudHandle e p m s1 else s1

/-- AHNUD_FRAME_RECEIVED (R121, R123). -/
def execAhnudFrameReceived (e : EngId) (port : Fin 32) (bytes : List Byte) (fcs : Word) (s : State) : Host.Outcome State Fault Refusal :=
  onEngine e s fun s =>
    let r := fcsOf bytes fcs
    ahnudFrame e port.val bytes (r == .good) (s.modEng e fun x => countFcs port.val r (rxCount port.val (bytes.length + 4) x))

/-- AHNUD_OFFER_TIMER: every 10 ms in Offering, every 1 s in Fallback. -/
def execAhnudOfferTimer (e : EngId) (port : Fin 32) (s : State) : Host.Outcome State Fault Refusal :=
  onEngine e s fun s => s.modEng e fun x =>
    let k := (x.port port.val).ahnud.state
    if ahnudOn x port.val && (k == 1 || k == 3) then sendAhnud port.val 1 0 x else x

/-- AHNUD_ANEG_WAIT: Fallback when nothing valid has been heard since Offering was entered. -/
def execAhnudAnegWait (e : EngId) (port : Fin 32) (s : State) : Host.Outcome State Fault Refusal :=
  onEngine e s fun s => s.modEng e fun x =>
    let a := (x.port port.val).ahnud
    if ahnudOn x port.val && a.state == 1 && !a.heard then enterFallback e port.val (fallbackLevel x port.val) x else x

/-- AHNUD_KEEP_TIMER: a KEEP every 1 s in Settled. -/
def execAhnudKeepTimer (e : EngId) (port : Fin 32) (s : State) : Host.Outcome State Fault Refusal :=
  onEngine e s fun s => s.modEng e fun x =>
    let a := (x.port port.val).ahnud
    if ahnudOn x port.val && a.state == 2 then sendAhnud port.val 3 a.level x else x

/-- AHNUD_PARTNER_TIMEOUT: 3 s without a valid frame in Settled. -/
def execAhnudPartnerTimeout (e : EngId) (port : Fin 32) (s : State) : Host.Outcome State Fault Refusal :=
  onEngine e s fun s => s.modEng e fun x =>
    let a := (x.port port.val).ahnud
    if ahnudOn x port.val && a.state == 2 then enterFallback e port.val (min (fallbackLevel x port.val) a.level) x else x

/-! ## Going down (R106, R115, R227) -/

/-- Every copy queued for a port, its residue copies apart. -/
def Engine.queuedFor (x : Engine) (p : Nat) : List Copy := (List.range 10).flatMap fun q => x.queue p q

/-- The queues of a port emptied. -/
def Engine.emptyQueues (x : Engine) (p : Nat) : Engine := (List.range 10).foldl (fun y q => y.setQueue p q []) x

/-- Every frame queued for a port flushed, counted in HOLD_FLUSH; how many. -/
def flushPort (part : Part) (e : EngId) (p : Nat) (x : Engine) : Nat × Engine :=
  let cs := x.queuedFor p
  (cs.length, discardAll part e 4 8 cs (x.emptyQueues p))

/-- A port's flow control as its going down leaves it (R227). -/
def clearFc (p : Nat) (x : Engine) : Engine :=
  let y := (List.range 8).foldl (fun y c => (y.countXoff p c).modIn p c fun a =>
    { a with xoff := false, ovf := if a.xoff then false else a.ovf }) x
  y.modFc p fun f => { f with timers := Vector.replicate 8 0, tripped := 0 }

/-- The residue copies of a port that goes down (R203). -/
def dropResidue (part : Part) (e : EngId) (p : Nat) (x : Engine) : Engine :=
  let (cs, y) := takeResidues (fun c => c.port == p) x
  discardAll part e 4 7 cs y

/-- The exchange, the meanLinkDelay (log 106) and the verification of a port that is down. -/
def portOff (p : Nat) (x : Engine) : Engine :=
  let y := ((levelMoved p 0 x).modNetPort p fun n => { n with mld := none }).modAhnud p fun a => { a with state := 0, level := 0, partner := none, heard := false }
  y.modEgPort p fun g => { g with preempt := restartVerify false g.preempt }

/-- The hold of a port expires (R116). -/
def expireHold (part : Part) (e : EngId) (p : Nat) (x : Engine) : Engine :=
  let (_, y) := flushPort part e p x
  portRecord e p 4 (y.port p).cause (y.modPort p fun q => { q with holding := false })

/-- A frame that is arriving on a port that goes down is bad from then on (R195, Table 6.8 cause 6). -/
def cutArriving (part : Part) (e : EngId) (p : Nat) (x : Engine) : Engine :=
  match findAt p x.buf.arriving with
  | some a => if a.kind == .data then markBad part e 6 a.frame x else x
  | none => x

/-- A port that is up goes down with a CAUSE code: its transmission is cut, its hold starts (R106, R115, R198), and the frame on its way
in is bad. A hold of 0 expires at once. All but lost alignment, hi_ber and Remote Fault lose the block lock, which ends the phase unwrap (R265). -/
def goDown (part : Part) (e : EngId) (p cause : Nat) (hold : Bool) (x : Engine) : Engine :=
  if !(x.port p).up then x
  else
    let y := x.modPort p fun q =>
      { q with up := false, cause := cause, debounce := false, holding := hold && q.holdUs != 0, holdStart := x.time.now16 }
    let u := if cause = 4 ∨ cause = 5 ∨ cause = 6 then y else restartUnwrap p y
    let z := noteLink p (clearFc p (portOff p (dropResidue part e p (cutArriving part e p (cutPort part e p (u.bumpPort p 6))))))
    let r := if p ≥ 32 then z else
      { z with refs := { z.refs with refs := vmodN z.refs.refs (8 + p) fun r => { r with signal := false, lost := true } } }
    let w := portRecord e p 1 cause r
    if hold && (x.port p).holdUs == 0 then expireHold part e p w else w

/-! ## Coming up (R108, R117) -/

/-- The sweep of the held frames (R117). -/
def sweep (part : Part) (e : EngId) (p : Nat) (x : Engine) : Engine :=
  let now := x.time.now16
  let late (c : Copy) : Bool := match c.launch with
    | some t => decide (t < now)
    | none => false
  let aged (c : Copy) : Bool :=
    let a := look 0 (8 * p + c.queue) x.buf.ages
    c.launch.isNone && decide (c.queue < 8) && a != 0 && decide (now > c.enq + a * us16)
  let all := x.queuedFor p
  let y := (List.range 10).foldl (fun y q => y.setQueue p q ((y.queue p q).filter fun c => !late c && !aged c)) x
  let y1 := discardAll part e 6 9 (all.filter late) y
  let y2 := discardAll part e 5 10 (all.filter aged) y1
  y2.bumpN (portCtr p 11) (all.filter fun c => !late c && !aged c).length

/-- A port declared up (R108): the hold ends with its sweep, verification and the Ahnud exchange begin. -/
def goUp (e : EngId) (p : Nat) (s : State) : State :=
  let s1 := s.modEng e fun x =>
    let held := (x.port p).holding
    let y := noteLink p (x.modPort p fun q => { q with up := true, cause := 0, debounce := false })
    let z := portRecord e p 2 0 y
    let w := if held then (portRecord e p 5 0 (sweep s.part e p z)).modPort p fun q => { q with holding := false } else z
    let v := w.modEgPort p fun g => { g with preempt := restartVerify true g.preempt }
    if p ≥ 32 then v else
      { v with refs := { v.refs with refs := vmodN v.refs.refs (8 + p) fun r => { r with signal := true } } }
  startAhnud e p s1

/-- Every up condition of a port is met, and no negotiation, training or detection is under way or has failed. -/
def upReady (x : Engine) (p : Nat) : Bool :=
  let q := x.port p
  if p = 32 then x.host.pcieUp && [2, 5, 6].all fun r => (x.ring r).enabled && !(x.ring r).stopped
  else q.mode != 0 && decide (q.modeNow ≤ 10) && !q.unsupported && firstUnmet q == 0
    && (match q.anState with
        | 0 => q.cause != 7 && q.cause != 8
        | 2 => q.cause != 7
        | _ => false) && !x.unused p

/-- The port runs Clause 37 or the SGMII exchange (R104, R105): MODE 1, MODE 2, or MODE 13 settled on 1000BASE-X. A MODE 11
port resolved to 1000BASE-KX does not. -/
def wordExchange (q : PortState) : Bool := q.mode == 1 || q.mode == 2 || (q.mode == 13 && q.modeNow == 1)

/-- A loss of signal or synchronisation restarts Clause 37 and the SGMII exchange. -/
def reExchange (q : PortState) : PortState :=
  if wordExchange q && !(q.signal && q.lock) then
    { q with anState := if q.anState = 2 then 1 else q.anState, unsupported := false }
  else q

/-- CAUSE of a port that is down and whose debounce does not run (R108). Clause 37 and the SGMII exchange run once
synchronisation holds. -/
def downCause (x : Engine) (p : Nat) : Nat :=
  let q := x.port p
  if q.mode = 0 then 1
  else if q.anState = 3 then 8
  else if q.unsupported then 10
  else if q.cause = 7 ∧ wordExchange q = false then 7
  else
    let u := firstUnmet q
    if u = 0 ∧ q.anState = 1 then 7 else u

/-- A down port judged: debounce starts, restarts or is lost, and CAUSE moves (R108); with UP_DEBOUNCE 0 it is up. -/
def settle (e : EngId) (p : Nat) (s : State) : State :=
  let x := s.eng e
  if (x.port p).up then s
  else if upReady x p then
    let s1 := s.modEng e fun x => x.modPort p fun q => { q with debounce := true, cause := 11 }
    if (x.port p).debounceUs = 0 then goUp e p s1 else s1
  else s.modEng e fun x => x.modPort p fun q => { q with debounce := false, cause := downCause x p }

/-- The CAUSE code of R106 for a cause, where it can take down a port in its mode; none where it cannot. -/
def downCode (m : Nat) : DownCause → Option Nat
  | .signal => some 2
  | .blockLock => some 3
  | .alignment => if needsAlign m then some 4 else none
  | .hiBer => if m ≥ 4 then some 5 else none
  | .remoteFault => some 6
  | _ => none

/-- The PCS as a cause leaves it. -/
def pcsLost (k : DownCause) (q : PortState) : PortState :=
  match k with
  | .signal => { q with signal := false, lock := false, aligned := false }
  | .blockLock => { q with lock := false, aligned := false }
  | .alignment => { q with aligned := false }
  | .hiBer => { q with hiBer := true }
  | .remoteFault => { q with remote := true }
  | .ability => { q with unsupported := true }
  | _ => q

/-- A host port's CAUSE (R111) for what took it down, as the engine then stands. -/
def hostCause (p : Nat) (k : DownCause) (x : Engine) : Option Nat :=
  if p = 32 then (if k = .pcieLink || !x.host.pcieUp then some 2 else if upReady x 32 then none else some 1)
  else match k with
    | .signal => some 2
    | .blockLock => some 3
    | .ability => some 10
    | _ => none

/-- A port of either kind goes down on a cause. An ability that is not supported takes no front port down (R106); one that is down stays
so with CAUSE 10 (R104). -/
def portDown (e : EngId) (p : Nat) (k : DownCause) (s : State) : State :=
  let x0 := s.eng e
  let x := if p = 32 ∧ k = .pcieLink then stopRings x0 else x0
  let code := if p ≥ 32 then hostCause p k x else downCode (x.port p).modeNow k
  match code with
  | none => if k = .ability ∧ p < 32 ∧ (x.port p).up = false ∧ wordExchange (x.port p) = true then settle e p (s.setEng e (x.modPort p (pcsLost k))) else s
  | some c =>
    let lose (q : PortState) : PortState := if p < 32 then reExchange (pcsLost k q) else pcsLost k q
    if (x.port p).up then s.setEng e ((goDown s.part e p c true x).modPort p lose)
    else settle e p (s.setEng e (x.modPort p lose))

/-- H0 judged against its condition: down when a ring or the PCIe link has gone, debounce when all are there (R111). -/
def judgeH0 (e : EngId) (s : State) : State :=
  let x := s.eng e
  if (x.port 32).up then
    if upReady x 32 then s else s.setEng e (goDown s.part e 32 (if x.host.pcieUp then 1 else 2) true x)
  else settle e 32 s

/-! ## Events of the link -/

/-- PORT_DOWN (R106). -/
def execPortDown (e : EngId) (port : Fin 34) (cause : DownCause) (s : State) : Host.Outcome State Fault Refusal :=
  onEngine e s fun s => if portFitted s.part port.val then portDown e port.val cause s else s

/-- HOST_PORT_DOWN (R111). -/
def execHostPortDown (e : EngId) (h1 : Bool) (cause : DownCause) (s : State) : Host.Outcome State Fault Refusal :=
  onEngine e s (portDown e (if h1 then 33 else 32) cause)

/-- PORT_UP_CONDITION (R108): the PCS has reached the up condition, and debounce starts. -/
def execPortUpCondition (e : EngId) (port : Fin 34) (s : State) : Host.Outcome State Fault Refusal :=
  onEngine e s fun s =>
    let p := port.val
    let met (q : PortState) : PortState := { q with signal := true, lock := true, aligned := true, remote := false, hiBer := false }
    if ((s.eng e).port p).up || !portFitted s.part p then s else settle e p (s.modEng e fun x => if p = 32 then x else x.modPort p met)

/-- PORT_UP (R108): UP_DEBOUNCE has run out with the condition held. -/
def execPortUp (e : EngId) (port : Fin 34) (s : State) : Host.Outcome State Fault Refusal :=
  onEngine e s fun s => if ((s.eng e).port port.val).debounce then goUp e port.val s else s

/-- HOST_PORT_UP (R111). -/
def execHostPortUp (e : EngId) (h1 : Bool) (s : State) : Host.Outcome State Fault Refusal :=
  onEngine e s fun s =>
    let p := if h1 then 33 else 32
    if ((s.eng e).port p).debounce then goUp e p s else s

/-- HOST_LINK_RETURN (R111). -/
def execHostLinkReturn (e : EngId) (h1 : Bool) (s : State) : Host.Outcome State Fault Refusal :=
  onEngine e s fun s =>
    if h1 then settle e 33 (s.modEng e fun x => x.modPort 33 fun q => { q with signal := true, lock := true, unsupported := false })
    else settle e 32 (s.modEng e fun x => { x with host := { x.host with pcieUp := true } })

/-- HOLD_EXPIRY (R116). -/
def execHoldExpiry (e : EngId) (port : Fin 34) (s : State) : Host.Outcome State Fault Refusal :=
  onEngine e s fun s =>
    let q := (s.eng e).port port.val
    if q.holding then (passTo e (q.holdStart + q.holdUs * us16) s).modEng e (expireHold s.part e port.val) else s

/-- A PCS condition set. -/
def setCond (k : PcsCond) (met : Bool) (q : PortState) : PortState :=
  match k with
  | .signal => { q with signal := met, lock := met && q.lock, aligned := met && q.aligned }
  | .blockLock => { q with lock := met, aligned := met && q.aligned }
  | .alignment => { q with aligned := met }
  | .remoteFault => { q with remote := met }
  | .hiBer => { q with hiBer := met }

/-- BLOCK_LOCK_CHANGE (R108): a condition of a port's PCS comes or goes while the port is down; a loss restarts Clause 37
and the SGMII exchange. -/
def execBlockLockChange (e : EngId) (port : Fin 34) (cond : PcsCond) (met : Bool) (s : State) : Host.Outcome State Fault Refusal :=
  onEngine e s fun s =>
    let p := port.val
    let again (q : PortState) : PortState := if p < 32 then reExchange q else q
    if ((s.eng e).port p).up || p == 32 || !portFitted s.part p then s
    else settle e p (s.modEng e fun x => x.modPort p fun q => again (setCond cond met q))

/-! ## Negotiation, training and detection (R102-R105) -/

/-- What the partner's pause ability leaves of PAUSE (R222). -/
def judgePause (p : Nat) (pause : Bool) (x : Engine) : Engine := x.modFc p fun f => pauseJudged { f with peerPause := some pause }

/-- The pause ability that a port advertises in MODE 1 and in the base page of MODE 11 and MODE 12 (R222): symmetric PAUSE with FC_MODE 1,
no asymmetric direction ever. -/
def Engine.offersPause (x : Engine) (p : Nat) : Bool :=
  let m := (x.port p).mode
  (m == 1 || m == 11 || m == 12) && (x.fc p).mode == 1

/-- The highest common technology of two abilities in ADVERT's coding, whose bits rise in the priority order of Clause 73:
1000BASE-KX, 10GBASE-KR, 25GBASE-KR-S or CR-S, 25GBASE-KR or CR, 40GBASE-KR4, 40GBASE-CR4, 100GBASE-KR4, 100GBASE-CR4
(PRESUMED, log 126). -/
def commonTech (own partner : BitVec 8) : Option Nat :=
  ((List.range 8).reverse).find? fun i => own.getLsbD i && partner.getLsbD i

/-- The fixed mode of a technology (Table 3.1), with the FEC that Clause 73 resolves for 25 Gb/s: RS-FEC if either side
requests it, else Clause 74 if either requests that; the -S technologies have Clause 74 alone (PRESUMED, log 126). -/
def techMode (fecReq : Nat) (rsFec baseRFec : Bool) (tech : Nat) : Nat :=
  let rs := rsFec || decide (fecReq ≥ 2)
  let baseR := baseRFec || fecReq == 1 || fecReq == 3
  if tech = 0 then 1
  else if tech = 1 then 4
  else if tech = 2 then (if rs || baseR then 6 else 5)
  else if tech = 3 then (if rs then 7 else if baseR then 6 else 5)
  else if tech ≤ 5 then 8
  else 10

/-- The mode that Clause 73 resolves on a port in MODE 11 or 12 (R102). -/
def resolvedMode (q : PortState) (k : AnPartner) : Option Nat :=
  if q.mode = 11 ∨ q.mode = 12 then (commonTech q.advert k.techs).map (techMode q.fecReq k.rsFec k.baseRFec) else none

/-- AN_RESOLVED (R102): MODE_NOW is the mode that resulted, AN_STATE reads 2, training runs. With no technology in common
nothing is resolved, and the failure of R103 is to come. -/
def execAnResolved (e : EngId) (port : Fin 34) (partner : AnPartner) (pause : Bool) (s : State) : Host.Outcome State Fault Refusal :=
  onEngine e s fun s => s.modEng e fun x =>
    let q := x.port port.val
    match resolvedMode q partner with
    | some m =>
      if port.val < 32 ∧ q.up = false ∧ q.anState = 1 then
        judgePause port.val pause (enterCoding port.val (x.modPort port.val fun q =>
          { q with modeNow := m, fecNow := fecOf m, anState := 2, cause := 7 }))
      else x
    | none => x

/-- LINK_TRAINING_COMPLETE (R103, R104): training, Clause 37 or the SGMII exchange is over. While the port is down a later word of the
partner counts in place of the one before: one that is not supported begins CAUSE 10, one that is ends it. -/
def execLinkTrainingComplete (e : EngId) (port : Fin 34) (supported pause : Bool) (s : State) : Host.Outcome State Fault Refusal :=
  onEngine e s fun s =>
    let p := port.val
    let q := (s.eng e).port p
    if p ≥ 32 ∨ q.up ∨ q.mode = 0 ∨ q.modeNow > 10 ∨ q.anState = 3
        ∨ (wordExchange q = false ∧ q.anState ≠ 1 ∧ q.cause ≠ 7 ∧ q.unsupported = false) then s
    else settle e p (s.modEng e fun x =>
      let y := if q.modeNow = 1 ∧ wordExchange q then judgePause p pause x else x
      y.modPort p fun q => { q with anState := if q.anState = 1 then 2 else q.anState, unsupported := !supported, cause := 2 })

/-- AN_FAILURE (R103): AN_STATE 3, CAUSE 8. -/
def execAnFailure (e : EngId) (port : Fin 34) (s : State) : Host.Outcome State Fault Refusal :=
  onEngine e s fun s => s.modEng e fun x =>
    let q := x.port port.val
    if port.val < 32 ∧ q.up = false ∧ (q.mode ≠ 13 ∨ q.modeNow = 1) ∧ (q.anState = 1 ∨ q.cause = 7) then
      x.modPort port.val fun q => { q with anState := 3, cause := 8, debounce := false }
    else x

/-- AN_STATE and MODE_NOW as negotiation, training or detection begins (R102, R105): fixed modes without any leave it 0. -/
def freshAn (q : PortState) : PortState :=
  let runs := decide (q.mode ≥ 11) || q.train
  { q with modeNow := q.mode, fecNow := fecOf q.mode, anState := if q.mode = 1 ∨ q.mode = 2 ∨ q.mode = 11 ∨ q.mode = 12 ∨ q.train then 1 else 0,
           candidate := 0, unsupported := false, lock := false, aligned := false, remote := false, hiBer := false,
           cause := if q.mode = 0 then 1 else if runs then 7 else if q.signal then 3 else 2 }

/-- Clause 37 or the SGMII exchange begun anew: the receiver keeps its synchronisation, and MODE 13 stays on 1000BASE-X. -/
def freshExchange (q : PortState) : PortState :=
  let r := { q with anState := 1, unsupported := false }
  { r with cause := if firstUnmet r = 0 then 7 else firstUnmet r }

/-- Negotiation restarted, AN_RESTARTS + 1 (R103, R110). -/
def restartAn (p : Nat) (x : Engine) : Engine :=
  x.modPort p fun q => { (if wordExchange q then freshExchange q else freshAn q) with anRestarts := (q.anRestarts + 1) % 256 }

/-- AN_RESTART (R103): 100 ms after a failure. -/
def execAnRestart (e : EngId) (port : Fin 34) (s : State) : Host.Outcome State Fault Refusal :=
  onEngine e s fun s => s.modEng e fun x =>
    if port.val < 32 ∧ (x.port port.val).anState = 3 ∧ (x.port port.val).up = false then restartAn port.val x else x

/-- The candidates of MODE 13 in their order (R105). -/
def candidates (q : PortState) : List Nat :=
  (if q.advert.getLsbD 3 then [5 + q.fecReq] else []) ++ (if q.advert.getLsbD 1 then [4] else []) ++ (if q.advert.getLsbD 0 then [1] else [])

/-- PARALLEL_DETECT_STEP (R105): the port settles on its candidate, or tries the next. -/
def execParallelDetectStep (e : EngId) (port : Fin 34) (locked : Bool) (s : State) : Host.Outcome State Fault Refusal :=
  onEngine e s fun s =>
    let p := port.val
    let q := (s.eng e).port p
    let cs := candidates q
    if p ≥ 32 ∨ q.up ∨ q.mode ≠ 13 ∨ q.modeNow ≠ 13 ∨ cs = [] then s
    else if locked then
      let m := cs.getD q.candidate 1
      settle e p (s.modEng e fun x => enterCoding p (x.modPort p fun q =>
        { q with modeNow := m, fecNow := fecOf m, signal := true, lock := true, anState := if m = 1 then 1 else 0, cause := 2 }))
    else s.modEng e fun x => x.modPort p fun q => { q with candidate := (q.candidate + 1) % cs.length, cause := 7 }

/-! ## Register clears -/

/-- Bits of PORT_LINK_CHG written 1. -/
def execPortLinkChgClear (e : EngId) (mask : Word) (s : State) : Host.Outcome State Fault Refusal :=
  onEngine e s fun s => s.modEng e fun x =>
    (List.range 32).foldl (fun y p => if flag mask p then y.modPort p fun q => { q with chg := false } else y) x

/-- H0_CHG (bit 2) and H1_CHG (bit 3) written 1. -/
def execHostLinkChgClear (e : EngId) (mask : Word) (s : State) : Host.Outcome State Fault Refusal :=
  onEngine e s fun s => s.modEng e fun x =>
    let y := if flag mask 2 then x.modPort 32 fun q => { q with chg := false } else x
    if flag mask 3 then y.modPort 33 fun q => { q with chg := false } else y

/-! ## PORT commands -/

/-- The bits of ADVERT that a mode allows (Table 3.5). -/
def advertMask (m : Nat) : Nat := if m = 11 then 0x0F else if m = 12 then 0xF0 else if m = 13 then 0x0B else 0

/-- The values PORT.SET_MODE refuses (Table 3.7). -/
def setModeBad (ps : List Word) : Bool :=
  let p := field (par ps 0) 5 0
  let w := par ps 1
  let m := field w 3 0
  let adv := field w 23 16
  let fec := field w 9 8
  let addr := field (par ps 2) 15 0 * 2 ^ 32 + (par ps 3).toNat
  decide (p > 31) || decide (m > 13) || (groupedMode m && p % 4 != 0) || (adv ||| advertMask m) != advertMask m
    || (decide (m ≥ 11) && adv == 0) || (m == 13 && fec == 3) || (decide (m ≤ 10) && fec != 0)
    || (flag w 30 && (decide (m < 4) || decide (m > 10))) || (m != 0 && (addr == 0 || addr / 2 ^ 40 % 2 == 1))

/-- The mode of a port set anew: down without a hold, flushed, negotiation begun (R114). -/
def changeMode (part : Part) (e : EngId) (p : Nat) (w : Word) (x : Engine) : Nat × Engine :=
  let set (q : PortState) : PortState :=
    { freshAn { q with mode := field w 3 0, train := flag w 30, advert := BitVec.ofNat 8 (field w 23 16), fecReq := field w 9 8 } with
      anRestarts := 0, debounce := false, holding := false }
  let cause := (set (x.port p)).cause
  let (n, y) := flushPort part e p (goDown part e p cause false x)
  (n, recomputeHr part (some p) ((enterCoding p (y.modPort p set)).modFc p fun f => pauseJudged { f with peerPause := none }))

/-- PORT.SET_MODE (R114). MODE_BEFORE is the MODE configured before, 11 to 13 also after it has resolved (DEDUCED, log 129). -/
def portSetModeSpec : CmdSpec :=
  { portSpec 0x0201 (lenIs 4) (fun ps => zeroBits ps 0 31 6 && zeroBits ps 1 29 24 && zeroBits ps 1 15 10 && zeroBits ps 1 7 4 && zeroBits ps 2 31 16)
      (fun ps => field (par ps 0) 5 0) (fun _ ps _ => rangeIf (setModeBad ps))
      (fun c ps s =>
        let p := field (par ps 0) 5 0
        let x := s.eng c.eng
        statusIf (groupedMode (field (par ps 1) 3 0) && [1, 2, 3].any fun i => (x.port (p + i)).mode != 0) .state)
      (fun c ps s =>
        let p := field (par ps 0) 5 0
        let w := par ps 1
        let x := s.eng c.eng
        let q := x.port p
        let same := q.mode == field w 3 0 && q.train == flag w 30 && q.advert.toNat == field w 23 16 && q.fecReq == field w 9 8 && !flag w 31
        let (n, y) := if same then (0, x) else changeMode s.part c.eng p w x
        let z := y.modPort p fun q => { q with addr := BitVec.ofNat 48 (field (par ps 2) 15 0 * 2 ^ 32 + (par ps 3).toNat) }
        .now (s.setEng c.eng z) [pack [(q.mode, 4), (field w 3 0, 0)], word n]) with
    absent := fun part ps =>
      let p := field (par ps 0) 5 0
      absentPort part p || (groupedMode (field (par ps 1) 3 0) && p % 4 == 0 && decide (p < 32) && !groupFitted part (p / 4)) }

/-- PORT.SET_LINK_TIMERS (Table 3.8): a hold already running takes the new time, and ends when it has passed. -/
def portSetLinkTimersSpec : CmdSpec :=
  portSpec 0x0202 (lenIs 3) (fun ps => zeroBits ps 0 31 6) (fun ps => field (par ps 0) 5 0)
    (fun _ ps _ => rangeIf (decide (field (par ps 0) 5 0 > 33) || decide ((par ps 1).toNat > 10000000) || decide ((par ps 2).toNat > 1000000)))
    neverJudge
    (fun c ps s => onSelf c (fun x =>
      let p := field (par ps 0) 5 0
      let y := x.modPort p fun q => { q with holdUs := (par ps 1).toNat, debounceUs := (par ps 2).toNat }
      let q := y.port p
      if q.holding && decide (q.holdStart + q.holdUs * us16 ≤ y.time.now16) then expireHold s.part c.eng p y else y) s)

/-- PORT.SET_TIME_LEVELS (Table 3.12). -/
def portSetTimeLevelsSpec : CmdSpec :=
  portSpec 0x0203 (lenIs 2) (fun ps => zeroBits ps 0 31 16 && zeroBits ps 0 11 11 && zeroBits ps 0 7 6)
    (fun ps => field (par ps 0) 5 0)
    (fun _ ps _ =>
      let f := field (par ps 0) 10 8
      rangeIf (decide (field (par ps 0) 5 0 > 31) || decide (f ≥ 4) || !hasLevel (BitVec.ofNat 4 (field (par ps 0) 15 12)) f
        || decide ((par ps 1).toNat > 60000)))
    neverJudge
    (fun c ps s =>
      let p := field (par ps 0) 5 0
      let new := BitVec.ofNat 4 (field (par ps 0) 15 12)
      let was := ((s.eng c.eng).port p).ahnud.allowed
      let s1 := s.modEng c.eng fun x => x.modAhnud p fun a =>
        { a with allowed := new, fallback := field (par ps 0) 10 8, waitMs := (par ps 1).toNat }
      .now (if was = new then s1 else localChanged c.eng p s1) [])

/-- PORT.SET_AHNUD_ETYPE (R124, R139). -/
def portSetAhnudEtypeSpec : CmdSpec :=
  configSpec 0x0204 (lenIs 1) (fun ps => zeroBits ps 0 31 16)
    (fun c ps s =>
      let v := field (par ps 0) 15 0
      rangeIf (decide (v < 0x0600) || (etypeTaken (s.eng c.eng).parser v && v != (s.eng c.eng).ports.etype.toNat)))
    neverJudge
    (fun c ps s =>
      let old := (s.eng c.eng).ports.etype
      let v := field (par ps 0) 15 0
      let s1 := s.modEng c.eng fun x =>
        { x with ports := { x.ports with etype := BitVec.ofNat 16 v }, parser := retypeGraphs v x.parser }
      let again (t : State) (p : Nat) : State := if ahnudOn (t.eng c.eng) p then enterOffering c.eng p true t else t
      .now ((List.range 32).foldl again s1) [old.setWidth 32])

end Sys2Proof.Machine
end

