-- ==== Sys2Proof/Machine/Crossing.lean ====
section
/-! DEFINITION. The Crossing: its channels' stalls, speed monitors and the cut-through enables (R177-R186, R194). -/

namespace Sys2Proof.Machine

/-- FLOOR of a pace (Table 6.3): Balanced is 0, Express 1, Frugal 2. -/
def paceFloor (p : BitVec 2) : Nat := if p = 1 then 1000 else if p = 0 then 625 else 358

/-- AT_CEILING (Table 1.9): VCORE stands at 0.900 V and a monitor reads below the floor. -/
def atCeiling (x : Engine) : Bool := x.pace.vcoreMv == 900 && decide (x.ports.minSpeed < paceFloor x.pace.pace)

/-- A value put into a rising list. -/
def insertSorted (n : Nat) : List Nat → List Nat
  | [] => [n]
  | m :: rest => if n ≤ m then n :: m :: rest else m :: insertSorted n rest

/-- Twice the median of a list; of an even number of values the mean of the middle two counts (log 26). -/
def median2 (l : List Nat) : Nat :=
  let q := l.foldr insertSorted []
  let n := q.length
  if n = 0 then 0 else if n % 2 = 1 then 2 * q.getD (n / 2) 0 else q.getD (n / 2 - 1) 0 + q.getD (n / 2) 0

/-- One window of a monitor judged against twice the median (R185). -/
def judgeMonitor (m2 floor speed : Nat) (m : Monitor) : Monitor :=
  let d2 := if 2 * speed ≥ m2 then 2 * speed - m2 else m2 - 2 * speed
  let n : Monitor := { m with speed := speed, valid := true, low := min m.low speed, below := decide (speed < floor),
                              stuck := if speed = 0 ∨ speed = 4095 then m.stuck + 1 else 0 }
  if m.excl then
    let g := if d2 * 10 ≤ m2 then m.good + 1 else 0
    if g ≥ 1000 then { n with excl := false, good := 0, bad := 0 } else { n with good := g }
  else
    let b := if d2 * 4 > m2 then m.bad + 1 else 0
    if b ≥ 16 ∨ n.stuck ≥ 4 then { n with excl := true, good := 0, bad := 0 } else { n with bad := b }

/-- EXCLUDED of 0x0504. -/
def exclMask (ms : List Monitor) : Nat := ((List.range 12).map fun k => match ms[k]? with
  | some m => bit m.excl * 2 ^ k
  | none => 0).sum

/-- The monitors excluded. -/
def exclCount (ms : List Monitor) : Nat := (ms.filter fun m => m.excl).length

/-- A 1 us window of every monitor (R183, R185). -/
def monitorWindow (part : Part) (speeds : Vector Nat 12) (x : Engine) : Engine :=
  let old := x.ports.monitors
  let ks := (List.range 12).filter (monitorPresent part)
  let at_ (k : Nat) : Nat := min 4095 (vget speeds 0 k)
  let used := ks.filter fun k => !(vget old monitorReset k).excl
  let m2 := median2 (used.map at_)
  let floor := paceFloor x.pace.pace
  let new := ks.foldl (fun v k => vmodN v k (judgeMonitor m2 floor (at_ k))) old
  let inc := ks.filter fun k => !(vget new monitorReset k).excl
  let low := match inc.map at_ with
    | [] => 0
    | a :: rest => rest.foldl min a
  let y : Engine := { x with ports := { x.ports with monitors := new, minSpeed := low, awaitWindow := false } }
  let fresh := ks.filter fun k => (vget new monitorReset k).excl && !(vget old monitorReset k).excl
  let told (k : Nat) (y : Engine) : Engine := y.raise 0x04 0x01 1 (word k)
  let z := match fresh with
    | [] => y
    | a :: rest => rest.foldl (fun y k => y.raiseNext 0x04 0x01 1 (word k)) (told a y)
  if exclCount new.toList > 2 then
    if x.ports.lostEpisode then z
    else
      let w : Engine := { z with ports := { z.ports with lostEpisode := true, vcoreHold := true },
                                 pace := { z.pace with vcoreMv := 900, settled := false } }
      if fresh.isEmpty then w.raise 0x04 0x02 2 (word (exclMask new.toList)) else w.raiseNext 0x04 0x02 2 (word (exclMask new.toList))
  else { z with ports := { z.ports with lostEpisode := false } }

/-- The monitors of an engine restarted: nothing excluded, the hold of VCORE ended (R185). -/
def restartMonitors (x : Engine) : Engine :=
  let again (m : Monitor) : Monitor := { m with excl := false, good := 0, bad := 0, stuck := 0 }
  { x with ports := { x.ports with monitors := x.ports.monitors.map again, lostEpisode := false, vcoreHold := false } }

/-- The monitor registers (Table 6.5) and STOMP_LAST. -/
def crossReg (x : Engine) (off : Nat) : Option Word :=
  let ms := x.ports.monitors.toList
  if off = 0x0500 then some (pack [(paceFloor x.pace.pace, 20), (x.ports.minSpeed, 8), (exclCount ms, 0)])
  else if off = 0x0504 then
    let below := ((List.range 12).map fun k => match ms[k]? with
      | some m => bit m.below * 2 ^ k
      | none => 0).sum
    some (pack [(below, 16), (exclMask ms, 0)])
  else if off = 0x0508 then some x.ports.stomp
  else if off ≥ 0x0510 ∧ off < 0x0510 + 4 * 12 ∧ off % 4 = 0 then
    match ms[(off - 0x0510) / 4]? with
    | some m => some (pack [(bit m.valid, 31), (bit m.excl, 30), (m.low, 16), (m.speed, 0)])
    | none => none
  else none

/-- A read of a monitor register sets its LOW to 4,095 (R186). -/
def readMonitor (k : Nat) (x : Engine) : Engine :=
  { x with ports := { x.ports with monitors := vmodN x.ports.monitors k fun m => { m with low := 4095 } } }

/-- A window of the monitors of an engine held in reset, which reports nothing. -/
def heldWindow (part : Part) (speeds : Vector Nat 12) (x : Engine) : Engine :=
  let y := monitorWindow part speeds x
  { x with ports := y.ports, pace := y.pace }

/-- SPEED_MONITOR_WINDOW (R183, R185). -/
def execSpeedMonitorWindow (e : EngId) (speeds : Vector Nat 12) (s : State) : Host.Outcome State Fault Refusal :=
  if heldPowered e s then .next (s.modEng e (heldWindow s.part speeds))
  else onEngine e s fun s => s.modEng e (monitorWindow s.part speeds)

/-- MONITOR_REG_READ (R186). -/
def execMonitorRegRead (e : EngId) (k : Fin 12) (s : State) : Host.Outcome State Fault Refusal :=
  onEngine e s fun s => s.modEng e (readMonitor k.val)

/-- CROSS_STALL (R182): a channel of the part is stalled. -/
def execCrossStall (e : EngId) (channel : Fin 10) (s : State) : Host.Outcome State Fault Refusal :=
  onEngine e s fun s => s.modEng e fun x =>
    if monitorPresent s.part channel.val then x.raise 0x04 0x04 3 (word channel.val) else x

/-- PORT.SET_CUT_THROUGH (R194). -/
def portSetCutThroughSpec : CmdSpec :=
  portSpec 0x0205 (lenIs 1) (fun ps => zeroBits ps 0 31 10 && zeroBits ps 0 7 6) (fun ps => field (par ps 0) 5 0)
    (fun _ ps _ =>
      let p := field (par ps 0) 5 0
      rangeIf (decide (p > 33) || (flag (par ps 0) 8 && decide (p ≥ 32))))
    neverJudge
    (fun c ps s => onSelf c (fun x =>
      let p := field (par ps 0) 5 0
      let set (v : BitVec 34) (b : Bool) : BitVec 34 := if b then v ||| portBit p else v &&& ~~~(portBit p)
      { x with ports := { x.ports with ctIn := set x.ports.ctIn (flag (par ps 0) 9), ctOut := set x.ports.ctOut (flag (par ps 0) 8) } }) s)

end Sys2Proof.Machine
end

