-- ==== Sys2Proof/Machine/Clocks.lean ====
section
/-! DEFINITION. Clock domains, their locks and losses, SYN-T's fallback and return, the pace governor and SYS.SET_PACE
(R48-R63, R68, R315, R316, R429). -/

namespace Sys2Proof.Machine

/-! ## Locks and losses (R51-R53) -/

/-- One bit of DOMAIN_LOCK set or cleared. -/
def setLock (i : Nat) (on : Bool) (x : Engine) : Engine :=
  { x with clk := { x.clk with lock := if on then x.clk.lock ||| (1#16 <<< i) else x.clk.lock &&& ~~~(1#16 <<< i) } }

/-- One bit of DOMAIN_LOSS set (Table 1.7); CLOCK interrupts. -/
def setLoss (i : Nat) (x : Engine) : Engine :=
  Engine.edge { x with clk := { x.clk with loss := x.clk.loss ||| (1#16 <<< i) } } (decide (x.clk.loss ≠ 0)) true 7

/-- A loop's lock is lost, or found again: what it feeds is squelched or held low meanwhile (Table 1.5, R358). -/
def setLost (i : Nat) (on : Bool) (x : Engine) : Engine :=
  { x with clk := { x.clk with lost := if on then x.clk.lost ||| (1#16 <<< i) else x.clk.lost &&& ~~~(1#16 <<< i) } }

/-- The bit of a loop in both registers. -/
def loopBit : Loop → Nat
  | .synt => 0
  | .txg g => 1 + g.val
  | .host => 5
  | .synm => 6
  | .syno k => 7 + k.val
  | .fof => 11

/-- A loop is present on a part (Table 1.5). -/
def loopPresent (p : Part) : Loop → Bool
  | .txg g => underpassPart p || g.val < 2
  | .fof => twinPart p
  | _ => true

/-- No windows judged yet. -/
def judgeZero : LoopJudge := { good := 0, bad := 0, fineGood := 0, fineLost := false }

/-- The judgement of a loop. -/
def Engine.judge (x : Engine) (l : Loop) : LoopJudge := look judgeZero (loopBit l) x.clk.judges

/-- The judgement of a loop changed. -/
def Engine.setJudge (x : Engine) (l : Loop) (j : LoopJudge) : Engine :=
  { x with clk := { x.clk with judges := put judgeZero (loopBit l) j x.clk.judges } }

/-- What a window declares. -/
inductive Verdict where
  | nothing
  | locked
  | lost
deriving DecidableEq, Repr

/-- An 8 us window of a loop; `dev` is the deviation of the ratio in parts per 10^12 (R51). With SYN-T locked its loss episode is over
(R316). -/
def analogWindow (l : Loop) (dev : Int) (x : Engine) : Engine × Verdict :=
  let j := x.judge l
  let locked := x.clk.lock.getLsbD (loopBit l)
  let d := dev.natAbs
  if d ≤ 20000000 then
    let n : LoopJudge := { j with good := min 16 (j.good + 1), bad := 0 }
    if !locked && decide (n.good ≥ 16) then
      let y := setLost (loopBit l) false (setLock (loopBit l) true (x.setJudge l n))
      (if l = .synt then { y with refs := { y.refs with syntEpisode := false } } else y, .locked)
    else (x.setJudge l n, .nothing)
  else
    let out := decide (d > 50000000)
    let n : LoopJudge := { j with good := 0, bad := if out then min 2 (j.bad + 1) else 0 }
    if locked && decide (n.bad ≥ 2) then
      (setLost (loopBit l) true (setLoss (loopBit l) (setLock (loopBit l) false (x.setJudge l n))), .lost)
    else (x.setJudge l n, .nothing)

/-- SYN-T leaves fine lock: LOSS_FINE, SYNT_FINE (R316). -/
def loseFine (x : Engine) : Engine :=
  if x.clk.lock.getLsbD 15 then
    (setLoss 15 (setLock 15 false (x.setJudge .synt { x.judge .synt with fineGood := 0, fineLost := true }))).raise 0x08 0x03 0 0
  else x.setJudge .synt { x.judge .synt with fineGood := 0 }

/-- A 1 s window of SYN-T: fine lock within 2 ppb for four in a row (R51, R316). -/
def fineWindow (dev : Int) (x : Engine) : Engine :=
  let j := x.judge .synt
  if dev.natAbs ≤ 2000 ∧ x.clk.syntLocked = true then
    let n : LoopJudge := { j with fineGood := min 4 (j.fineGood + 1) }
    if n.fineGood ≥ 4 ∧ x.clk.lock.getLsbD 15 = false then
      let y := setLock 15 true (x.setJudge .synt n)
      if j.fineLost then y.raise 0x08 0x03 0 0x100 else y
    else x.setJudge .synt n
  else loseFine x

/-- DOMAIN_LOCK with the bits of absent loops 0 (R53). -/
def clockReg (part : Part) (x : Engine) (off : Nat) : Option Word :=
  let absent : BitVec 16 := (if underpassPart part then 0 else 0x0018#16) ||| (if twinPart part then 0 else 0x0800#16)
  match off with
  | 0x000C => some ((x.clk.lock &&& ~~~absent).setWidth 32)
  | 0x0010 => some ((x.clk.loss &&& ~~~absent).setWidth 32)
  | 0x0014 => some (pack [(x.pace.pace.toNat, 30), (bit x.pace.settled, 29), (bit (atCeiling x), 28),
                          (bit (x.pace.vcoreMv == 700), 27), (bit x.pace.paceDropped, 26), (x.pace.vcoreMv, 0)])
  | _ => none

/-- The transmitter of a front lane is squelched: the TX PLL of its group of eight lanes has lost its lock (Table 1.5). -/
def laneSquelched (x : Engine) (lane : Nat) : Bool := x.clk.lost.getLsbD (1 + lane / 8)

/-- The outputs of SYN-Ok are held low: the loop has lost its lock (Table 1.5, D10). -/
def synLow (x : Engine) (k : Nat) : Bool := x.clk.lost.getLsbD (7 + k % 4)

/-- DOMAIN_LOSS bits written 1. -/
def execDomainLossClear (e : EngId) (mask : Word) (s : State) : Host.Outcome State Fault Refusal :=
  onEngine e s fun s => s.modEng e fun x => { x with clk := { x.clk with loss := x.clk.loss &&& ~~~(mask.setWidth 16) } }

/-- D0_LOST (R52): raised, LOSS_D0 set, every judgement suspended. -/
def execD0Lost (e : EngId) (s : State) : Host.Outcome State Fault Refusal :=
  onEngine e s fun s => s.modEng e fun x =>
    if x.clk.suspended then x
    else (setLoss 14 { x with clk := { x.clk with suspended := true } }).raise 0x08 0x01 3 0

/-! ## The PCIe link (R429) -/

/-- The PCIe link of an engine leaves L0, or its D8 PLL loses lock: the rings stop and H0 goes down, or its debounce ends (R111). -/
def pcieDown (part : Part) (e : EngId) (x : Engine) : Engine :=
  (goDown part e 32 2 true (stopRings x)).modPort 32 fun q => { q with debounce := false, cause := 2 }

/-- PCIE_LINK_DOWN (R429). -/
def rowPcieLinkDown (e : EngId) (s : State) : Host.Outcome State Fault Refusal :=
  onEngine e s fun s => s.modEng e (pcieDown s.part e)

/-- PCIE_PERST (R490): the engine's endpoint alone is reset, so its link leaves L0. -/
def rowPciePerst (e : EngId) (s : State) : Host.Outcome State Fault Refusal :=
  onEngine e s fun s => s.modEng e (pcieDown s.part e)

/-! ## SYN-T: loss, fallback and return (R68, R315, R316) -/

/-- A phase carried into the time counter, in 2^-32 ns (R68). -/
def carryPhase (phase : Int) (t : TimeState) : TimeState := { t with dev := ((t.dev + phase) % devMod).toNat }

/-- The loss of SYN-T's analog lock: D1 on the fallback multiplier, INC rescaled, the synthesizers held, the fault raised
once an episode. -/
def syntLost (part : Part) (incNew : Nat) (phase : Int) (x : Engine) : Engine :=
  let a := if x.clk.syntLocked then setLoss 0 (setLock 0 false x) else x
  let b := loseFine a
  let c := if b.clk.fallback then b else
    let y := setLock 14 true b
    { y with time := { carryPhase phase y.time with inc := incNew },
             refs := { y.refs with pulling := true, syns := y.refs.syns.map fun k => { k with hold := true } } }
  if c.refs.syntEpisode then c
  else
    let d : Engine := { c with refs := { c.refs with syntEpisode := true } }
    if x.clk.lock.getLsbD 15 then d.raiseNext 0x08 0x02 (if twinPart part then 3 else 2) 0 else d.raise 0x08 0x02 (if twinPart part then 3 else 2) 0

/-- SYNT_LOSS (R315 steps 2 and 3): `incNew` is INC as the frequencies measured give it, in 2^-32 ns a cycle, `phase` the
phase between the two clocks, in 2^-32 ns. An INC of 0 cannot be measured and is read as 2 ns. After D0_LOST no loss is judged
(R52). -/
def execSyntLoss (e : EngId) (incNew : Nat) (phase : Int) (s : State) : Host.Outcome State Fault Refusal :=
  onEngine e s fun s =>
    if (s.eng e).clk.suspended then s
    else
      let was := (s.eng e).clk.fallback
      let inc := if incNew = 0 then 2 * 2 ^ 32 else incNew
      let s1 := s.modEng e (syntLost s.part inc phase)
      if was then s1 else localsChanged e s1

/-- SYNT_ANALOG_LOCK (R315 step 5): LOCK_SYNT reads 1, the loss episode is over; after D0_LOST no lock is judged (R52). -/
def execSyntAnalogLock (e : EngId) (s : State) : Host.Outcome State Fault Refusal :=
  onEngine e s fun s => s.modEng e fun x =>
    if x.clk.suspended then x
    else
      let y := setLock 0 true (x.setJudge .synt { x.judge .synt with good := 16, bad := 0 })
      { y with refs := { y.refs with syntEpisode := false } }

/-- SYNT_RETURN (R315 step 6): D1 returns to SYN-T, INC to exactly 2 ns. -/
def execSyntReturn (e : EngId) (phase : Int) (s : State) : Host.Outcome State Fault Refusal :=
  onEngine e s fun s => s.modEng e fun x =>
    if x.clk.fallback && x.clk.syntLocked then
      let y := setLock 14 false x
      { y with time := { carryPhase phase y.time with inc := 2 * 2 ^ 32 } }
    else x

/-- PHASE_PULLBACK_DONE (R315 step 7): the grid is restored, A3 is offered again. -/
def execPhasePullbackDone (e : EngId) (s : State) : Host.Outcome State Fault Refusal :=
  onEngine e s fun s =>
    let x := s.eng e
    if x.refs.pulling && !x.clk.fallback then
      localsChanged e (s.modEng e fun x =>
        { x with refs := { x.refs with pulling := false, syns := x.refs.syns.map fun k => { k with hold := false } } })
    else s

/-- SYN-T is reset to acquire its lock anew (R315 step 4, R316): one attempt more. -/
def resetSynt (x : Engine) : Engine :=
  (x.setJudge .synt { judgeZero with fineLost := (x.judge .synt).fineLost }).bump 78

/-- SYNT_RELOCK_RETRY (R316): another attempt, with its reset window, unless the lock has come. -/
def execSyntRelockRetry (e : EngId) (s : State) : Host.Outcome State Fault Refusal :=
  onEngine e s fun s => s.modEng e fun x =>
    if x.clk.fallback && !x.clk.syntLocked then
      let run : RunningReset := { reset := .synt, source := 0x08, kind := 0x02, inj := false, late := false }
      let others := x.fault.resets.filter fun r => decide (r.reset ≠ .synt)
      resetSynt { x with fault := { x.fault with resets := others ++ [run] } }
    else x

/-! ## The pace governor (R57-R60) -/

/-- One sample of the governor; between a restart of the monitors and their first window it has nothing to act on (R185). -/
def governor (x : Engine) : Engine :=
  let p := x.pace
  let since := p.sinceRaiseUs + 10
  let above0 := if p.pace = p.pacePrev then p.aboveUs else 0
  if x.ports.vcoreHold then
    { x with pace := { p with sinceRaiseUs := since, pacePrev := p.pace, vcoreMv := 900, settled := false, aboveUs := 0, goodUs := 0 } }
  else if x.ports.awaitWindow then { x with pace := { p with sinceRaiseUs := since } }
  else
    let floor := paceFloor p.pace
    if x.ports.minSpeed < floor then
      let q : PaceState := { p with sinceRaiseUs := since, pacePrev := p.pace, belowUs := p.belowUs + 10, aboveUs := 0, goodUs := 0, settled := false }
      if p.vcoreMv = 900 then
        let ceil := p.ceilingUs + 10
        let due := decide (ceil > 100) && !p.ceilingRaised
        let y : Engine := { x with pace := { q with ceilingUs := ceil, ceilingRaised := p.ceilingRaised || due } }
        if due then y.raise 0x09 0x01 2 0 else y
      else if q.belowUs > 100 ∧ since ≥ 20 then
        { x with pace := { q with vcoreMv := min (p.vcoreMv + 10) 900, sinceRaiseUs := 0 } }
      else { x with pace := q }
    else
      let above := above0 + 10
      let good := if x.ports.minSpeed * 100 ≥ floor * 105 then p.goodUs + 10 else 0
      let lower := decide (good ≥ 100000) && decide (p.vcoreMv > 700)
      { x with pace := { p with sinceRaiseUs := since, pacePrev := p.pace, belowUs := 0, ceilingUs := 0, ceilingRaised := false,
                                aboveUs := above, goodUs := if lower then 0 else good,
                                vcoreMv := if lower then p.vcoreMv - 5 else p.vcoreMv, settled := decide (above ≥ 100) } }

/-- Every engine that runs is settled (R62). -/
def allSettled (s : State) : Bool :=
  let ok (e : EngId) : Bool := !engFitted s.part e || !(s.eng e).running || (s.eng e).pace.settled
  ok .a && ok .b

/-- The reply of SYS.SET_PACE (Table 1.11). -/
def paceReply (settled : Bool) (x : Engine) (_ : Waiting) : List Word := [pack [(bit settled, 2), (x.pace.pace.toNat, 0)]]

/-- The reply of a SYS.SET_PACE that waits on either engine (R62). -/
def finishPace (s : State) : State :=
  let st := allSettled s
  complete .b .paceSettled .ok (paceReply st) (complete .a .paceSettled .ok (paceReply st) s)

/-- GOVERNOR_SAMPLE (R57): the governor runs from step 3 of Table 16.1 on. -/
def rowGovernorSample (e : EngId) (s : State) : Host.Outcome State Fault Refusal :=
  if heldPowered e s then .next (s.modEng e fun x => { x with pace := (governor x).pace })
  else onEngine e s fun s =>
    let s1 := s.modEng e governor
    if allSettled s1 then finishPace s1 else s1

/-- PACE_REPLY_TIMEOUT (R62): 2 ms after acceptance. -/
def rowPaceReplyTimeout (s : State) : Host.Outcome State Fault Refusal := .next (finishPace s)

/-- PACE_DROPPED written 1. -/
def execPaceDroppedClear (e : EngId) (s : State) : Host.Outcome State Fault Refusal :=
  onEngine e s fun s => s.modEng e fun x => { x with pace := { x.pace with paceDropped := false } }

/-- A pace in effect on an engine; a change unsettles it (R58). -/
def setPace (p : BitVec 2) (x : Engine) : Engine :=
  if x.pace.pace = p then x else { x with pace := { x.pace with pace := p, settled := false } }

/-- SYS.SET_PACE (R61-R63). Both engines run the same pace (R56): the commit carries it to a standby that copies, and it takes the
active's pace as that then stands, so that no commit of the journal undoes a later change; any other engine takes it over the link or
the sideband (DEDUCED, log 119). -/
def sysSetPaceSpec : CmdSpec :=
  { configSpec 0x0102 (lenIs 1) (fun ps => zeroBits ps 0 31 2) (fun _ ps _ => rangeIf (field (par ps 0) 1 0 == 3))
      (fun c _ s => statusIf (!noneOwed 0x0102 (s.eng c.eng)) .busy)
      (fun c ps s =>
        let o := other c.eng
        let p := if c.mirror && (s.eng o).serving then (s.eng o).pace.pace else BitVec.ofNat 2 (field (par ps 0) 1 0)
        let s1 := s.modEng c.eng (setPace p)
        let carried := s.fof.up && (s.standby == some o) && ((s.eng o).twin.copy == 1 || (s.eng o).twin.copy == 2)
        let reached := s.fof.up || s.sup.sound
        let s2 := if !c.mirror && twinPart s.part && !carried && reached && (s.eng o).awake then s1.modEng o (setPace p) else s1
        { state := s2, body := [], await := some .paceSettled }) with
    onSup := false }

end Sys2Proof.Machine
end

