-- ==== Sys2Proof/Machine/Hooks.lean ====
section
/-! DEFINITION. What losing an engine, restarting it and resetting one of its blocks does to its parts: used by roles, the
fault collector and start-up. -/

namespace Sys2Proof.Machine

/-- Every front transmitter idle, frames in transmission cut off (R198), event outputs low and their schedules discarded
(R97, Table 12.7). -/
def squelch (part : Part) (e : EngId) (x : Engine) : Engine :=
  let y := (List.range 32).foldl (fun y p => cutPort part e p y) x
  let low (q : EvtOut) : EvtOut := { q with sched := [], level := false, fall := none, prevEnd := none, missed := false }
  { y with time := { y.time with evtOut := y.time.evtOut.map low } }

/-- What an engine reset leaves of calibration: fuses and flash, the cells that stay retired, and the cells and entries whose repair was not
recorded, which fail the start-up test (R390, R392). -/
def calKept (c : CalState) : CalState :=
  { calReset with fuseTrims := c.fuseTrims, fuseRepairs := c.fuseRepairs, records := c.records, unrecorded := c.unrecorded,
                  returned := c.returned }

/-- One spare more in use (R392, R393). -/
def useSpare (r : RepairRecord) (c : CalState) : CalState :=
  let more (t : List (Nat × Nat)) : List (Nat × Nat) := insertAt r.place (look 0 r.place t + 1) t
  match r.kind with
  | .row => { c with spareRows := more c.spareRows }
  | .column => { c with spareCols := more c.spareCols }
  | .entry => { c with amSpares := more c.amSpares }

/-- A field repair whose record does not hold at an engine's start (Table 13.3): its spare is left unused; the cell that it covered
fails the start-up test and is retired, the entry is tested as R393 lays down. -/
def loseRepair (r : RepairRecord) (x : Engine) : Engine :=
  match r.kind with
  | .entry => { x with cal := { x.cal with marked := x.cal.marked.filter (· ≠ r.item) ++ [r.item] } }
  | _ => retireCell r.item x

/-- The repairs at an engine's start (R390, R391): those of the fuses, and each one of the field that is recorded, is in force again where
its record holds. -/
def bootRepairs (bad : List Nat) (x : Engine) : Engine :=
  let number (k : RepairRecord × Nat) (base : Nat) : RepairRecord × Nat := (k.1, base + k.2)
  let all := x.cal.fuseRepairs.zipIdx.map (fun k => number k 1400) ++ x.cal.records.zipIdx.map (fun k => number k 700)
  let held := all.filter fun k => !bad.contains k.2
  let lost := (all.filter fun k => bad.contains k.2).map (fun k => k.1) ++ x.cal.unrecorded
  let y : Engine := { x with cal := held.foldl (fun c k => useSpare k.1 c) { x.cal with unrecorded := [] } }
  lost.foldl (fun z r => loseRepair r z) y

/-- What an engine reset leaves of the buffers: the cells that stay retired until the power cycle (R392). -/
def bufKept (x : Engine) : BufState :=
  { bufReset with retired := x.buf.retired.filter fun c => decide (look 0 c x.cal.returned ≥ 2) }

/-- Ingress staging of a channel emptied (R181): a frame that loses a flit so is found bad with cause 7. -/
def emptyStaging (part : Part) (e : EngId) (ch : Nat) (x : Engine) : Engine :=
  let hit := ((x.staging ch).map fun f => f.frame).eraseDups
  hit.foldl (fun y i => markBad part e 7 i y) (x.modStaging ch fun _ => [])

/-- A block reset begins (Table 12.5): what it does to its block at once. -/
def resetStart (part : Part) (e : EngId) (b : BlockReset) (x : Engine) : Engine :=
  match b with
  | .monitorRestart =>
    let y := restartMonitors x
    { y with ports := { y.ports with vcoreHold := x.ports.vcoreHold } }
  | .staging ch => emptyStaging part e ch.val x
  | .repairPass => { x with cal := { x.cal with repairing := true, underpass := true } }
  | .txPll g => x.setJudge (.txg g) judgeZero
  | .synt => resetSynt x
  | .d8Pll => x.setJudge .host judgeZero
  | .syno k => x.setJudge (.syno k) judgeZero
  | .fofPll => x.setJudge .fof judgeZero
  | .fofRetrain => x

/-- A block reset is ready: the monitors are followed again from their first window on, unless a new episode has begun (R185); a repair
pass is over (R392). -/
def resetEnd (b : BlockReset) (x : Engine) : Engine :=
  match b with
  | .monitorRestart => { x with ports := { x.ports with vcoreHold := x.ports.lostEpisode, awaitWindow := true } }
  | .repairPass => { x with cal := { x.cal with repairing := false } }
  | _ => x

/-- The number of the trim-start record of a path, by 64 x kind + index (log 19). -/
def trimRecord (k : Nat) : Nat :=
  match k / 64 with
  | 1 => 1300 + 2 * (k % 64)
  | 2 => 1301 + 2 * (k % 64)
  | 4 => 1364 + k % 64
  | _ => 1384 + k % 64

/-- Every trim starts from its record in the fuses; from 0 where that has failed (Table 13.3). -/
def bootTrims (bad : List Nat) (x : Engine) : Engine :=
  x.cal.fuseTrims.foldl (fun y t =>
    if bad.contains (trimRecord t.1) then y else y.modPath (t.1 / 64) (t.1 % 64) fun k => { k with trim := t.2, target := t.2 }) x

/-- The records at an engine's start (R391), those of index in `bad` having failed their check: index n names timing set n, 600 + n to
660 + n the sets of outputs, inputs and Fofaene lanes, 700 + n the n-th field repair record, 1300 on the trim starts, 1400 + n the n-th
repair record of the fuses (log 19). -/
def bootRecords (bad : List Nat) (x : Engine) : Engine :=
  bootRepairs bad (bootTrims bad { x with cal := { x.cal with badSets := bad, recordsBad := x.cal.recordsBad + bad.length } })

/-- One path of the initial calibration: `n` completions, the figure and the trims that were found (free values, log 6). At its end the trim
stands as the lane's present coding asks (R385, R455). -/
def calibratePath (base n kind idx : Nat) (x : Engine) : Engine :=
  let v := Config.freeNat (base + 64 * kind + idx)
  let trims := (List.range n).map fun c => (c, (((v / 2 ^ (10 * (c + 1))) % 1023 : Nat) : Int) - 511)
  let coding := if kind = 4 then 0 else codingOf (x.port idx).modeNow
  x.modPath kind idx fun k =>
    let k1 := { k with count := k.count + n, last := x.now, at_ := x.time.tbCycles, q := 100 + v % 1024, tLast := x.dieTemp, trims := trims }
    if kind = 3 then k1 else startTrim coding k1

/-- The initial calibration (R455): kinds 1 to 3 of every present lane in each of the nine codings, kind 4 of every output. -/
def initialCalibration (e : EngId) (s : State) : State :=
  let base := s.freeCtr
  let lanes := List.range (lanesOf s.part)
  let s1 := s.modEng e fun x =>
    let y := lanes.foldl (fun y l => [1, 2, 3].foldl (fun y k => calibratePath base 9 k l y) y) x
    let z := (List.range 20).foldl (fun y o => calibratePath base 1 4 o y) y
    { z with cal := { z.cal with initDone := true } }
  { s1 with freeCtr := base + 512 }

end Sys2Proof.Machine
end

