-- ==== Sys2Proof/Machine/Repair.lean ====
section
/-! DEFINITION. Repair passes: retired cells and marked entries tested, spares used, records written, at an engine's start, as a reaction
and on command (R390, R392, R393). -/

namespace Sys2Proof.Machine

/-- A repair recorded, while the flash area has room (R390). -/
def writeRepair (r : RepairRecord) (c : CalState) : CalState :=
  if c.records.length < 512 then { c with records := c.records ++ [r] } else { c with unrecorded := c.unrecorded ++ [r] }

/-- A repair made: its spare is in use, and it is recorded. -/
def makeRepair (r : RepairRecord) (c : CalState) : CalState := writeRepair r (useSpare r c)

/-- A retired cell returned to use. -/
def returnCell (c : Nat) (x : Engine) : Engine :=
  { x with buf := { x.buf with retired := x.buf.retired.filter (· ≠ c) },
           cal := { x.cal with returned := insertAt c (look 0 c x.cal.returned + 1) x.cal.returned } }

/-- One retired cell tested; what the marches find is a free value: it passes, passes once a spare row or column of its array has taken
the failing bits, fails even then, or has no spare that covers them. A spare once used stays used, and recorded. -/
def repairCell (v c : Nat) (x : Engine) : Engine :=
  let arr := c / 256
  let spare := decide (c < arcadeCells)
  let fix (k : RepairKind) (y : Engine) : Engine := { y with cal := makeRepair { kind := k, place := arr, item := c } y.cal }
  let row := spare && decide (look 0 arr x.cal.spareRows < 8)
  let column := spare && decide (look 0 arr x.cal.spareCols < 2)
  match v % 6 with
  | 0 => returnCell c x
  | 1 => if row then fix .row (returnCell c x) else x
  | 2 => if column then fix .column (returnCell c x) else x
  | 3 => if row then fix .row x else x
  | 4 => if column then fix .column x else x
  | _ => x

/-- A marked associative-memory entry mapped to a spare of its bank, while one is left. -/
def repairEntry (i : Nat) (x : Engine) : Engine :=
  let b := i / 8192
  if look 0 b x.cal.amSpares < 32 then
    { x with cal := makeRepair { kind := .entry, place := b, item := i } { x.cal with marked := x.cal.marked.filter (· ≠ i) } }
  else x

/-- The cells that a pass tests: the Arcade's first, the Underpass's where the pass takes them in; none that has come back
twice and gone again. -/
def testedCells (x : Engine) : List Nat :=
  let again (c : Nat) : Bool := decide (look 0 c x.cal.returned < 2)
  (x.buf.retired.filter fun c => decide (c < arcadeCells) && again c)
    ++ if x.cal.underpass then x.buf.retired.filter fun c => decide (c ≥ arcadeCells) && again c else []

/-- The first `n` items of a repair pass carried out, cells before entries; CELL_RETIRE_LIMIT may come again in a store that holds 256 retired
cells or fewer. -/
def repairSteps (base n : Nat) (x : Engine) : Engine :=
  let cs := testedCells x
  let y := ((cs.zipIdx).take n).foldl (fun y (c, i) => repairCell (Config.freeNat (base + i)) c y) x
  let z := (x.cal.marked.take (n - cs.length)).foldl (fun y i => repairEntry i y) y
  let lim (k : Nat) (under : Bool) : BitVec 2 := if z.retiredIn under > 256 then z.buf.limitRaised &&& (1#2 <<< k) else 0
  { z with buf := { z.buf with limitRaised := lim 0 false ||| lim 1 true }, cal := { z.cal with repairing := false } }

/-- A repair pass carried out whole. -/
def repairPass (base : Nat) (x : Engine) : Engine := repairSteps base ((testedCells x).length + x.cal.marked.length) x

/-- A repair pass cancelled (R360): what it had completed stands, and how much that is is a free value (R392). -/
def stopRepair (e : EngId) (s : State) : State :=
  let x := s.eng e
  if x.cal.repairing then
    let (n, s1) := takeFree s
    let total := (testedCells x).length + x.cal.marked.length
    { s1.modEng e (repairSteps s1.freeCtr (n % (total + 1))) with freeCtr := s1.freeCtr + (testedCells x).length }
  else s

/-- The repair pass at an engine's start (R392, Table 16.1 step 9): over the whole Arcade and the associative memory. The cells and entries
that it finds failing are free values, and so is what comes of each (log 19). -/
def startPass (e : EngId) (s : State) : State :=
  let x := s.eng e
  let cells := (Config.startCells s.freeCtr).filter fun c => decide (c < arcadeCells) && !x.buf.retired.contains c
  let entries := (Config.startEntries s.freeCtr).filter fun i => decide (i < 2 * 8192)
  let base := s.freeCtr + 1
  let s1 := s.modEng e fun x =>
    let y := cells.foldl (fun y c => retireCell c y) x
    let z := (cells.zipIdx).foldl (fun y (c, i) => repairCell (Config.freeNat (base + i)) c y) y
    let w : Engine := { z with cal := { z.cal with marked := z.cal.marked ++ entries.filter fun i => !z.cal.marked.contains i } }
    w.cal.marked.foldl (fun y i => repairEntry i y) w
  { s1 with freeCtr := base + cells.length }

end Sys2Proof.Machine
end

