-- ==== Sys2Proof/Machine/Roles.lean ====
section
/-! DEFINITION. Roles: who holds which, giving up, Cul-de-sac, engine resets and fencing (R325-R330, R348,
R376), and the status pins that follow from them. -/

namespace Sys2Proof.Machine

/-! ## Roles -/

/-- COPY as both engines report it (Table 11.9). -/
def setCopy (c : Nat) (s : State) : State :=
  s.modBoth fun x => { x with twin := { x.twin with copy := c } }

/-- COPY reads 0 while no engine holds ROLE 0x2 (R341). -/
def idleCopy (s : State) : State := if twinPart s.part && s.standby.isNone then setCopy 0 s else s

/-- The supervisor reports the role of an engine to the other one, which sets its ROLE interrupt on a change; while no sound supervisor
runs, PEER_ROLE stays as last reported (R325, Table 15.16). -/
def reportRole (e : EngId) (s : State) : State :=
  if twinPart s.part && s.sup.sound then
    let r := (s.eng e).core.role
    s.modEng (other e) fun x =>
      if x.core.peerRole = r then x else ({ x with core := { x.core with peerRole := r } } : Engine).irq 14
  else s

/-- A supervisor that is sound again reports both roles (R325). -/
def reportRoles (s : State) : State := reportRole .b (reportRole .a s)

/-- An engine takes a role; a ROLE that changes sets the ROLE interrupt (R325, Table 15.16). -/
def setRole (e : EngId) (r : Nat) (s : State) : State :=
  idleCopy (reportRole e (s.modEng e fun x =>
    if x.core.role = r then x else ({ x with core := { x.core with role := r } } : Engine).irq 14))

/-- The steering latches move to an engine (R33, R35); STEER_OWNER that changes sets the ROLE interrupt. -/
def setSteer (e : EngId) (s : State) : State :=
  if s.power.steer = e then s
  else ({ s with power := { s.power with steer := e } } : State).modBoth fun x => x.irq 14

/-- The body of a twin event record (Table 11.10). -/
def twinEventBody (event cause : Nat) (about : EngId) (scrub status : Nat) (x : Engine) (genB : Nat) : List Word :=
  [pack [(event, 28), (cause, 24), (engCode about, 22), (scrub, 20), (status, 0)], word x.host.cfgGen,
   word genB] ++ stampWords x.now

/-- A twin event record offered by an engine (R351); a lost one counts in TWIN_EVT_LOST. -/
def twinEvent (e : EngId) (event cause : Nat) (about : EngId) (scrub status genB : Nat) (s : State) : State :=
  s.modEng e fun x =>
    offerEvent e { type := 0x06, body := twinEventBody event cause about scrub status x genB } 88 x

/-! ## Eligibility and pins -/

/-- Two pieces of firmware are compatible (R468); a unit that runs nothing leaves nothing to judge. -/
def compatible (x y : FwUnit) : Bool :=
  x.running.isNone || y.running.isNone ||
    (y.levelMin.ule x.level && x.level.ule y.levelMax && x.levelMin.ule y.level && y.level.ule x.levelMax)

/-- Whether the standby is eligible for a grant (R330, R469, R506); one that refuses the copy is not (R349). -/
def eligible (s : State) (e : EngId) : Bool :=
  let x := s.eng e
  let v := s.sup.view e
  twinPart s.part && x.core.role == 2 && (x.twin.copy == 1 || x.twin.copy == 2 || x.twin.copy == 3 || x.twin.copy == 5)
    && !x.twin.selfFaulty && v.beat == .alive && v.compatible && v.eligible && !v.fenced
    && compatible x.fw (s.eng (other e)).fw

/-- Whether the module has an eligible standby. -/
def hasEligible (s : State) : Bool :=
  match s.standby with
  | some e => eligible s e
  | none => false

/-- FAULT_N is asserted (R378, R474). -/
def faultPin (s : State) : Bool :=
  let bad (e : EngId) : Bool :=
    engFitted s.part e && ((s.eng e).core.role == 3 || (s.eng e).core.role == 4 || (s.eng e).fault.f4Latched)
  s.power.supplyValid && (bad .a || bad .b || s.sup.faulty || s.sup.bootRom)

/-- PWRGOOD is high (R454, R474). -/
def pwrGoodPin (s : State) : Bool := s.power.supplyValid && s.power.railsUp && s.power.railsGood

/-- ROLE_A or ROLE_B is high (Table 16.2). -/
def rolePin (s : State) (e : EngId) : Bool :=
  engFitted s.part e && (s.eng e).core.role == 1 && s.power.steer == e

/-- One group of pin states of Table 17.10 for the lane transmitters. -/
inductive PinState where
  | highZ
  | idle
  | driven
  | low
deriving DecidableEq, Repr

/-- The front lane transmitters as Table 17.10 gives them: the engine the steering is on decides. One that has left ROLE 0x1 in a planned
swap drives them on, without frames, until the steering moves (R345). -/
def lanePins (s : State) : PinState :=
  let x := s.eng s.power.steer
  if !s.power.supplyValid then (if s.power.brownOut then .idle else .highZ)
  else if x.core.role = 1 ∨ x.core.role = 2 ∨ x.core.role = 5 then .driven
  else .idle

/-- One front lane's transmitter: idle too on a lane the part lacks (R496), in MODE 0 (R107), and while its TX PLL is out of lock
(Table 1.5). A lane of a grouped port follows its group's mode. -/
def lanePin (s : State) (lane : Nat) : PinState :=
  let x := s.eng s.power.steer
  let off := decide ((x.port (if x.unused lane then lane / 4 * 4 else lane)).mode = 0)
  match lanePins s with
  | .driven => if decide (lane ≥ lanesOf s.part) || off || laneSquelched x lane then .idle else .driven
  | p => p

/-- CLKOUT, PPSOUT and EVTOUT as Table 17.10 gives them. -/
def outputPins (s : State) : PinState :=
  let x := s.eng s.power.steer
  if !s.power.supplyValid then (if s.power.brownOut then .low else .highZ)
  else if s.power.alignerLow then .low
  else if x.core.role = 1 ∨ x.core.role = 2 ∨ x.core.role = 5 ∨ s.power.alignerHolds then .driven
  else .low

/-- An output that its synthesizer `k` feeds: low too while that synthesizer is out of lock (Table 1.5). -/
def synPin (s : State) (k : Nat) : PinState :=
  match outputPins s with
  | .driven => if synLow (s.eng s.power.steer) k && !s.power.alignerHolds then .low else .driven
  | p => p

/-- A clock or pulse output as its ENABLE leaves it: held low while it is disabled (R318, R319). -/
def enabledPin (on : Bool) (p : PinState) : PinState := if p = .driven ∧ on = false then .low else p

/-- CLKOUTn, fed by the synthesizer that OUT.SET_CLKOUT names (R318). -/
def clkoutPin (s : State) (n : Fin 8) : PinState :=
  let k := (s.eng s.power.steer).refs.clks[n]
  enabledPin k.enable (synPin s k.syn)

/-- PPSOUTn, placed by SYN-On (R317). -/
def ppsoutPin (s : State) (n : Fin 4) : PinState := enabledPin (s.eng s.power.steer).refs.pps[n].enable (synPin s n.val)

/-- The level at the ball of EVTOUTn: what the schedule calls for, low while the output is (R95, Table 1.5). Which synthesizer
feeds an event output is left open (Config.evtSynth, log 120). -/
def evtoutHigh (s : State) (n : Fin 8) : Bool :=
  s.power.evtBalls.getLsbD n.val && decide (synPin s (Config.evtSynth n.val) = .driven)

/-! ## Losing an engine -/

/-- The commands outstanding on an engine's channels, without a reply (R428): the replies that wait for the reply ring are not written. -/
def dropCommands (x : Engine) : Engine :=
  let mbox := { x.host.mbox with busy := false }
  ({ x with host := { x.host with outstanding := [], held := [], waiting := [], ringLost := [], mbox := mbox } } : Engine).modRing 1
    fun q => { q with waiting := [] }

/-- A waiting command that arrived at an engine which has been lost is not replied to. -/
def muteFrom (e : EngId) (w : Waiting) : Waiting := if w.arrival.via = .eng e then { w with silent := true } else w

/-- The commands of an engine's channels that wait on the other engine or on the supervisor are not replied to either (R428). -/
def muteCommands (e : EngId) (s : State) : State :=
  let mute (x : Engine) : Engine := { x with host := { x.host with waiting := x.host.waiting.map (muteFrom e) } }
  { s.modEng (other e) mute with sup := { s.sup with waiting := s.sup.waiting.map (muteFrom e) } }

/-- The windows that still run, and a repair pass, are cancelled (R360, R392). -/
def cancelWindows (x : Engine) : Engine :=
  let resets := x.fault.resets.filter fun r => decide (r.reset ≠ .repairPass)
  { x with fault := { x.fault with windows := [], resets := resets }, cal := { x.cal with repairing := false } }

/-- The sample records held by an engine that gives up, enters Cul-de-sac or is reset are lost, with the frames it had chosen
(R411). -/
def dropSamples (x : Engine) : Engine :=
  { x with stats := { x.stats with onDie := [], overflow := [] },
           buf := { x.buf with frames := x.buf.frames.map fun k => (k.1, { k.2 with sample := none }) } }

/-- A write session of a unit is abandoned: its slot reads INCOMPLETE (R463). -/
def abandonSlot (slot : Nat) (f : Vector FwSlot 2) : Vector FwSlot 2 :=
  vmodN f slot fun q => if q.state = 1 then { q with state := 2 } else q

/-- The sessions of an engine are abandoned. -/
def abandonSession (e : EngId) (s : State) : State :=
  match (s.eng e).fw.session with
  | none => s
  | some q =>
    ({ s with flash := abandonSlot q.slot s.flash } : State).modEng e fun x => { x with fw := { x.fw with session := none } }

/-- An entry of the supervisor's log (R364): the oldest is overwritten when 64 are held. -/
def logEntry (e : EngId) (msg : BitVec 64) (s : State) : State :=
  let x := s.eng e
  let ent : LogEntry := { msg := msg, engine := e, role := x.core.role, time := x.now }
  let l := s.sup.log ++ [ent]
  { s with sup := { s.sup with log := l.drop (l.length - 64) } }

/-- A planned swap that cannot take place any more: its preparation ends, and a command that waits for it completes with a
status (R345). -/
def endPlan (st : Status) (s : State) : State :=
  match s.sup.swap with
  | none => s
  | some _ =>
    let s1 := ({ s with sup := { s.sup with swap := none } } : State).modBoth fun x =>
      { x with twin := { x.twin with swapPending := false, swapAt := none } }
    completeSup .swap st [] (complete .b .swap st (fun _ _ => []) (complete .a .swap st (fun _ _ => []) s1))

/-- A switchover or swap whose new active is lost ends where it stands; the aligner no longer holds the outputs. -/
def dropSwitch (e : EngId) (s : State) : State :=
  match s.sup.switch with
  | none => s
  | some r =>
    if r.dst = e then
      endPlan .state { s with sup := { s.sup with switch := none }, power := { s.power with alignerHolds := false } }
    else s

/-- The EVTOUT balls low, where an engine that drives no output any more owns them (R33, R97, Table 12.7). -/
def lowBalls (e : EngId) (s : State) : State :=
  if s.power.steer = e ∧ s.power.alignerHolds = false then { s with power := { s.power with evtBalls := 0 } } else s

/-- An engine enters Cul-de-sac (R376, Table 12.7): lanes squelched, outputs low, ROLE 0x4. The commands
outstanding get no reply (R428). -/
def enterCul (e : EngId) (s : State) : State :=
  let s1 := muteCommands e (lowBalls e (dropSwitch e (abandonSession e (stopRepair e s))))
  setRole e 4 (s1.modEng e fun x =>
    dropSamples (cancelWindows (dropCommands (squelch s.part e { x with core := { x.core with mayStart := false } }))))

/-- Every engine of the module enters Cul-de-sac (class F4): pending reactions, a switchover and a swap in
progress are cancelled (R360), and the aligner holds every output low (Table 12.7 step 6). An engine that has not started yet is held in
Cul-de-sac too, until a power cycle (Tables 11.1, 12.8). -/
def enterCulAll (s : State) : State :=
  let s0 := { s with sup := { s.sup with switch := none }, power := { s.power with alignerLow := true, alignerHolds := false, f4Held := true, evtBalls := 0 } }
  let s1 := endPlan .state (s0.modBoth fun x => { x with twin := { x.twin with storing := false } })
  let s2 := if s1.engA.core.phase ≠ .off then enterCul .a s1 else s1
  if twinPart s2.part && s2.engB.core.phase != .off then enterCul .b s2 else s2

/-- 24 hours in D1 cycles of 2 ns (R348). -/
def dayTicks : Nat := 43200000000000

/-- An engine after an engine reset: every field at its reset value but the fault latches and RS fields, and
what the supervisor reports (R361, R19, Table 11.9). -/
def engineAfterReset (e : EngId) (x : Engine) : Engine :=
  { engineReset e with
      core := { coreReset with dieStep := x.core.dieStep, phase := .held }, cal := calKept x.cal, buf := bufKept x,
      pace := { paceReset with vcoreMv := x.pace.vcoreMv }, fault := faultEngineReset x.fault, twin := twinEngineReset x.twin,
      fw := { x.fw with running := none, trialRun := false, fallback := false, maintCause := 0, session := none,
                        burn := none, restart := none, level := 0 } }

/-- The newest commit on the link may lack its marker when the active halts, gives up or is reset: a free value says whether
it had been sent (R340, log 37). -/
def lastMarker (s : State) : State :=
  if s.fof.commits.isEmpty then s
  else
    let (n, s1) := takeFree s
    if n % 2 = 0 then s1 else { s1 with fof := { s1.fof with commits := s1.fof.commits.dropLast } }

/-- As `lastMarker`, for an engine that is the active and has not halted before. -/
def activeStops (e : EngId) (s : State) : State :=
  if (s.eng e).core.role = 1 ∧ (s.eng e).core.halted = false then lastMarker s else s

/-- The replies an active still owes to commands that await a commit acknowledgement are no longer held for
it (R341): each such command is marked as answered without MIRRORED. -/
def clearAcks (x : Engine) : Engine :=
  { x with host := { x.host with waiting := x.host.waiting.map fun w => { w with ackOf := none, mirrored := false } } }

/-- The link as an engine is reset: what was on its way to a standby is lost with it, and the active's commands no longer wait for
its acknowledgement (R341); what the active has sent with its marker is delivered (R340). -/
def resetLink (e : EngId) (s : State) : State :=
  let s1 := { s with fof := { s.fof with acks := [] } }
  if s.standby = some (other e) then activeStops e s1
  else ({ s1 with fof := { s1.fof with commits := [] } } : State).modEng (other e) clearAcks

/-- A fuse burn that is cut short (R461): SVN_FUSE is left at its old value or at its new one, and of the keys, which are burned one at a
time in ascending order, the first ones may have been revoked. -/
def cutBurn (n : Nat) (f : FwUnit) : FwUnit :=
  match f.burn with
  | none => f
  | some (svn, keys) =>
    { f with svnFuse := if n % 2 = 1 then svn else f.svnFuse, revoked := f.revoked ||| (keys &&& BitVec.ofNat 4 (2 ^ (n / 2 % 5) - 1)), burn := none }

/-- An engine's burn cut short, by free values. -/
def cutEngineBurn (e : EngId) (s : State) : State :=
  if (s.eng e).fw.burn.isNone then s
  else
    let (n, s1) := takeFree s
    s1.modEng e fun x => { x with fw := cutBurn n x.fw }

/-- An engine is reset and held (R348, R456, R466): it restarts from step 5 of Table 16.1. -/
def resetEngine (e : EngId) (s0 : State) : State :=
  let s := cutEngineBurn e (resetLink e s0)
  let s1 := muteCommands e (lowBalls e (dropSwitch e (abandonSession e s)))
  let s2 := s1.modEng e (engineAfterReset e)
  setRole e 0 { s2 with sup := s2.sup.modView e fun v =>
    { v with ready := false, beat := .none, fofBeat := .none, eligible := false, resetPending := false } }

/-- An engine is held in reset by the supervisor and reported as fenced (R348). -/
def fenceEngine (e : EngId) (s : State) : State :=
  let s1 := resetEngine e s
  let s2 := ({ s1 with sup := s1.sup.modView e fun v => { v with fenced := true } } : State).modEng (other e)
    fun x => { x with twin := { x.twin with peerFenced := true } }
  twinEvent (other e) 6 0 e 0 0 0 s2

/-- The supervisor resets an engine that gave up or fell silent, or fences it on the second time within 24 h
(R348). -/
def resetOrFence (e : EngId) (s : State) : State :=
  let recent := (s.sup.view e).giveUps.filter fun t => decide (s.ticks < t + dayTicks)
  let s1 := { s with sup := s.sup.modView e fun v => { v with giveUps := recent ++ [s.ticks] } }
  if recent.isEmpty then resetEngine e s1 else fenceEngine e s1

/-- An engine's F3 window ends: it gives up (R327). An active with no successor (R330), one on a
single-engine part, or one whose supervisor is faulted (R41) enters Cul-de-sac; a standby that gives up is
reset by the supervisor (R348). -/
def giveUp (e : EngId) (s : State) : State :=
  let x := s.eng e
  let s0 := logEntry e 0 (activeStops e s)
  if x.core.role = 3 ∨ x.core.role = 4 ∨ x.core.role = 5 then s
  else if !twinPart s.part || (x.core.role = 1 && (s.sup.faulty || !hasEligible s)) then enterCul e s0
  else
    let s1 := muteCommands e (dropSwitch e (abandonSession e (stopRepair e s0)))
    let s2 := setRole e 5 (s1.modEng e fun y =>
      dropSamples (cancelWindows (dropCommands
        { y with core := { y.core with mayStart := false }, host := { y.host with replay := [] } })))
    if x.core.role = 1 then s2
    else
      let s3 := s2.modEng (other e) clearAcks
      if s.sup.sound && s.power.steer != e then resetOrFence e s3
      else { s3 with sup := s3.sup.modView e fun v => { v with resetPending := true } }

end Sys2Proof.Machine
end

