-- ==== Sys2Proof/Machine/Collector.lean ====
section
/-! DEFINITION. The fault collector (chapter "Fault collection and reaction"): messages, latches, windows,
reactions, block resets with their shadow sets and probations, and the collector's own faults. -/

namespace Sys2Proof.Machine

/-! ## The catalogue (Table 12.2) -/

/-- The hardware reactions of Table 12.2. -/
inductive Reaction where
  | none
  | giveUp
  | paceDrop
  | reset (b : BlockReset)
deriving DecidableEq, Repr

/-- The class Table 12.2 gives a fault on a part; none for a SOURCE and KIND not in the table. TABLE_SCRUB_FAIL
has two classes and is listed at F3. -/
def faultClass (p : Part) (source kind : Nat) : Option Nat :=
  match source, kind with
  | 0x03, 0x01 => some 1
  | 0x03, 0x02 => some (if underpassPart p then 1 else 2)
  | 0x04, 0x01 => some 1
  | 0x04, 0x02 => some 2
  | 0x04, 0x03 => some 2
  | 0x04, 0x04 => some 3
  | 0x04, 0x05 => some 0
  | 0x05, 0x01 => some 1
  | 0x05, 0x02 => some 0
  | 0x05, 0x03 => some 0
  | 0x05, 0x04 => some 1
  | 0x05, 0x05 => some 1
  | 0x05, 0x06 => some 2
  | 0x05, 0x07 => some 3
  | 0x06, 0x01 => some 0
  | 0x06, 0x02 => some 0
  | 0x06, 0x03 => some 1
  | 0x07, 0x01 => some 0
  | 0x07, 0x02 => some 0
  | 0x07, 0x03 => some 1
  | 0x07, 0x04 => some 0
  | 0x07, 0x05 => some 0
  | 0x07, 0x06 => some 0
  | 0x07, 0x07 => some 1
  | 0x07, 0x08 => some 1
  | 0x08, 0x01 => some 3
  | 0x08, 0x02 => some (if twinPart p then 3 else 2)
  | 0x08, 0x03 => some 0
  | 0x08, 0x04 => some 2
  | 0x08, 0x05 => some 3
  | 0x08, 0x06 => some 2
  | 0x08, 0x07 => some 2
  | 0x08, 0x08 => some 2
  | 0x09, 0x01 => some 2
  | 0x09, 0x02 => some 3
  | 0x0B, 0x01 => some 3
  | 0x0C, 0x01 => some 1
  | 0x0C, 0x02 => some 1
  | 0x0C, 0x03 => some 1
  | 0x0C, 0x04 => some 1
  | 0x0C, 0x05 => some 1
  | 0x0C, 0x06 => some 1
  | 0x0C, 0x07 => some 2
  | 0x0C, 0x08 => some 3
  | 0x0D, 0x01 => some 1
  | 0x0D, 0x02 => some 1
  | 0x0E, 0x01 => some 2
  | 0x0F, 0x01 => some 4
  | 0x0F, 0x02 => some 4
  | 0x10, 0x01 => some 4
  | 0x10, 0x02 => some 4
  | _, _ => none

/-- The reaction at the end of an F2 window of a fault (Table 12.2); the address tells which channel, group or
synthesizer. -/
def reactionOf (source kind : Nat) (address : Word) : Reaction :=
  match source, kind with
  | 0x04, 0x02 => .reset .monitorRestart
  | 0x04, 0x03 => .reset (.staging (Fin.ofNat 10 address.toNat))
  | 0x04, 0x04 => .giveUp
  | 0x05, 0x07 => .giveUp
  | 0x08, 0x01 => .giveUp
  | 0x08, 0x05 => .giveUp
  | 0x09, 0x02 => .giveUp
  | 0x0B, 0x01 => .giveUp
  | 0x05, 0x06 => .reset .repairPass
  | 0x08, 0x02 => .reset .synt
  | 0x08, 0x04 => .reset (.txPll (Fin.ofNat 4 address.toNat))
  | 0x08, 0x06 => .reset .d8Pll
  | 0x08, 0x07 => .reset (.syno (Fin.ofNat 4 address.toNat))
  | 0x08, 0x08 => .reset .fofPll
  | 0x09, 0x01 => .paceDrop
  | 0x0C, 0x07 => .reset .fofRetrain
  | _, _ => .none

/-- The bound of a block reset's window, in microseconds (Table 12.5). -/
def resetBoundUs : BlockReset → Nat
  | .monitorRestart => 10
  | .staging _ => 2
  | .repairPass => 50000
  | .txPll _ => 200
  | .synt => 1000
  | .d8Pll => 100
  | .syno _ => 100
  | .fofPll => 200
  | .fofRetrain => 1000

/-- The shadow set of a block reset, by SOURCE (Table 12.5). -/
def shadowSet : BlockReset → List Nat
  | .monitorRestart => [0x04, 0x09]
  | .staging _ => [0x04, 0x05]
  | .repairPass => [0x05, 0x0D]
  | .txPll _ => [0x06, 0x07, 0x0D]
  | .synt => [0x06, 0x07, 0x08, 0x0D]
  | .d8Pll => []
  | .syno _ => [0x07]
  | .fofPll => [0x0C]
  | .fofRetrain => [0x08, 0x0C]

/-! ## Messages -/

/-- The 64 bits of a message (Table 12.1). -/
def msgBits (m : FaultMsg) : BitVec 64 :=
  BitVec.ofNat 64 (m.source.toNat * 2 ^ 56 + m.kind.toNat * 2 ^ 48 + m.cls.toNat * 2 ^ 45 + bit m.inj * 2 ^ 44
    + bit m.conseq * 2 ^ 43 + bit m.injMixed * 2 ^ 42 + bit m.part * 2 ^ 41 + m.address.toNat * 2 ^ 8 + m.seq.toNat)

/-- The two words of a message. -/
def msgWords (b : BitVec 64) : List Word := words64 b.toNat

/-- A fault record (Table 12.4) offered to the event ring when its class is enabled (R363); `kind` is
RECORD. -/
def faultRecord (e : EngId) (m : FaultMsg) (kind : Nat) (x : Engine) : Engine :=
  if x.fault.enables.getLsbD m.cls.toNat then
    offerEvent e { type := 0x07, body := msgWords (msgBits m) ++ [pack [(kind, 28), (m.tag.toNat, 0)]] ++ stampWords x.now } 89 x
  else x

/-- A count that saturates at 2^32 - 1 (R362). -/
def satCount (n : Nat) : Nat := satN (2 ^ 32 - 1) (n + 1)

/-- A message counted (R362). -/
def countMsg (m : FaultMsg) (f : FaultState) : FaultState :=
  if m.conseq then { f with countConseq := satCount f.countConseq }
  else if m.inj then { f with injCounts := vmodN f.injCounts m.cls.toNat satCount }
  else { f with counts := vmodN f.counts m.cls.toNat satCount }

/-- A message latched, or noted as not kept (R361). -/
def latchMsg (m : FaultMsg) (at_ : Stamp) (l : FaultLatch) : FaultLatch :=
  if l.valid then { l with ovf := true } else { valid := true, ovf := false, msg := msgBits m, time := at_ }

/-- The level of the FAULT interrupt source (Table 15.16 bit 12). -/
def faultIrqLevel (f : FaultState) : Bool := f.first.valid || f.firstInj.valid

/-- FAULT_FIRST or FAULT_FIRST_INJ takes a message (R361); neither does once the checker has raised a fault (R375). -/
def latchInto (m : FaultMsg) (x : Engine) : Engine :=
  if x.fault.frozen then x else
  let f := x.fault
  let at_ := x.now
  let f1 := if m.inj then { f with firstInj := latchMsg m at_ f.firstInj } else { f with first := latchMsg m at_ f.first }
  Engine.edge { x with fault := f1 } (faultIrqLevel f) (faultIrqLevel f1) 12

/-- Whether a source lies in the shadow of a running block reset, or of one that ended less than 2 us ago
(R367). -/
def inShadow (source : Byte) (x : Engine) : Bool :=
  x.fault.resets.any (fun r => !r.late && (shadowSet r.reset).contains source.toNat)
    || x.fault.shadows.any (fun t => (shadowSet t.reset).contains source.toNat && decide (x.time.tbCycles < t.untilCycle))

/-- Whether a source's probation runs (R368). -/
def inProbation (source : Byte) (inj : Bool) (x : Engine) : Bool :=
  x.fault.probations.any fun p => p.source == source && p.inj == inj && decide (x.time.tbCycles < p.untilCycle)

/-- A reaction is a block reset. -/
def Reaction.isReset : Reaction → Bool
  | .reset _ => true
  | _ => false

/-- The reaction of a message. -/
def msgReaction (m : FaultMsg) : Reaction := reactionOf m.source.toNat m.kind.toNat m.address

/-- CONSEQ and escalation, as R368's listing judges a message on arrival. -/
def judgeMsg (m : FaultMsg) (x : Engine) : FaultMsg :=
  if m.cls.toNat ≤ 2 && !m.inj && inShadow m.source x then { m with conseq := true }
  else if m.cls = 2 && (msgReaction m).isReset && inProbation m.source m.inj x then { m with cls := 3 }
  else m

/-! ## Reactions -/

/-- A block reset begins: its window runs, its shadow set holds (R366). -/
def startReset (part : Part) (e : EngId) (b : BlockReset) (m : FaultMsg) (x : Engine) : Engine :=
  let new : RunningReset := { reset := b, source := m.source, kind := m.kind, inj := m.inj, late := false }
  let l := (x.fault.resets.filter fun r => decide (r.reset ≠ b)) ++ [new]
  resetStart part e b { x with fault := { x.fault with resets := l } }

/-- The window of a reset ends: the shadow lasts 2 us more (R367) and the probation of its source begins, three times the
reset's bound long (R368), for injected messages as well where one started it (R371); TB cycles are 2 ns. -/
def closeReset (r : RunningReset) (x : Engine) : Engine :=
  let now := x.time.tbCycles
  let real : Probation := { source := r.source, inj := false, untilCycle := now + 3 * resetBoundUs r.reset * 500 }
  let tail : ShadowTail := { reset := r.reset, untilCycle := now + 1000 }
  { x with fault := { x.fault with
      shadows := x.fault.shadows.filter (fun t => decide (now < t.untilCycle)) ++ [tail],
      probations := x.fault.probations.filter (fun p => decide (now < p.untilCycle))
        ++ (if r.inj then [real, { real with inj := true }] else [real]) } }

/-- A block reset reports ready: it ends; the window of one that is late has ended at its bound (R366-R368). -/
def endReset (b : BlockReset) (x : Engine) : Engine :=
  match x.fault.resets.find? fun r => r.reset = b with
  | none => x
  | some r =>
    let y := if r.late then x else closeReset r x
    resetEnd b { y with fault := { y.fault with resets := y.fault.resets.filter fun q => decide (q.reset ≠ b) } }

/-- The simulated end of an injected reset: only the injected probation is set (R371). -/
def simReset (b : BlockReset) (m : FaultMsg) (x : Engine) : Engine :=
  let now := x.time.tbCycles
  { x with fault := { x.fault with
      probations := x.fault.probations ++ [{ source := m.source, inj := true, untilCycle := now + 3 * resetBoundUs b * 500 }] } }

/-- The pace one step lower (R59): Express to Balanced, Balanced to Frugal. -/
def slowerPace (p : BitVec 2) : BitVec 2 := if p = 1 then 0 else 2

/-- The pace drop on one engine: PACE_DROPPED set, the new pace in effect; a condition that stands at the new floor too is judged
anew, for a further 100 us (R59). -/
def dropPaceOn (p : BitVec 2) (x : Engine) : Engine :=
  Engine.edge { x with pace := { x.pace with pace := p, paceDropped := true, settled := false, ceilingUs := 0, ceilingRaised := false } }
    x.pace.paceDropped true 8

/-- The reaction to PACE_CEILING at window end (R59): a pace drop on both engines, or the raise of
PACE_FRUGAL_CEILING when the pace is already Frugal. -/
def paceDrop (e : EngId) (s : State) : State :=
  let x := s.eng e
  if x.pace.pace = 2 then s.modEng e fun y => y.raise 0x09 0x02 3 0
  else
    let p := slowerPace x.pace.pace
    let s1 := s.modEng e (dropPaceOn p)
    if twinPart s.part && s.sup.sound && (s.eng (other e)).awake then s1.modEng (other e) (dropPaceOn p) else s1

/-- Whether a reaction marked "if the condition still holds" is still called for (R358): only the pace drop is
so marked, and its condition is AT_CEILING. -/
def conditionHolds (r : Reaction) (x : Engine) : Bool :=
  match r with
  | .paceDrop => atCeiling x
  | _ => true

/-- The reaction of an F2 fault is taken, simulated (R370), or skipped because its condition has cleared
(R358), and recorded (R363). -/
def reactF2 (e : EngId) (m : FaultMsg) (s : State) : State :=
  let r := msgReaction m
  if m.inj && !m.act then
    match r with
    | .none => s
    | .reset b => s.modEng e fun x => simReset b m (faultRecord e m 3 x)
    | _ => s.modEng e (faultRecord e m 3)
  else if !conditionHolds r (s.eng e) then s.modEng e (faultRecord e m 4)
  else
    match r with
    | .none => s
    | .giveUp => giveUp e (s.modEng e (faultRecord e m 2))
    | .paceDrop => paceDrop e (s.modEng e (faultRecord e m 2))
    | .reset b => s.modEng e fun x => startReset s.part e b m (faultRecord e m 2 x)

/-- The reaction of an F3 fault: the engine gives up, or the give-up is simulated. -/
def reactF3 (e : EngId) (m : FaultMsg) (s : State) : State :=
  if m.inj && !m.act then s.modEng e (faultRecord e m 3)
  else giveUp e (s.modEng e (faultRecord e m 2))

/-- F4_LATCH takes a message; it keeps the first one until the power cycle (R364). -/
def latchF4 (m : FaultMsg) (x : Engine) : Engine :=
  if x.fault.f4Latched then x
  else { x with fault := { x.fault with f4Latched := true, f4Msg := msgBits m, f4Time := x.now } }

/-- The reaction of an F4 fault (R360, R364, R376): F4_LATCH, the supervisor's log, Cul-de-sac of the module;
or a simulation of it (R370). -/
def reactF4 (e : EngId) (m : FaultMsg) (s : State) : State :=
  if m.inj && !m.act then s.modEng e (faultRecord e m 3)
  else enterCulAll (logEntry e (msgBits m) (s.modEng e fun x => faultRecord e m 2 (latchF4 m x)))

/-! ## Windows -/

/-- A window of this fault runs, of the same kind of message (R359, R371). -/
def windowRuns (m : FaultMsg) (x : Engine) : Bool :=
  x.fault.windows.any fun w => w.msg.source == m.source && w.msg.kind == m.kind && w.msg.inj == m.inj

/-- An F3 window runs, of the same kind of message (R360, R371). -/
def f3Runs (inj : Bool) (x : Engine) : Bool := x.fault.windows.any fun w => w.msg.cls == 3 && w.msg.inj == inj

/-- A window starts (R357); WINDOW interrupts. -/
def openWindow (m : FaultMsg) (x : Engine) : Engine :=
  ({ x with fault := { x.fault with windows := x.fault.windows ++ [{ msg := m }] } } : Engine).irq 13

/-- The windows of a message taken away. -/
def closeWindow (m : FaultMsg) (x : Engine) : Engine :=
  { x with fault := { x.fault with windows := x.fault.windows.filter fun w =>
      !(w.msg.source == m.source && w.msg.kind == m.kind && w.msg.inj == m.inj) } }

/-- A message starts its window, or has its reaction at once when its window is 0 (R357, R359, R360). -/
def startWindow (e : EngId) (m : FaultMsg) (s : State) : State :=
  let x := s.eng e
  if m.cls = 2 then
    if windowRuns m x then s
    else if x.fault.winF2Us = 0 then reactF2 e m s
    else s.modEng e (openWindow m)
  else if m.cls = 3 then
    if f3Runs m.inj x || windowRuns m x then s
    else if x.fault.winF3Us = 0 then reactF3 e m s
    else s.modEng e (openWindow m)
  else if m.cls = 4 then reactF4 e m s
  else s

/-- An F2 window ends: the reaction is taken, simulated or skipped (R357, R358). -/
def endF2 (e : EngId) (source kind : Byte) (inj : Bool) (s : State) : State :=
  match (s.eng e).fault.windows.find? fun w =>
      w.msg.cls = 2 && w.msg.source == source && w.msg.kind == kind && w.msg.inj == inj with
  | none => s
  | some w => reactF2 e w.msg (s.modEng e (closeWindow w.msg))

/-- An F3 window ends: the engine gives up, or its give-up is simulated (R357). -/
def endF3 (e : EngId) (inj : Bool) (s : State) : State :=
  match (s.eng e).fault.windows.find? fun w => w.msg.cls = 3 && w.msg.inj == inj with
  | none => s
  | some w => reactF3 e w.msg (s.modEng e (closeWindow w.msg))

/-! ## Arrival -/

/-- The message the ring passes first: the higher class, then the lower SOURCE (R354). -/
def ringFirst : List FaultMsg → Option FaultMsg
  | [] => none
  | m :: rest =>
    match ringFirst rest with
    | none => some m
    | some n =>
      if n.cls.toNat > m.cls.toNat || (n.cls == m.cls && decide (n.source.toNat < m.source.toNat)) then some n else some m

/-- What the collector does with a message that it judges (R361-R363, R368). -/
def collect (e : EngId) (m : FaultMsg) (s : State) : State :=
  let x := s.eng e
  if !x.fault.collectorOk then
    s.modEng e fun y => faultRecord e m 1 { y with fault := countMsg m y.fault }
  else
    let m1 := judgeMsg m x
    if m1.conseq then
      s.modEng e fun y => faultRecord e m1 1 { y with fault := countMsg m1 y.fault }
    else
      let esc := decide (m1.cls ≠ m.cls)
      let s1 := s.modEng e fun y =>
        let y1 := latchInto m1 y
        let y2 := { y1 with fault := countMsg m1 { y1.fault with
          escalations := if esc then satCount y1.fault.escalations else y1.fault.escalations } }
        faultRecord e m1 1 y2
      startWindow e m1 s1

/-- A message taken off the ring, or out of its slot. -/
def takeMsg (m : FaultMsg) (f : FaultState) : FaultState :=
  if f.ring.contains m then { f with ring := f.ring.erase m }
  else { f with slots := f.slots.filter fun w => decide (w.source ≠ m.source ∨ w.inj ≠ m.inj) }

/-- FAULT_MESSAGE_ARRIVAL: the first message of the ring reaches the collector; nothing when neither the ring nor a slot holds
one. -/
def arriveFault (e : EngId) (s : State) : State :=
  match ringFirst ((s.eng e).fault.ring ++ (s.eng e).fault.slots) with
  | none => s
  | some m => collect e m (s.modEng e fun x => { x with fault := takeMsg m x.fault })

/-- A fault the checker raises directly (R375): F4_LATCH, the supervisor, Cul-de-sac; COLLECTOR_OK reads 0. -/
def checkerFault (e : EngId) (kind : Nat) (s : State) : State :=
  let n := (faultSeq (s.eng e).fault 0x10 + 1) % 256
  let m : FaultMsg :=
    { source := 0x10, kind := BitVec.ofNat 8 kind, cls := 4, inj := false, conseq := false, injMixed := false,
      part := false, address := 0, seq := BitVec.ofNat 8 n, act := true, tag := 0 }
  let s1 := s.modEng e fun x =>
    faultRecord e m 1 (latchF4 m { x with fault := { x.fault with collectorOk := false, frozen := true, seqs := put 0 0x10 n x.fault.seqs } })
  enterCulAll (logEntry e (msgBits m) s1)

end Sys2Proof.Machine
end

