-- ==== Sys2Proof/Machine/Startup.lean ====
section
/-! DEFINITION. Supply, start-up, firmware images and the grants of Table 11.1 (chapters "Start-up, firmware and
compatibility" and "Supply, pins, package and environment"; R325, R349). -/

namespace Sys2Proof.Machine

/-! ## Images (R458, R459) -/

/-- A word of a slot; flash that has not been written reads as all ones. -/
def slotWord (q : FwSlot) (i : Nat) : Word := look 0xFFFFFFFF#32 i q.words

/-- PART_CODE of a part (Table 0.2). -/
def partCode : Part → Nat
  | .rhf3280D => 1
  | .rhf3280S => 2
  | .rhf3240S => 3

/-- The size in bytes of a slot of a unit's flash (R457). -/
def slotSize (u : UnitId) : Nat :=
  match u with
  | .eng _ => 8388608
  | .sup => 1048576

/-- UNIT of the images a unit runs (Table 16.3). -/
def imageUnit (u : UnitId) : Nat :=
  match u with
  | .eng _ => 1
  | .sup => 2

/-- `n` words of a slot from word `i` on, as one number, the first word uppermost: images are big-endian (Table 16.3). -/
def slotBits (q : FwSlot) (i n : Nat) : BitVec 384 :=
  (List.range n).foldl (fun v k => (v <<< 32) ||| (slotWord q (i + k)).setWidth 384) 0

/-- A reserved field of the image header is not 0 (Table 16.3). -/
def headerReserved (q : FwSlot) : Bool :=
  field (slotWord q 1) 7 0 != 0 || field (slotWord q 2) 3 2 != 0 || field (slotWord q 4) 15 0 != 0 || slotWord q 7 != 0
    || (List.range 12).any fun k => slotWord q (44 + k) != 0

/-- The first check of Table 16.4 that fails; 0 when the image verifies (R459). -/
def verifyReason (u : UnitId) (p : Part) (dieStep : Byte) (f : FwUnit) (q : FwSlot) : Nat :=
  let w1 := slotWord q 1
  let w2 := slotWord q 2
  let len := (slotWord q 6).toNat
  let key := field w2 1 0
  if slotWord q 0 != 0x4B524D31#32 || field w1 31 24 != 1 || headerReserved q then 1
  else if field w1 23 16 != imageUnit u || !flag w1 (7 + partCode p) then 2
  else if dieStep.toNat < field w2 31 24 || dieStep.toNat > field w2 23 16 then 3
  else if len % 4 != 0 || len < 4 || len > slotSize u - 320 then 4
  else if q.digest != slotBits q 8 12 then 5
  else if q.keyHash != vget f.keyHash 0 key || f.revoked.getLsbD key then 6
  else if !q.signed then 7
  else if field w2 15 8 < f.svnFuse then 8
  else 0

/-- The unit's stepping; the power die's own stepping is read as 0 (log 1). -/
def unitStep (u : UnitId) (s : State) : Byte :=
  match u with
  | .eng e => (s.eng e).core.dieStep
  | .sup => 0

/-- The firmware block of a unit. -/
def unitFw (u : UnitId) (s : State) : FwUnit :=
  match u with
  | .eng e => (s.eng e).fw
  | .sup => s.sup.fw

/-- The firmware block of a unit changed. -/
def modFw (u : UnitId) (f : FwUnit → FwUnit) (s : State) : State :=
  match u with
  | .eng e => s.modEng e fun x => { x with fw := f x.fw }
  | .sup => { s with sup := { s.sup with fw := f s.sup.fw } }

/-- A slot of the flash that a unit uses (R457). -/
def unitSlot (u : UnitId) (i : Nat) (s : State) : FwSlot :=
  match u with
  | .eng _ => vget s.flash emptySlot i
  | .sup => vget s.sup.slots emptySlot i

/-- A slot of the flash that a unit uses, changed. -/
def modSlot (u : UnitId) (i : Nat) (f : FwSlot → FwSlot) (s : State) : State :=
  match u with
  | .eng _ => { s with flash := vmodN s.flash i f }
  | .sup => { s with sup := { s.sup with slots := vmodN s.sup.slots i f } }

/-- Whether a slot verifies on a unit (R459). -/
def slotPasses (u : UnitId) (i : Nat) (s : State) : Bool :=
  verifyReason u s.part (unitStep u s) (unitFw u s) (unitSlot u i s) == 0

/-- The slot a unit's boot ROM runs, and whether it runs as a trial (R460). -/
def bootChoice (u : UnitId) (s : State) : Option (Nat × Bool) :=
  let f := unitFw u s
  match f.trial with
  | some t =>
    if slotPasses u t s then some (t, true)
    else if slotPasses u f.primary s then some (f.primary, false)
    else if slotPasses u (1 - f.primary) s then some (1 - f.primary, false)
    else none
  | none =>
    if slotPasses u f.primary s then some (f.primary, false)
    else if slotPasses u (1 - f.primary) s then some (1 - f.primary, false)
    else none

/-- A unit runs the image of a slot: what FW.GET_INFO reports of it. -/
def runImage (slot : Nat) (trial : Bool) (q : FwSlot) (f : FwUnit) : FwUnit :=
  { f with running := some slot, trialRun := trial, fallback := !trial && slot != f.primary,
           fwVersion := slotWord q 3, level := BitVec.ofNat 16 (field (slotWord q 4) 31 16),
           levelMin := BitVec.ofNat 16 (field (slotWord q 5) 31 16), levelMax := BitVec.ofNat 16 (field (slotWord q 5) 15 0),
           runSvn := field (slotWord q 2) 15 8, runRevoke := BitVec.ofNat 4 (field (slotWord q 2) 7 4),
           runKey := BitVec.ofNat 2 (field (slotWord q 2) 1 0) }

/-- A unit with nothing running, served by its boot ROM (Table 16.6). -/
def runNothing (f : FwUnit) : FwUnit :=
  { f with running := none, trialRun := false, fallback := false, fwVersion := 0, level := 0xFFFF#16, levelMin := 0,
           levelMax := 0, runSvn := 0, runRevoke := 0, runKey := 0 }

/-- The boot ROM's choice made: TRIAL is cleared before the attempt (R460). -/
def bootUnit (u : UnitId) (s : State) : State :=
  let choice := bootChoice u s
  let s1 := modFw u (fun f => { f with trial := none }) s
  match choice with
  | some (i, t) => modFw u (runImage i t (unitSlot u i s)) s1
  | none => modFw u runNothing s1

/-! ## Grants (Table 11.1) -/

/-- An engine becomes the active: ROLE 0x1, and it may start frames. -/
def becomeActive (e : EngId) (s0 : State) : State :=
  let s := { s0 with power := { s0.power with alignerHolds := false, alignerLow := false } }
  (setRole e 1 s).modEng e fun x =>
    { x with core := { x.core with mayStart := true }, twin := { x.twin with sync := 0, tbPhaseErr := 0, storing := false } }

/-- A standby refuses the copy of an active whose level does not fit (R349). -/
def refuseCopy (e : EngId) (s : State) : State :=
  let lvl := (s.eng (other e)).fw.level
  twinEvent e 8 0 e 0 (statusCode .version).toNat 0 (setCopy 4 (s.modEng e fun x => x.raise 0x0C 0x05 1 (lvl.setWidth 32)))

/-- An engine joins as standby (R325, R342, R349): its copy starts, is suspended with the link down, or is
refused between levels that do not fit. -/
def joinStandby (e : EngId) (s : State) : State :=
  let sup := s.sup.modView e fun v => { v with eligible := true }
  let s1 := setRole e 2 { s with sup := { sup with swapNext := none, swapRetries := 0 } }
  let s2 := s1.modEng e fun x => { x with twin := { x.twin with sync := 0, storing := false, cfgGenSeen := x.host.cfgGen } }
  let mine := (s.eng e).fw
  let peer := (s.eng (other e)).fw
  let gen := (s.eng (other e)).host.cfgGen
  let begun (x : Engine) : Engine := { x with twin := { x.twin with cfgGenSeen := if s.fof.up then gen else x.host.cfgGen } }
  if compatible mine peer then
    setCopy (if s.fof.up then 1 else 3) ({ s2 with fof := { s2.fof with announced := if s.fof.up then gen else 0 } }.modEng e begun)
  else refuseCopy e s2

/-- Whether an engine waits for its first role: it has reported ready, its level was found compatible, and
no F4 holds the module. -/
def awaitsRole (e : EngId) (s : State) : Bool :=
  let x := s.eng e
  let v := s.sup.view e
  engFitted s.part e && x.core.phase == .ready && x.core.role == 0 && v.ready && !v.fenced && v.compatible && !s.power.f4Held

/-- One engine's grant, as Table 11.1 decides it now. -/
def grantOne (e : EngId) (s : State) : State :=
  if !awaitsRole e s || !s.sup.sound || s.sup.switch.isSome then s
  else if !twinPart s.part then becomeActive e s
  else
    let r := (s.eng (other e)).core.role
    if r = 1 then joinStandby e s
    else match e with
      | .a => setSteer .a (becomeActive .a s)
      | .b => if s.sup.bTimeout || r == 3 then setSteer .b (becomeActive .b s) else s

/-- ROLE_GRANT (R325): the supervisor judges both engines, A first; a grant to one may let the other join. -/
def judgeGrants (s : State) : State := grantOne .a (grantOne .b (grantOne .a s))

/-! ## Supply -/

/-- An engine with the rails off: its state is lost, its RS fields and fuses are kept (R474). -/
def engineUnpowered (e : EngId) (x : Engine) : Engine :=
  let f := { faultReset with f4Latched := x.fault.f4Latched, f4Msg := x.fault.f4Msg, f4Time := x.fault.f4Time,
                             frozen := x.fault.frozen }
  { engineReset e with
      cal := { calKept x.cal with returned := [] },
      core := { coreReset with phase := .off, dieStep := x.core.dieStep }, fault := f,
      twin := twinEngineReset x.twin,
      fw := { runNothing x.fw with maintCause := 0, session := none, burn := none, restart := none } }

/-- The RS fields of an engine cleared, and what else lasts until a power cycle (R19, R361, R475). -/
def clearRS (x : Engine) : Engine :=
  { x with fault := { x.fault with f4Latched := false, f4Msg := 0, f4Time := stampZero, frozen := false,
                                   first := latchReset, firstInj := latchReset },
           twin := { x.twin with selfFaulty := false, switches := 0, peerFenced := false } }

/-- Every write session of the module is abandoned (R463). -/
def abandonAll (s : State) : State :=
  let s1 := abandonSession .b (abandonSession .a s)
  match s1.sup.fw.session with
  | none => s1
  | some q => { s1 with sup := { s1.sup with slots := abandonSlot q.slot s1.sup.slots, fw := { s1.sup.fw with session := none } } }

/-- The supervisor without power: its firmware stops; its flash, its fuses and its log are kept, and so is its
record of which engine is fenced (R348). -/
def supUnpowered (p : SupState) : SupState :=
  { supReset with log := p.log, slots := p.slots,
                  viewA := { viewReset with fenced := p.viewA.fenced }, viewB := { viewReset with fenced := p.viewB.fenced },
                  fw := { runNothing p.fw with session := none, burn := none, restart := none } }

/-- Every fuse burn that runs is cut short (R461). -/
def cutBurns (s : State) : State :=
  let s1 := cutEngineBurn .b (cutEngineBurn .a s)
  if s1.sup.fw.burn.isNone then s1
  else
    let (n, s2) := takeFree s1
    { s2 with sup := { s2.sup with fw := cutBurn n s2.sup.fw } }

/-- The module loses its rails (Table 17.1): engines off, outputs low, FAULT_N released. -/
def loseRails (brown : Bool) (s : State) : State :=
  let s0 := cutBurns (abandonAll s)
  { s0 with power := { s0.power with supplyValid := false, brownOut := brown, onHoldup := false, charging := false,
                                     railsUp := false, railsGood := false, alignerHolds := false, alignerLow := false, evtBalls := 0,
                                     startStep := 0 },
            sup := supUnpowered s0.sup, fof := fofReset, engA := engineUnpowered .a s0.engA,
            engB := engineUnpowered .b s0.engB }

/-- The start-up begins (R473, R35, R19): the start-up sequence begins; the steering latches stand on engine A; after a
power cycle the RS fields read 0. -/
def startSupply (s : State) : State :=
  if s.power.supplyValid then s
  else
    let hold (x : Engine) : Engine := { x with core := { x.core with phase := .held } }
    let s1 := { s with power := { s.power with supplyValid := true, brownOut := false, steer := .a, startStep := 1,
                                               f4Held := s.power.f4Held && !s.power.cycled,
                                               alignerLow := s.power.f4Held && !s.power.cycled } }
    let s2 := s1.modBoth hold
    if s2.power.cycled then
      let unfence (v : EngView) : EngView := { v with fenced := false }
      { s2.modBoth clearRS with
        power := { s2.power with cycled := false },
        sup := { s2.sup with viewA := unfence s2.sup.viewA, viewB := unfence s2.sup.viewB } }
    else s2

/-! ## The events of start-up -/

/-- SUPPLY_VALID (R473): start-up begins with the steering latched to engine A (R35). -/
def execSupplyValid (s : State) : Host.Outcome State Fault Refusal := .next (startSupply s)

/-- BROWN_OUT (R474): the sequence of Table 17.1, to its last step. -/
def execBrownOut (s : State) : Host.Outcome State Fault Refusal :=
  .next (if s.power.supplyValid then loseRails true s else s)

/-- POWER_CYCLE (R19, R475): both inputs below 3 V for 100 ms clear the retention latches; the RS fields read 0
from the supply-valid that follows. -/
def execPowerCycle (s : State) : Host.Outcome State Fault Refusal :=
  .next { s with power := { s.power with cycled := true } }

/-- HOLDUP_DRAW (R477): the stage draws from HOLDUP; every function continues. -/
def execHoldupDraw (s : State) : Host.Outcome State Fault Refusal :=
  .next (if s.power.supplyValid then { s with power := { s.power with onHoldup := true, charging := false } } else s)

/-- HOLDUP_RETURN (R477): the stage returns to the inputs and resumes charging once step 3 has come. -/
def execHoldupReturn (s : State) : Host.Outcome State Fault Refusal :=
  .next (if s.power.supplyValid then
    { s with power := { s.power with onHoldup := false, charging := s.power.railsUp } } else s)

/-- An engine that has power is reset and held; the engine without power stays so. -/
def resetPowered (e : EngId) (s : State) : State :=
  if engFitted s.part e && (s.eng e).core.phase != .off then resetEngine e s else s

/-- RESET_N_ASSERT (R456, R485): every engine is reset and held; supervisor, latches and RS fields are not
touched. -/
def rowResetNAssert (s : State) : Host.Outcome State Fault Refusal :=
  let s1 := endPlan .state { s with power := { s.power with resetLow := true }, sup := { s.sup with switch := none } }
  .next (resetPowered .b (resetPowered .a s1))

/-- Whether an engine may leave reset now: rails up, RESET_N high, not fenced, and a supervisor that has run its
firmware (R348, R460, R476). -/
def mayLeave (e : EngId) (s : State) : Bool :=
  engFitted s.part e && s.power.railsUp && !s.power.resetLow && !(s.sup.view e).fenced
    && (s.sup.running || s.sup.restarting) && !s.sup.bootRom && (s.eng e).core.phase == .held

/-- An engine leaves reset (step 5 or 6 of Table 16.1): its register window answers and its counters start from
their reset values (R5, R69, R399). -/
def leaveReset (e : EngId) (s : State) : State :=
  if mayLeave e s then
    let peer := if twinPart s.part && s.sup.sound then (s.eng (other e)).core.role else 0
    let s1 := { s with power := { s.power with startStep := 5 } }
    s1.modEng e fun x => { x with core := { x.core with phase := .released, peerRole := peer } }
  else s

/-- RESET_N_RELEASE (R456, R476): engine A leaves reset at once when step 5 has been reached; the 1.5 s of Table
11.1 count anew. -/
def execResetNRelease (s : State) : Host.Outcome State Fault Refusal :=
  let s1 := { s with power := { s.power with resetLow := false }, sup := { s.sup with bTimeout := false } }
  .next (if s1.power.startStep = 5 then leaveReset .a s1 else s1)

/-- A power-die fault with no engine running to take its message: the supervisor writes it into its log, from which SPI reads it, and takes
the module into Cul-de-sac (R356, R364, Table 12.7; DEDUCED, log 170). -/
def supervisorFault (kind : Nat) (address : Word) (s : State) : State :=
  let e := s.power.steer
  let n := (faultSeq (s.eng e).fault 0x0F + 1) % 256
  let m : FaultMsg :=
    { source := 0x0F, kind := BitVec.ofNat 8 kind, cls := 4, inj := false, conseq := false, injMixed := false,
      part := false, address := address, seq := BitVec.ofNat 8 n, act := true, tag := 0 }
  enterCulAll (logEntry e (msgBits m) (s.modEng e fun x => { x with fault := { x.fault with seqs := put 0 0x0F n x.fault.seqs } }))

/-- A fault of the power die, raised by the supervisor into the ring of every running engine, whose F4 the supervisor then logs for SPI to
read (R356, R364). -/
def powerDieFault (kind : Nat) (address : Word) (s : State) : State :=
  if s.sup.running then
    if s.engA.running || (twinPart s.part && s.engB.running) then
      s.modBoth fun x => if x.running then x.raise 0x0F kind 4 address else x
    else supervisorFault kind address s
  else s

/-- RAIL_FAULT (R356, R454): a rail outside its window for 10 us; PWRGOOD goes low. -/
def execRailFault (rail : Word) (s : State) : Host.Outcome State Fault Refusal :=
  .next (powerDieFault 0x01 rail { s with power := { s.power with railsGood := false } })

/-- STEER_FAULT (R356): the read-back of the latches disagrees. -/
def execSteerFault (s : State) : Host.Outcome State Fault Refusal := .next (powerDieFault 0x02 0 s)

/-- POWER_DIE_OVERTEMP (R501): RAIL_FAULT with ADDRESS 0xFF. -/
def execPowerDieOvertemp (s : State) : Host.Outcome State Fault Refusal :=
  .next (powerDieFault 0x01 0xFF#32 { s with power := { s.power with railsGood := false } })

/-- THERMAL_SHUTDOWN (R501): every rail is switched off, as for a brown-out. -/
def execThermalShutdown (s : State) : Host.Outcome State Fault Refusal :=
  .next (if s.power.supplyValid then loseRails true s else s)

/-- The supervisor's judgement of an engine's level (R468, R469): an engine that runs firmware. -/
def judgeLevel (e : EngId) (s : State) : State :=
  let ok := compatible (s.eng e).fw s.sup.fw
  { s with sup := s.sup.modView e fun v => { v with compatible := ok } }

/-- SUPERVISOR_BOOT (R460, R467, R469, R492): the boot ROM chooses, verifies and starts an image, or serves SPI by
itself. A restart disturbs no engine and writes no latch (R35). -/
def execSupervisorBoot (s : State) : Host.Outcome State Fault Refusal :=
  if !s.power.supplyValid || s.sup.running then .next s
  else
    let s1 := bootUnit .sup s
    let s2 := { s1 with power := { s1.power with startStep := max s1.power.startStep 2 } }
    if s2.sup.fw.running.isNone then
      .next { s2 with sup := { s2.sup with bootRom := true, restarting := false, fw := { s2.sup.fw with maintCause := 1 } } }
    else
      let s3 := { s2 with sup := { s2.sup with running := true, bootRom := false, restarting := false, fw := { s2.sup.fw with maintCause := 0 } } }
      .next (judgeGrants (judgeLevel .b (judgeLevel .a (reportRoles s3))))

/-- RAIL_SEQUENCE_DONE (Table 16.1 steps 3 and 4, R477): rails in regulation, VCORE at 850 mV, HOLDUP charging,
the steering latched to engine A. -/
def execRailSequenceDone (s : State) : Host.Outcome State Fault Refusal :=
  if s.sup.running && s.power.supplyValid && !s.power.railsUp then
    let s1 := { s with power := { s.power with railsUp := true, railsGood := true, charging := !s.power.onHoldup, steer := .a,
                                               startStep := 4 } }
    .next (s1.modBoth fun x => { x with pace := { x.pace with vcoreMv := 850 } })
  else .next s

/-- ENGINE_LEAVE_RESET (Table 16.1 steps 5 and 6). -/
def execEngineLeaveReset (e : EngId) (s : State) : Host.Outcome State Fault Refusal :=
  if engFitted s.part e then .next (leaveReset e s) else .refused .noSuchUnit

/-- An engine in maintenance mode (R470), with its cause. -/
def enterMaint (e : EngId) (cause : Nat) (s : State) : State :=
  setRole e 3 (s.modEng e fun x => { x with core := { x.core with phase := .firmware }, fw := { x.fw with maintCause := cause } })

/-- An engine's firmware starts: CAL_RECORD_BAD for every record that failed its check (R391). -/
def startFirmware (e : EngId) (bad : List Nat) (s : State) : State :=
  s.modEng e fun x =>
    let x1 := { x with core := { x.core with phase := .firmware } }
    bad.foldl (fun y n => y.raise 0x0D 0x02 1 (word n)) (bootRecords bad x1)

/-- An engine that has started beside a faulted supervisor, found outside its interface range when that recovers: maintenance mode
(Table 11.1, R469). -/
def judgeStarted (e : EngId) (s : State) : State :=
  let x := s.eng e
  if engFitted s.part e && x.running && x.core.role == 0 && s.sup.sound && !(s.sup.view e).compatible then enterMaint e 2 s else s

/-- ENGINE_BOOT (R460, R468, R391, R379): the image is chosen and runs, or the engine comes up in maintenance
mode; while an F4 holds the module, the engine enters Cul-de-sac at step 8 (Table 12.8). -/
def execEngineBoot (e : EngId) (recordsBad : List Nat) (s : State) : Host.Outcome State Fault Refusal :=
  if !engFitted s.part e then .refused .noSuchUnit
  else if (s.eng e).core.phase ≠ .released then .next s
  else
    let maint := (s.eng e).fw.maintCause = 3
    let s1 := judgeLevel e (bootUnit (.eng e) s)
    if (s1.eng e).fw.running.isNone then .next (judgeGrants (if s.power.f4Held then enterCul e s1 else enterMaint e 1 s1))
    else
      let s2 := startFirmware e recordsBad s1
      if s.power.f4Held then .next (judgeGrants (enterCul e s2))
      else if maint then .next (judgeGrants (enterMaint e 3 s2))
      else if s.sup.sound && !(s2.sup.view e).compatible then .next (judgeGrants (enterMaint e 2 s2))
      else .next s2

/-- INITIAL_CALIBRATION_DONE (R455): the start-up repair pass has run (step 9 of Table 16.1), INIT_DONE reads 1, and the kinds of R455 have
completed once. -/
def execInitialCalibrationDone (e : EngId) (s : State) : Host.Outcome State Fault Refusal :=
  onEngine e s fun s =>
    let x := s.eng e
    if x.core.phase = .firmware ∧ x.core.role = 0 then
      initialCalibration e (startPass e (s.setEng e { x with core := { x.core with phase := .calibrated } }))
    else s

/-- ENGINE_READY (R453): the engine reports ready, and the supervisor judges the grants (R325). -/
def execEngineReady (e : EngId) (s : State) : Host.Outcome State Fault Refusal :=
  onEngine e s fun s =>
    let x := s.eng e
    if x.core.phase = .calibrated ∧ x.core.role = 0 ∧ s.power.f4Held = false then
      let s1 := s.modEng e fun y => { y with core := { y.core with phase := .ready } }
      judgeGrants { s1 with sup := s1.sup.modView e fun v => { v with ready := true } }
    else s

/-- ENGINE_B_START_TIMEOUT (Table 11.1): 1.5 s have passed without engine A reporting ready. -/
def execEngineBStartTimeout (s : State) : Host.Outcome State Fault Refusal :=
  onTwin s fun s => judgeGrants { s with sup := { s.sup with bTimeout := true } }

end Sys2Proof.Machine
end

