-- ==== Sys2Proof/Machine/Calibration.lean ====
section
/-! DEFINITION. Calibration and repair (chapter "Calibration and repair"): probes, trims, quality figures, starvation,
repair passes and the CAL commands. -/

namespace Sys2Proof.Machine

/-! ## Paths -/

/-- The probes a kind needs (Table 13.1). -/
def probesOf (kind : Nat) : Nat :=
  match kind with
  | 0 => 1024
  | 1 => 4096
  | 2 => 4096
  | 3 => 65536
  | 4 => 1024
  | 5 => 256
  | _ => 4096

/-- The number of paths of a kind (R382). -/
def pathsOf (kind : Nat) : Nat := if kind ≤ 3 then 32 else if kind = 4 then 20 else if kind = 5 then 8 else 4

/-- A path is present on a part. -/
def pathPresent (p : Part) (kind idx : Nat) : Bool :=
  if kind ≤ 3 then decide (idx < lanesOf p) else if kind = 6 then twinPart p && decide (idx < 4) else decide (idx < pathsOf kind)

/-- The port that a lane carries: that of its group while it is grouped. -/
def laneOwner (x : Engine) (l : Nat) : Nat := if x.unused l then l / 4 * 4 else l

/-- The receiver of a lane holds its lock. A group's conditions are those of its four lanes together; while one is lost, a lane by its own
number tells that it still holds them (DEDUCED, log 172). -/
def laneLocked (x : Engine) (l : Nat) : Bool :=
  let q := x.port (laneOwner x l)
  (q.signal && q.lock) || (x.unused l && (x.port l).signal && (x.port l).lock)

/-- A kind is suspended on a path (R383): a transmit PCS runs while its TX PLL holds lock (Table 1.5). -/
def suspendedPath (x : Engine) (kind idx : Nat) : Bool :=
  (decide (kind ≥ 1) && x.clk.fallback) || (decide (kind ≤ 1) && !laneLocked x idx)
    || (kind == 2 && ((x.port (laneOwner x idx)).mode == 0 || laneSquelched x idx))

/-- A kind is enabled (Table 13.5). -/
def kindEnabled (x : Engine) (kind : Nat) : Bool := x.cal.enable.getLsbD kind

/-- A path that uses default values: the timing set of its lane and coding, or the record of its output, input or Fofaene
lane, has failed (R391). Those records are numbered from 600 on (log 19). -/
def pathDefaults (x : Engine) (kind idx : Nat) : Bool :=
  match kind with
  | 1 => x.defaulted idx (codingOf (x.port (laneOwner x idx)).modeNow) 0
  | 2 => x.defaulted idx (codingOf (x.port (laneOwner x idx)).modeNow) 1
  | 4 => x.cal.badSets.contains (600 + idx)
  | 5 => x.cal.badSets.contains (640 + idx)
  | 6 => x.fofDefault idx
  | _ => false

/-- The trim of a path stays at its limit, short of what is needed (R385). -/
def trimSat (k : CalPath) : Bool :=
  (decide (k.target > 511) && decide (k.trim = 511)) || (decide (k.target < -511) && decide (k.trim = -511))

/-! ## Status -/

/-- A quality figure of 0.01 ps in units of 0.25 ps. -/
def quarterPs (q : Nat) : Nat := q / 25

/-- Table 13.6. -/
def calStatus (kind idx : Nat) (done : Bool) (x : Engine) : List Word :=
  let k := x.path kind idx
  let q := if kind = 0 then k.q else satN 65535 (quarterPs (x.quality kind idx))
  [word k.count, word k.deferred] ++ stampWords k.last ++
    [pack [(q, 16), (bit (pathDefaults x kind idx), 15), (bit k.starved, 14), (bit (trimSat k), 13), (bit (suspendedPath x kind idx), 12)],
     pack [((BitVec.ofInt 16 k.tLast).toNat, 16), (bit done, 0)],
     pack [(if kind = 0 ∨ kind = 3 then 0 else (BitVec.ofInt 16 k.trim).toNat, 0)]]

/-- The sum of the spares in use. -/
def spareSum (t : List (Nat × Nat)) : Nat := (t.map fun e => e.2).sum

/-- A lane's word of Table 13.4. -/
def laneWord (x : Engine) (l : Nat) : Word :=
  let c := codingOf (x.port (laneOwner x l)).modeNow
  let rx := x.path 1 l
  let tx := x.path 2 l
  pack [((x.path 0 l).q % 1024, 22), (bit (x.uncal l c 0), 21), (bit (x.uncal l c 1), 20), (bit rx.starved, 19), (bit tx.starved, 18),
        (bit (trimSat rx || trimSat tx), 17), (satN 255 (quarterPs (x.quality 1 l)), 8), (satN 255 (quarterPs (x.quality 2 l)), 0)]

/-- The calibration registers (Table 13.4). -/
def calReg (part : Part) (x : Engine) (off : Nat) : Option Word :=
  let c := x.cal
  match off with
  | 0x0D00 => some (pack [(bit c.initDone, 31), (bit c.repairing, 30), (bit (decide (c.records.length ≥ 512)), 29), (bit x.clk.fallback, 28),
                          (satN 255 c.recordsBad, 16), ((BitVec.ofInt 16 x.dieTemp).toNat, 0)])
  | 0x0D04 => some (pack [(satN 255 (spareSum c.spareRows), 24), (satN 255 (spareSum c.spareCols), 16), (satN 255 (spareSum c.amSpares), 8)])
  | 0x0D08 => some (word ((List.range (lanesOf part)).map fun l => bit ((x.path 1 l).starved || (x.path 2 l).starved) * 2 ^ l).sum)
  | _ =>
    if off ≥ 0x0D80 ∧ off < 0x0D80 + 4 * 32 ∧ off % 4 = 0 then
      let l := (off - 0x0D80) / 4
      some (if l < lanesOf part then laneWord x l else 0)
    else none

/-! ## Probes, completion and deferral -/

/-- The integer square root, by its bits from the `fuel`-th down. -/
def isqrtFrom : Nat → Nat → Nat → Nat
  | 0, _, r => r
  | fuel + 1, n, r => let t := r + 2 ^ fuel
                      isqrtFrom fuel n (if t * t ≤ n then t else r)

/-- Three times the standard error of `n` probes, in their unit; at least 1 ps (R387). -/
def qualityOf (n : Nat) (sum : Int) (sumSq : Nat) : Nat :=
  let v : Int := 9 * ((n * sumSq : Nat) - sum * sum)
  max 100 (isqrtFrom 40 (v.toNat / (n * n * n)) 0)

/-- A calibration completed with its probes (R385, R387). -/
def completeCal (kind idx : Nat) (x : Engine) : Engine :=
  let now := x.now
  let cyc := x.time.tbCycles
  let tmp := x.dieTemp
  let coding := codingOf (x.port (laneOwner x idx)).modeNow
  x.modPath kind idx fun k =>
    let mean : Int := k.sum / (k.probes : Int)
    let target := if kind = 0 ∨ kind = 3 then 0 else k.trim - (mean + 12) / 25
    { k with count := satN (2 ^ 32 - 1) (k.count + 1), last := now, at_ := cyc, tLast := tmp, due := false, probes := 0, sum := 0, sumSq := 0,
             q := if kind = 0 then k.narrow else qualityOf k.probes k.sum k.sumSq, starved := false, target := target,
             trims := insertAt coding target k.trims }

/-- A CAL.RUN that waits for a path is answered (Table 13.5). -/
def answerRun (e : EngId) (kind : Fin 7) (idx : Nat) (done : Bool) (s : State) : State :=
  complete e (.calRun kind idx) .ok (fun x _ => calStatus kind.val idx done x) s

/-- CAL_DUE (R382). -/
def execCalDue (e : EngId) (kind : Fin 7) (idx : Nat) (s : State) : Host.Outcome State Fault Refusal :=
  onEngine e s fun s => s.modEng e fun x =>
    if pathPresent s.part kind.val idx && !(x.path kind.val idx).due && kindEnabled x kind.val then
      x.modPath kind.val idx fun k => { k with due := true, probes := 0, sum := 0, sumSq := 0 }
    else x

/-- CAL_PROBE (R382, R387): a probe of a calibration that is due, discarded when `ok` is false. `value` is the error of the
path against its set value in 0.01 ps, or the eye width in UI/1,000 for kind 0. -/
def rowCalProbe (e : EngId) (kind : Fin 7) (idx : Nat) (ok : Bool) (value : Int) (s : State) : Host.Outcome State Fault Refusal :=
  onEngine e s fun s =>
    let x := s.eng e
    let n := kind.val
    if ok && pathPresent s.part n idx && (x.path n idx).due && kindEnabled x n && !suspendedPath x n idx then
      let y := x.modPath n idx fun k =>
        { k with probes := k.probes + 1, sum := k.sum + value, sumSq := k.sumSq + value.natAbs * value.natAbs,
                 narrow := if k.probes = 0 then value.toNat else min k.narrow value.toNat }
      if (y.path n idx).probes ≥ probesOf n then answerRun e kind idx true (s.setEng e (completeCal n idx y))
      else s.setEng e y
    else s

/-- CAL_STARVE (R394). -/
def rowCalStarve (e : EngId) (kind : Fin 7) (idx : Nat) (s : State) : Host.Outcome State Fault Refusal :=
  onEngine e s fun s =>
    let x := s.eng e
    let n := kind.val
    if pathPresent s.part n idx && (x.path n idx).due && kindEnabled x n && !suspendedPath x n idx then
      let y := x.modPath n idx fun k =>
        { k with probes := 0, sum := 0, sumSq := 0, deferred := satN (2 ^ 32 - 1) (k.deferred + 1), starved := true }
      let z := if (x.path n idx).starved then y else y.raise 0x0D 0x01 1 (pack [(n, 8), (idx, 0)])
      answerRun e kind idx false (s.setEng e z)
    else s

/-- One path's trim moved by at most 4 steps; at its limit the rest is added digitally (R385). -/
def stepTrim (k : CalPath) : CalPath :=
  let goal := max (-511) (min 511 k.target)
  let d := max (-4) (min 4 (goal - k.trim))
  let t := k.trim + d
  { k with trim := t, sat := if t = goal then (t - k.target) * 25 else k.sat }

/-- TRIM_STEP (R385): every 1 ms; a disabled kind holds its trims (Table 13.5). -/
def execTrimStep (e : EngId) (s : State) : Host.Outcome State Fault Refusal :=
  onEngine e s fun s => s.modEng e fun x =>
    { x with cal := { x.cal with paths := x.cal.paths.map fun q => if kindEnabled x (q.1 / 64) then (q.1, stepTrim q.2) else q } }

/-- DIE_TEMP_READ (R389): a reading in 0.125 degrees enters the mean of the last 16. -/
def execDieTempRead (e : EngId) (raw : Int) (s : State) : Host.Outcome State Fault Refusal :=
  onEngine e s fun s => s.modEng e fun x => { x with cal := { x.cal with temps := (raw :: x.cal.temps).take 16 } }

/-! ## Repair passes (R392) -/

/-- The reply of CAL.REPAIR (Table 13.5). -/
def repairReply (returned : Nat) (x : Engine) (_ : Waiting) : List Word :=
  [pack [(returned % 65536, 16), (x.buf.retired.length % 65536, 0)],
   pack [(satN 255 (spareSum x.cal.spareRows), 24), (satN 255 (spareSum x.cal.spareCols), 16), (satN 255 (spareSum x.cal.amSpares), 8)]]

/-- REPAIR_PASS_END (R392). -/
def rowRepairPassEnd (e : EngId) (s : State) : Host.Outcome State Fault Refusal :=
  onEngine e s fun s =>
    let x := s.eng e
    if x.cal.repairing then
      let y := repairPass s.freeCtr x
      let n := x.buf.retired.length - y.buf.retired.length
      let s1 := { s with freeCtr := s.freeCtr + (testedCells x).length }
      complete e .repair .ok (repairReply n) (s1.setEng e (endReset .repairPass y))
    else s

/-! ## Commands -/

/-- CAL.SET (Table 13.5). -/
def calSetSpec : CmdSpec :=
  configSpec 0x0D01 (lenIs 1) (fun ps => zeroBits ps 0 31 23 && zeroBits ps 0 15 10)
    (fun _ ps _ => rangeIf (decide (field (par ps 0) 9 0 < 1) || decide (field (par ps 0) 9 0 > 600))) neverJudge
    (fun c ps s => onSelf c (fun x =>
      { x with cal := { x.cal with enable := BitVec.ofNat 7 (field (par ps 0) 22 16), starveS := field (par ps 0) 9 0 } }) s)

/-- KIND and INDEX of a CAL command. -/
def calKind (ps : List Word) : Nat := field (par ps 0) 10 8
/-- INDEX of a CAL command. -/
def calIdx (ps : List Word) : Nat := field (par ps 0) 5 0

/-- An absent path named by a CAL command. -/
def calAbsent (p : Part) (ps : List Word) : Bool :=
  (calKind ps == 6 && !twinPart p) || (decide (calKind ps ≤ 3) && decide (calIdx ps < 32) && decide (calIdx ps ≥ lanesOf p))

/-- A KIND or INDEX out of range. -/
def calRange (_ : Ctx) (ps : List Word) (_ : State) : Option (List Word) :=
  rangeIf (calKind ps == 7 || decide (calIdx ps ≥ pathsOf (calKind ps)))

/-- CAL.GET_STATUS. -/
def calGetStatusSpec : CmdSpec :=
  readSpec 0x0D02 true (lenIs 1) (fun ps => zeroBits ps 0 31 11 && zeroBits ps 0 7 6) calAbsent calRange neverJudge
    (fun c ps s => .now s (calStatus (calKind ps) (calIdx ps) false (s.eng c.eng)))

/-- CAL.RUN: the calibration is due at once, and the reply waits for it. -/
def calRunSpec : CmdSpec :=
  readSpec 0x0D03 false (lenIs 1) (fun ps => zeroBits ps 0 31 11 && zeroBits ps 0 7 6) calAbsent calRange
    (fun c ps s =>
      let x := s.eng c.eng
      let k := calKind ps
      firstOf [statusIf (!kindEnabled x k || suspendedPath x k (calIdx ps)) .state,
               statusIf (!noWaiting (.calRun (Fin.ofNat 7 k) (calIdx ps)) x) .busy])
    (fun c ps s =>
      let due (k : CalPath) : CalPath := if k.due then k else { k with due := true, probes := 0, sum := 0, sumSq := 0 }
      { state := s.modEng c.eng fun x => x.modPath (calKind ps) (calIdx ps) due, body := [],
        await := some (.calRun (Fin.ofNat 7 (calKind ps)) (calIdx ps)) })

/-- CAL.REPAIR: a pass begins, with its shadow set (R392); it is a block reset of the buffers, the reaction of CELL_RETIRE_LIMIT
(Table 12.2, R366). -/
def calRepairSpec : CmdSpec :=
  readSpec 0x0D04 false (lenIs 1) (fun ps => zeroBits ps 0 31 1) (fun p ps => flag (par ps 0) 0 && !underpassPart p) neverRange
    (fun c _ s => statusIf (s.eng c.eng).cal.repairing .busy)
    (fun c ps s =>
      let run : RunningReset := { reset := .repairPass, source := 0x05, kind := 0x06, inj := false, late := false }
      { state := s.modEng c.eng fun x =>
          { x with cal := { x.cal with repairing := true, underpass := flag (par ps 0) 0 },
                   fault := { x.fault with resets := x.fault.resets ++ [run] } },
        body := [], await := some .repair })

end Sys2Proof.Machine
end

