-- ==== Sys2Proof/Machine/NetTime.lean ====
section
/-! DEFINITION. Network time (chapter "Network time across the corridor"): what the time engine does with PTP messages,
samples and servo states, anchors, fibre asymmetry, and the TIME commands of that chapter. -/

namespace Sys2Proof.Machine

/-- A free value as an integer: even numbers are not negative, odd ones negative. -/
def freeInt (n : Nat) : Int := if n % 2 = 0 then (n / 2 : Nat) else -((n / 2 : Nat) : Int) - 1

/-! ## Servo states (R274, R306) -/

/-- Enter a servo state: SERVO_LOCK is raised into and out of LOCKED (R274), and a TIME.CAL_ASYM does not outlast the
steering slot's LOCKED (R282). -/
def setServo (d new : Nat) (x : Engine) : Engine :=
  let old := (x.slot d).servo
  if old = new then x
  else
    let y := x.modSlot d fun q =>
      { q with servo := new, errAt := none, farAt := none, everLocked := q.everLocked || new == 3,
               stage := if new = 2 then 0 else if new = 4 then 3 else q.stage, stageAt := none, fresh := new == 2 }
    let z := if old = 3 ∨ new = 3 then y.raise 0x07 0x01 0 (word (d + 256 * bit (new == 3))) else y
    z.failCal (old == 3 && x.net.steer == d)

/-- The values recorded in a window of device time (lo, hi] of a slot's history (R306). -/
def holdWindow (q : Slot) (lo hi : Int) : List Int :=
  q.history.filterMap fun (t, v) => if (t : Int) > lo ∧ (t : Int) ≤ hi then some v else none

/-- The mean of recorded values. -/
def meanOf (l : List Int) : Int := if l.isEmpty then 0 else (l.foldl (fun a v => a + v) 0) / l.length

/-- HOLD_FREQ and HOLD_QUAL of a slot that would enter HOLDOVER now, `sel` being the reference selected (R306). -/
def holdOf (x : Engine) (d sel : Nat) : Int × Nat :=
  let q := x.slot d
  let back : Int := (q.backdateS * s16 : Nat)
  let from_ : Int := match (vget x.refs.refs (refReset sel) sel).rampAt with
    | some m => m.t
    | none => x.time.now16
  let e := from_ - back
  let w := holdWindow q (e - (q.avgS * s16 : Nat)) e
  let before := holdWindow q (-1) e
  let all := q.history.map fun h => h.2
  if all.isEmpty then (0, 3)
  else if w.length ≥ q.avgS then (meanOf w, 0)
  else if w.length ≥ 60 then (meanOf w, 1)
  else if before.isEmpty then (all.headD 0, 2)
  else (meanOf before, 2)

/-- HOLD_FREQ formed, as on entry to HOLDOVER and to OFF. -/
def formHold (d sel : Nat) (x : Engine) : Engine :=
  let (f, k) := holdOf x d sel
  x.modSlot d fun q => { q with holdFreq := f, holdQual := k, freq := f }

/-- A slot enters HOLDOVER (R306). -/
def enterHoldover (d sel : Nat) (x : Engine) : Engine :=
  let y := setServo d 4 (formHold d sel x)
  let z := y.modSlot d fun q => { q with holdAt := some y.time.now16 }
  z.raise 0x07 0x06 0 (word (d + 256 * (z.slot d).holdQual))

/-- A slot loses its reference (Table 9.8). -/
def loseReference (d sel : Nat) (x : Engine) : Engine :=
  let q := x.slot d
  if q.servo = 2 ∨ q.servo = 3 then (if q.everLocked then enterHoldover d sel x else setServo d 1 x) else x

/-! ## Samples (R273, R277, R279) -/

/-- The SLAVE port of a slot has given a sample: reference 40 + d has its signal. -/
def markSignal (r : Nat) (x : Engine) : Engine :=
  { x with refs := { x.refs with refs := vmodN x.refs.refs r fun q => { q with signal := true } } }

/-- A slot's servo takes a sample of its selected time reference `r`: theta in 2^-16 ns at an instant. The first one ends FREERUN
(Table 9.8). -/
def takeSample (d r at_ : Nat) (theta : Int) (x : Engine) : Engine :=
  let q := x.slot d
  if q.selT ≠ r ∨ q.servo = 0 then x
  else
    let y := x.modSlot d fun q => { q with sample := some (at_, theta) }
    if q.servo = 1 then setServo d 2 y else y

/-- The standby's servos are in shadow: they hold what the active's hold (R286), while it follows the active (R333). -/
def Engine.shadows (x : Engine) : Bool := x.core.role == 2 && x.core.fofUp && x.twin.sync != 0

/-- A completed PTP sample of a SLAVE port (R273, R279): theta, mpd and the detector's phase at t2; `mpd'` is the filtered mean path
delay, a free value. On an anchored port the phase detector gives the servo its samples instead. -/
def ptpSample (d p : Nat) (theta phi mpd' : Int) (x : Engine) : Engine :=
  let now := x.time.now16
  let recent (l : List (Nat × Int)) : List (Nat × Int) := l.filter fun k => decide (k.1 + 64 * s16 > now)
  let m := if x.shadows then (x.slot d).mpd else mpd'
  let y := (markSignal (40 + d) x).modSlot d fun q => { q with mpd := m }
  let z := y.modPtp d p fun n => { n with mpds := recent n.mpds ++ [(now, m)] }
  let w :=
    if z.level p = 4 then
      let a : Int := theta - phi + (z.mpdMean d p).getD 0 + z.asymRx p
      z.modPtp d p fun n =>
        let l := recent n.anchors
        { n with anchors := l ++ [(now, a)], since := if l.isEmpty then now else n.since }
    else z
  if x.anchored d p then w else takeSample d (40 + d) now theta w

/-- The one-way sums of a SLAVE port are complete with a Sync: `ms`, in the slot's time, with the latest delay exchange gives a sample.
What the conversion to the slot's time took off at t2, `delta`, is put back: theta is device time minus domain time (R273, log 23). -/
def syncDone (d p : Nat) (ms delta phi mpd' : Int) (x : Engine) : Engine :=
  let y := x.modPtp d p fun q => { q with ms := some ms }
  let delay : Option Int := if (x.slot d).p2p then (x.netPort p).mld else (x.ptp d p).sm.map fun sm => (ms + sm) / 2
  match delay with
  | none => y
  | some m => ptpSample d p (ms - m - x.asymRx p + delta) phi mpd' y

/-! ## Messages (R264, R268-R273, R284) -/

/-- The engine runs the protocol of a slot on a port: the slot is enabled and engine-run, the LEVEL is A1 to A3. -/
def Engine.runsPtp (x : Engine) (d p : Nat) : Bool :=
  (x.slot d).enable && !(x.slot d).hostRun && decide (x.level p ≥ 2)

/-- A Signaling message that carries the L1_SYNC TLV (log 20). -/
def isL1Sync (bs : List Byte) (o : Nat) : Bool := ptpType bs o == 12 && half bs (o + 44) == 0x8001

/-- A message that the time engine takes: event messages, Follow_Up, Delay_Resp, Pdelay_Resp_Follow_Up, L1Sync at A2. -/
def takenType (level : Nat) (bs : List Byte) (o : Nat) : Bool :=
  let t := ptpType bs o
  decide (t < 4) || t == 8 || t == 9 || t == 10 || (level == 3 && isL1Sync bs o)

/-- Table 9.3, in the order of its rows; a Pdelay message of slot 0 on a port of TC_MODE 2 is the engine's whatever the slot's port
states are (R284). -/
def ptpFate (x : Engine) (p : Nat) (hdrs : List (Nat × Nat)) (bs : List Byte) (o : Nat) : PtpFate :=
  let t := ptpType bs o
  let tc2 := (x.netPort p).tcMode == 2 && isPdelay t && ptpVersion bs o == 2
  let own := ptpDomain bs o == (x.slot 0).domain && ptpMajorSdo bs o == (x.slot 0).majorSdo && plainPtp hdrs
  match x.slotFor hdrs (ptpDomain bs o) (ptpMajorSdo bs o) with
  | some d =>
    let st := (x.ptp d p).state
    let sl := x.slot d
    if !sl.hostRun && st != 0 && decide (x.level p ≥ 2) && ptpVersion bs o == 2 && !(decide (4 ≤ t) && decide (t ≤ 7)) then
      (if takenType (x.level p) bs o then .take d else .toHost 6)
    else if tc2 && own then .peer
    else if (sl.hostRun || x.level p == 1) && st != 0 then .toHost 7
    else if st == 0 || x.level p == 0 then .disabled
    else .bad
  | none => if tc2 then (if own then .peer else .held) else .ordinary

/-- A port identity of the engine in a slot: CLOCK_ID and PORT_NUMBER. -/
def Engine.portIdentity (x : Engine) (d p : Nat) : Nat := (x.slot d).clockId.toNat * 65536 + (x.ptp d p).number

/-- 2^log s of a logarithmic interval byte, in 2^-16 ns. -/
def logInterval (b : Nat) : Nat :=
  let i := (BitVec.ofNat 8 b).toInt
  if i ≥ 0 then s16 * 2 ^ i.toNat else s16 / 2 ^ (-i).toNat

/-- A timestamp of a message in 2^-16 ns. -/
def ptpStampAt (bs : List Byte) (o : Nat) : Int := ((bytesAt bs o 6 * 1000000000 + bytesAt bs (o + 6) 4) * 65536 : Nat)

/-- A Pdelay_Req answered (R269, log 22): with TWO_STEP its receipt time, else the turnaround written at launch. -/
def answerPdelay (d p : Nat) (bs : List Byte) (o : Nat) (stamp : Stamp) (x : Engine) : Engine :=
  if x.core.role ≠ 1 then x
  else
    let who := (bs.drop (o + 20)).take 10
    let t : Int := stamp.t - x.delta d
    let c := ptpCorrI bs o
    if (x.slot d).twoStep then x.sendPtp d p 3 true (c + ptpFrac t) (ptpSeq bs o) 5 0x7F stamp (ptpTime t ++ who)
    else x.sendPtp d p 3 false c (ptpSeq bs o) 5 0x7F stamp (List.replicate 10 0 ++ who)

/-- An answer of the peer delay mechanism (R273): the meanLinkDelay of the port. -/
def peerAnswer (d p : Nat) (bs : List Byte) (o : Nat) (stamp : Stamp) (x : Engine) : Engine :=
  let q := x.ptp d p
  let mine := bytesAt bs (o + 44) 10 == x.portIdentity d p
  let done (mld : Int) : Engine :=
    (x.modPtp d p fun q => { q with preq := none }).modNetPort p fun n => { n with mld := some mld }
  match q.preq with
  | none => x
  | some r =>
    if !mine || r.seqId != ptpSeq bs o then x
    else match ptpType bs o, r.sent, r.resp with
      | 3, some t1, _ =>
        if ptpTwoStep bs o then
          x.modPtp d p fun q => { q with preq := some { r with resp := some (ptpStampAt bs (o + 34), stamp.t, ptpCorrI bs o) } }
        else done (((stamp.t : Int) - t1 - ptpCorrI bs o) / 2)
      | 10, some t1, some (t2, t4, c) => done ((t4 - t1 - (ptpStampAt bs (o + 34) - t2) - c - ptpCorrI bs o) / 2)
      | _, _, _ => x

/-- The messages of the peer delay mechanism, with the P2P setting of the slot (R284). -/
def peerMessage (d p : Nat) (bs : List Byte) (o : Nat) (stamp : Stamp) (x : Engine) : Engine :=
  if (x.slot d).p2p = false then x
  else if ptpType bs o = 2 then answerPdelay d p bs o stamp x else peerAnswer d p bs o stamp x

/-- The Syncs of a SLAVE port whose successor is due and whose Follow_Up has not come are lost, each counted (R271). -/
def lapseSyncs (d p : Nat) (x : Engine) : Engine :=
  let l := (x.ptp d p).sync
  let late (w : SyncWait) : Bool := decide ((x.time.now16 : Int) ≥ w.due)
  if l.any late then
    (x.bumpN (portCtr p 64) (l.filter late).length).modPtp d p fun q => { q with sync := q.sync.filter fun w => !late w }
  else x

/-- A Sync or Follow_Up on a SLAVE port (R271, R273). -/
def slaveSync (d p : Nat) (bs : List Byte) (o : Nat) (stamp : Stamp) (phi mpd' : Int) (x0 : Engine) : Engine :=
  let x := lapseSyncs d p x0
  let delta := x.delta d
  if ptpType bs o = 0 then
    if ptpTwoStep bs o then
      let w : SyncWait :=
        { seqId := ptpSeq bs o, source := ptpSource bs o, t2 := stamp.t, corr := ptpCorrI bs o,
          due := stamp.t + logInterval (byteAt bs (o + 33)), delta := delta, phi := phi }
      x.modPtp d p fun q => { q with sync := q.sync ++ [w] }
    else syncDone d p ((stamp.t : Int) - delta - ptpStampAt bs (o + 34) - ptpCorrI bs o) delta phi mpd' x
  else match (x.ptp d p).sync.find? fun w => w.seqId == ptpSeq bs o && w.source == ptpSource bs o with
    | none => x
    | some w =>
      syncDone d p (w.t2 - w.delta - ptpStampAt bs (o + 34) - w.corr - ptpCorrI bs o) w.delta w.phi mpd'
        (x.modPtp d p fun q => { q with sync := q.sync.filter fun k => decide (k ≠ w) })

/-- A Delay_Resp on a SLAVE port (R273). One for a Delay_Req whose egress stamp this engine never received, because the engine it stood
by had sent it, is a sample lost (R286), once. -/
def slaveResp (d p : Nat) (bs : List Byte) (o : Nat) (x : Engine) : Engine :=
  let q := x.ptp d p
  if bytesAt bs (o + 44) 10 ≠ x.portIdentity d p then x
  else
    match q.req.filter fun r => r.seqId == ptpSeq bs o && r.sent.isSome with
    | some r =>
      x.modPtp d p fun q => { q with sm := some (ptpStampAt bs (o + 34) - (r.sent.getD 0 - r.delta) - ptpCorrI bs o), req := none }
    | none =>
      if x.core.role = 2 ∨ q.own = false then
        (x.bumpPort p 64).modPtp d p fun q => { q with req := q.req.filter fun r => r.seqId != ptpSeq bs o }
      else x

/-- The L1_SYNC TLV in a Signaling message of a slot on a port; `asks` sets the bits that require, and so ask for an answer (log 140). -/
def sendL1Sync (d p : Nat) (asks : Bool) (x : Engine) : Engine :=
  let (n, z) := x.nextSeq d p 3
  z.sendPtp d p 12 false 0 n 5 0x7F stampZero (List.replicate 10 0xFF ++ [0x80, 0x01, 0x00, 0x02, if asks then 0x07 else 0x00, 0x07])

/-- A received L1_SYNC TLV that asks is answered (R265). -/
def answerL1Sync (d p : Nat) (bs : List Byte) (o : Nat) (x : Engine) : Engine :=
  if x.core.role = 1 ∧ byteAt bs (o + 48) % 8 ≠ 0 then sendL1Sync d p false x else x

/-- A message of a slot taken by the time engine on a port (Table 9.4). `stamp` is its ingress stamp, `phi` the phase of the port's
detector then, `mpd'` the filtered mean path delay should it complete a sample. -/
def ptpTaken (d p : Nat) (bs : List Byte) (o : Nat) (stamp : Stamp) (phi mpd' : Int) (x0 : Engine) : Engine :=
  let x := x0.bumpPort p 59
  let st := (x.ptp d p).state
  let p2p := (x.slot d).p2p
  match ptpType bs o with
  | 1 =>
    if st = 2 ∧ x.core.role = 1 then
      let t : Int := stamp.t - x.delta d
      x.sendPtp d p 9 false (ptpCorrI bs o + ptpFrac t) (ptpSeq bs o) 3 (logByte (x.slot d).logDreq) stampZero
        (ptpTime t ++ (bs.drop (o + 20)).take 10)
    else x
  | 2 => if p2p || st == 2 then answerPdelay d p bs o stamp x else x
  | 0 => if st = 3 then slaveSync d p bs o stamp phi mpd' x else x
  | 8 => if st = 3 then slaveSync d p bs o stamp phi mpd' x else x
  | 9 => if st = 3 ∧ p2p = false then slaveResp d p bs o x else x
  | 3 => peerAnswer d p bs o stamp x
  | 10 => peerAnswer d p bs o stamp x
  | 12 => answerL1Sync d p bs o x
  | _ => x

/-! ## What the engine sends of its own (R265, R269-R271) -/

/-- The engine originates messages of a slot on a port now. -/
def sendsPtp (x : Engine) (d p : Nat) : Bool :=
  decide (p < 32) && x.runsPtp d p && x.core.role == 1 && (x.port p).up

/-- PTP_SYNC_SEND (R269, R270): a Sync on a MASTER port; a Follow_Up goes out at its launch with TWO_STEP. -/
def execPtpSyncSend (e : EngId) (dom : Fin 2) (port : Fin 34) (s : State) : Host.Outcome State Fault Refusal :=
  onEngine e s fun s => s.modEng e fun x =>
    let d := dom.val
    let p := port.val
    if sendsPtp x d p && (x.ptp d p).state == 2 then
      let (n, y) := x.nextSeq d p 0
      y.sendPtp d p 0 (x.slot d).twoStep 0 n 0 (logByte (x.slot d).logSync) stampZero (List.replicate 10 0)
    else x

/-- The engine sends Pdelay_Req on a port for a slot: P2P = 1, with the port in any state but DISABLED, or TC_MODE 2 for slot 0
(Table 9.4, R284). -/
def sendsPdelay (x : Engine) (d p : Nat) : Bool :=
  decide (p < 32) && x.core.role == 1 && (x.port p).up && (x.slot d).p2p
    && ((x.runsPtp d p && (x.ptp d p).state != 0) || (d == 0 && (x.netPort p).tcMode == 2))

/-- PTP_DELAY_REQ_SEND (R269, R271): a Pdelay_Req, or on a SLAVE port a Delay_Req; one still without its Delay_Resp is a
sample lost. -/
def execPtpDelayReqSend (e : EngId) (dom : Fin 2) (port : Fin 34) (s : State) : Host.Outcome State Fault Refusal :=
  onEngine e s fun s => s.modEng e fun x =>
    let d := dom.val
    let p := port.val
    if sendsPdelay x d p then
      let (n, y) := x.nextSeq d p 2
      (y.modPtp d p fun q => { q with preq := some { seqId := n, sent := none, delta := 0, resp := none } }).sendPtp d p 2 false 0 n 5 0x7F
        stampZero (List.replicate 20 0)
    else if sendsPtp x d p && (x.ptp d p).state == 3 && !(x.slot d).p2p then
      let (n, y) := x.nextSeq d p 1
      let z := if (x.ptp d p).req.isSome then y.bumpPort p 64 else y
      (z.modPtp d p fun q => { q with req := some { seqId := n, sent := none, delta := 0, resp := none }, own := true }).sendPtp d p 1 false 0 n 1 0x7F
        stampZero (List.replicate 10 0)
    else x

/-- L1SYNC_SEND (R265): at A2 the L1_SYNC TLV goes out in a Signaling message of each engine-run slot in which the port has a
state: transmit coherence, receive coherence and congruence declared (log 20). -/
def execL1syncSend (e : EngId) (port : Fin 32) (s : State) : Host.Outcome State Fault Refusal :=
  onEngine e s fun s => s.modEng e fun x =>
    let p := port.val
    let one (d : Nat) (y : Engine) : Engine :=
      if sendsPtp x d p && x.level p == 3 && (x.ptp d p).state != 0 then sendL1Sync d p true y else y
    one 1 (one 0 x)

/-- PTP_NO_SAMPLE (R271, R290): the SLAVE port of a slot has given no sample for 1 s. -/
def execPtpNoSample (e : EngId) (dom : Fin 2) (s : State) : Host.Outcome State Fault Refusal :=
  onEngine e s fun s => s.modEng e fun x =>
    { x with refs := { x.refs with refs := vmodN x.refs.refs (40 + dom.val) fun r => { r with signal := false, lost := true } } }

/-- ANCHOR_SAMPLE (R265, R279): the detector's phase; with ANCHOR valid it gives the servo of the port's slot a sample. -/
def execAnchorSample (e : EngId) (port : Fin 32) (phi : Int) (s : State) : Host.Outcome State Fault Refusal :=
  onEngine e s fun s => s.modEng e fun x =>
    let p := port.val
    if x.level p < 3 then x
    else
      let y := x.modNetPort p fun n => { n with phi := phi }
      let give (d : Nat) (z : Engine) : Engine :=
        if (z.ptp d p).state = 3 ∧ z.anchored d p then
          takeSample d (40 + d) z.time.now16 (phi - (z.mpdMean d p).getD 0 - z.asymRx p + z.anchorMean d p) z
        else z
      give 1 (give 0 y)

/-- ANCHOR_RESET (R265, R279): the detector of a port at A2 or A3 starts afresh. -/
def execAnchorReset (e : EngId) (port : Fin 32) (s : State) : Host.Outcome State Fault Refusal :=
  onEngine e s fun s => s.modEng e (restartUnwrap port.val)

/-- FOF_TIMESTAMP_RECEIVED (R42, R286): the standby learns the egress stamp of an event message of the active, and the
active's sequenceIds. -/
def execFofTimestampReceived (port : Fin 34) (stamp : Nat) (s : State) : Host.Outcome State Fault Refusal :=
  onTwin s fun s =>
    match s.active, s.standby with
    | some a, some b =>
      if !s.fof.up then s
      else
        let one (d : Nat) (y : Engine) : Engine :=
          let q := (s.eng a).ptp d port.val
          let heard (r : Option ReqWait) (old : Option ReqWait) : Option ReqWait := match r with
            | some k => if k.sent = some (stamp : Int) then some k else old
            | none => old
          y.modPtp d port.val fun w => { w with seqs := q.seqs, req := heard q.req w.req, preq := heard q.preq w.preq, own := false }
        s.modEng b fun y => one 1 (one 0 y)
    | _, _ => s

/-! ## Fibre asymmetry (R280) -/

/-- MODEL in 2^-16 ns for a filtered mean path delay: L x (tau(RX_WL) - tau(TX_WL)) / 2, with c = 299,792,458 m/s. -/
def asymModel (n : NetPort) (mpd : Int) : Int :=
  let l0 : Int := (n.lambda0 * n.lambda0 : Nat)
  let r : Int := n.rxWl
  let t : Int := n.txWl
  let ar := 100 * r * r - l0
  let at_ := 100 * t * t - l0
  let num := mpd * 299792458 * n.s0 * (ar * ar * t * t - at_ * at_ * r * r)
  let den := 16000000000000000000 * n.nG * r * r * t * t
  if den = 0 then 0 else num / den

/-- MODEL of a port formed anew. -/
def formModel (p : Nat) (x : Engine) : Engine :=
  let m : Int := if (x.netPort p).modelEn then (match x.portMpd p with
    | some v => asymModel (x.netPort p) v
    | none => 0) else 0
  x.modNetPort p fun n => { n with model := m }

/-- ASYM_RX of a port changed by `f`: a change makes ANCHOR invalid and restarts its window (R279). -/
def asymChange (p : Nat) (f : Engine → Engine) (x : Engine) : Engine :=
  let y := f x
  if y.asymRx p = x.asymRx p then y else y.dropAnchors p

/-- ASYM_MODEL_RECOMPUTE (R280). -/
def execAsymModelRecompute (e : EngId) (port : Fin 32) (s : State) : Host.Outcome State Fault Refusal :=
  onEngine e s fun s => s.modEng e (asymChange port.val (formModel port.val))

/-! ## TIME.CAL_ASYM (R282) -/

/-- The conditions of R282 hold for a port. -/
def calAsymHolds (x : Engine) (p : Nat) : Bool :=
  decide ((x.ptp x.net.steer p).state = 3) && decide ((x.slot x.net.steer).servo = 3) && decide (x.level p ≥ 3)

/-- An edge on the input of a running calibration: e in 2^-16 ns, rejected when it lies more than 10 ns from the running mean. -/
def calAsymEdge (err : Int) (k : CalAsym) : CalAsym :=
  let far := decide (k.edges > 0) && decide ((err - k.sum / k.edges).natAbs > 10 * ns16)
  if far then { k with rejected := satN 65535 (k.rejected + 1) }
  else { k with edges := k.edges + 1, sum := k.sum + err, sumSq := k.sumSq + err.natAbs * err.natAbs }

/-- Integer square root, by bisection on `fuel` bits. -/
def isqrt : Nat → Nat → Nat → Nat
  | 0, r, _ => r
  | fuel + 1, r, n => if (r + 2 ^ fuel) * (r + 2 ^ fuel) ≤ n then isqrt fuel (r + 2 ^ fuel) n else isqrt fuel r n

/-- 2^-16 ns in ps, to the nearest. -/
def toPs (t : Int) : Int := (t * 1000 + 32768) / 65536

/-- The generation at which the command that waits for `c` has committed. -/
def committedGen (c : Await) (x : Engine) : Option Nat := (x.host.waiting.find? fun w => w.await == some c && w.committed).map fun w => w.gen

/-- A commit of a generation carries what its command has settled since, wherever it is kept. -/
def settleCommit (g : Nat) (v : Int) (s : State) : State :=
  let put (c : Commit) : Commit := if c.gen = g then { c with settled := some v } else c
  ({ s with fof := { s.fof with commits := s.fof.commits.map put } } : State).modBoth fun x =>
    { x with twin := { x.twin with journal := x.twin.journal.map put } }

/-- An engine whose last commit is taken back. -/
def takeBack (g : Nat) (x : Engine) : Engine :=
  let prev := (g + 2 ^ 32 - 1) % 2 ^ 32
  if x.host.cfgGen = g then
    { x with host := { x.host with cfgGen := prev },
             twin := { x.twin with cfgGenSeen := if x.twin.cfgGenSeen = g then prev else x.twin.cfgGenSeen,
                                   journal := x.twin.journal.filter fun c => decide (c.gen ≠ g) } }
  else { x with twin := { x.twin with cfgGenSeen := if x.twin.cfgGenSeen = g then prev else x.twin.cfgGenSeen } }

/-- A command that took its place in the CFG_GEN order at its acceptance (R426) completes with another status than OK: it advances nothing
(R419), and its generation is taken back. Where a later command has committed, or a standby that has it cannot be told, the number stays
used (DEDUCED, log 168). -/
def retract (e : EngId) (g : Nat) (s : State) : State :=
  let told := match s.standby with
    | some d => s.fof.up || ((s.eng d).host.cfgGen != g && (s.eng d).twin.cfgGenSeen != g)
    | none => true
  if (s.eng e).host.cfgGen ≠ g ∨ told = false then s
  else
    let fof := { s.fof with commits := s.fof.commits.filter (fun c => decide (c.gen ≠ g)), acks := s.fof.acks.filter (fun k => decide (k ≠ g)),
                            announced := if s.fof.announced = g then (g + 2 ^ 32 - 1) % 2 ^ 32 else s.fof.announced }
    ({ s with fof := fof } : State).modBoth (takeBack g)

/-- TRIM_PS of a port written (R280); a change makes its ANCHOR invalid (R279). -/
def writeTrim (p : Nat) (ps : Int) (x : Engine) : Engine := asymChange p (fun y => y.modNetPort p fun n => { n with trimPs := ps }) x

/-- CAL_ASYM_WINDOW_END (R282): epsilon is formed, TRIM_PS may be written, here and on a standby that is current, and the command
replies; its commit carries the new TRIM_PS to a standby that is not. -/
def rowCalAsymWindowEnd (e : EngId) (s : State) : Host.Outcome State Fault Refusal :=
  onEngine e s fun s =>
    match (s.eng e).net.cal with
    | none => s
    | some k =>
      let s1 := s.modEng e fun x => { x with net := { x.net with cal := none } }
      let gen := committedGen .calAsym (s.eng e)
      if k.failed || !calAsymHolds (s.eng e) k.port || decide (2 * k.edges < k.windowS) then
        complete e .calAsym .state (fun _ _ => []) (match gen with
          | some g => retract e g s1
          | none => s1)
      else
        let mean := k.sum / k.edges
        let eps := toPs mean
        let var : Int := k.sumSq / k.edges - mean * mean
        let spread := toPs (isqrt 64 0 var.toNat : Nat)
        let trim := sat32 (((s.eng e).netPort k.port).trimPs - eps)
        let write (x : Engine) : Engine := if k.apply then writeTrim k.port trim x else x
        let s2 := s1.modEng e write
        let s3 := match s2.standby with
          | some d => if decide (d ≠ e) && s2.fof.up && decide ((s2.eng d).twin.copy = 2) then s2.modEng d write else s2
          | none => s2
        let s4 := match gen with
          | some g => if k.apply then settleCommit g trim s3 else s3
          | none => s3
        complete e .calAsym .ok (fun x _ => [wordI (sat32 eps), wordI ((x.netPort k.port).trimPs),
          pack [(satN 65535 k.edges, 16), (k.rejected, 0)], wordI (sat32 spread)]) s4

/-! ## Registers (Table 9.13) -/

/-- A signed value that saturates at 16 bits. -/
def sat16 (i : Int) : Int := if i > 32767 then 32767 else if i < -32768 then -32768 else i

/-- The register of a slot at 0x0800 + 0x10 d. -/
def slotReg (x : Engine) (d : Nat) : Word :=
  let q := x.slot d
  let p := x.slavePort d
  let on := decide (p < 32)
  pack [(q.servo, 29), (bit (x.net.steer == d), 28), (bit q.hostRun, 27), (bit (q.boRate != 0), 26), (if on then x.level p else 0, 23),
        (bit (on && x.anchored d p), 22), (p, 16), (q.domain, 8)]

/-- ASYM_RX in units of 4 ps, rounded, saturating. -/
def asymUnits (x : Engine) (p : Nat) : Int := sat16 ((x.asymRx p * 1000 + 131072) / 262144)

/-- The register of a port at 0x0880 + 4 p. -/
def portTimeReg (x : Engine) (p : Nat) : Word :=
  let n := x.netPort p
  pack [((x.ptp 0 p).state, 29), ((x.ptp 1 p).state, 26), (n.tcMode, 24), (bit (x.anchored 0 p || x.anchored 1 p), 23), (bit n.wlMismatch, 22),
        (bit (n.trimPs != 0), 21), (bit n.mld.isSome, 20), ((BitVec.ofInt 16 (asymUnits x p)).toNat, 0)]

/-- The network time registers (Table 9.13). -/
def netReg (part : Part) (x : Engine) (off : Nat) : Option Word :=
  let d := (off - 0x0800) / 16
  if off = 0x0800 ∨ off = 0x0810 then some (slotReg x d)
  else if off = 0x0804 ∨ off = 0x0814 then some (wordI (sat32 (x.slot d).theta))
  else if off = 0x0808 ∨ off = 0x0818 then some (wordI ((x.slot d).mpd / 256))
  else if off = 0x080C ∨ off = 0x081C then some (wordI (if x.net.steer = d then sat32 (x.slot d).buildOut else 0))
  else if off = 0x0820 then
    some (pack [(x.net.steer, 31), (bit x.net.switch.isSome, 30), (bit x.net.cal.isSome, 29), (x.net.switchCount % 256, 16)])
  else if 0x0880 ≤ off ∧ off < 0x0900 ∧ off % 4 = 0 then
    let p := (off - 0x0880) / 4
    some (if p < lanesOf part then portTimeReg x p else 0)
  else none

/-! ## Commands -/

/-- TIME.SET_DOMAIN as it sets a slot (Table 9.6). -/
def putDomain (ps : List Word) (q : Slot) : Slot :=
  let w0 := par ps 0
  let w1 := par ps 1
  let w2 := par ps 2
  { q with enable := flag w0 31, hostRun := flag w0 30, twoStep := flag w0 29, p2p := flag w0 28, daSel := flag w0 27,
           domain := field w0 15 8, majorSdo := field w0 7 4, minorSdo := field w1 31 24,
           logSync := (BitVec.ofNat 8 (field w1 23 16)).toInt, logDreq := (BitVec.ofNat 8 (field w1 15 8)).toInt,
           cls := field w1 2 0, tagged := flag w2 31, pcp := field w2 30 28, vid := field w2 27 16,
           clockId := par ps 3 ++ par ps 4, stepNs := (par ps 5).toNat }

/-- The ports of a slot return to DISABLED, its samples and anchors are discarded (R272). -/
def clearSlot (d : Nat) (x : Engine) : Engine :=
  let z := x.modSlot d fun q => { q with sample := none, mpd := 0 }
  { z with net := { z.net with ptp := vmodN z.net.ptp d fun v => v.map fun q =>
      { q with state := 0, sync := [], req := none, preq := none, ms := none, sm := none, anchors := [], mpds := [] } } }

/-- TIME.SET_DOMAIN applied (R272). -/
def setDomain (ps : List Word) (x : Engine) : Engine :=
  let d := field (par ps 0) 16 16
  let old := x.slot d
  let new := putDomain ps old
  let y := x.modSlot d fun _ => new
  if old.enable = new.enable ∧ old.hostRun = new.hostRun ∧ old.domain = new.domain ∧ old.majorSdo = new.majorSdo ∧ old.p2p = new.p2p then y
  else
    let sel := if old.selT < 63 then old.selT else old.selF
    let z := (clearSlot d y).failCal (x.net.steer == d)
    if !new.enable then
      if old.servo = 0 then z else (setServo d 0 (formHold d sel z)).modSlot d fun q => { q with everLocked := false }
    else if old.servo = 0 then setServo d 1 z
    else loseReference d sel z

/-- A field of TIME.SET_DOMAIN out of range. -/
def domainRange (c : Ctx) (ps : List Word) (s : State) : Option (List Word) :=
  let o := (s.eng c.eng).slot (1 - field (par ps 0) 16 16)
  let q := putDomain ps o
  rangeIf (decide (q.domain > 239) || decide (q.logSync < -7) || decide (q.logSync > 0) || decide (q.logDreq < -7) || decide (q.logDreq > 0)
    || (q.tagged && (decide (q.vid < 1) || decide (q.vid > 4094))) || decide (q.stepNs > 1000000000)
    || (o.enable && o.domain == q.domain && o.majorSdo == q.majorSdo))

/-- TIME.SET_DOMAIN (R272). -/
def timeSetDomainSpec : CmdSpec :=
  configSpec 0x0808 (lenIs 6)
    (fun ps => zeroBits ps 0 26 17 && zeroBits ps 0 3 0 && zeroBits ps 1 7 3 && zeroBits ps 2 15 0
      && (flag (par ps 2) 31 || zeroBits ps 2 30 16))
    domainRange neverJudge (fun c ps s => onSelf c (setDomain ps) s)

/-- PORT of a command of this chapter. -/
def netPortOf (ps : List Word) : Nat := field (par ps 0) 5 0

/-- TIME.SET_PTP_PORT applied: a port that changes its state starts its exchanges anew. -/
def setPtpPort (ps : List Word) (x : Engine) : Engine :=
  let d := field (par ps 0) 16 16
  let p := netPortOf ps
  let st := field (par ps 0) 10 8
  let was := (x.ptp d p).state
  let y := x.modPtp d p fun q =>
    if st = was then { q with number := field (par ps 1) 15 0 }
    else { q with state := st, number := field (par ps 1) 15 0, sync := [], req := none, preq := none, ms := none, sm := none }
  let z := if was = 3 ∧ st ≠ 3 then y.modPtp d p fun n => { n with anchors := [] } else y
  z.failCal (was == 3 && st != 3 && x.net.steer == d)

/-- TIME.SET_PTP_PORT (R269, R272). -/
def timeSetPtpPortSpec : CmdSpec :=
  portSpec 0x0809 (lenIs 2) (fun ps => zeroBits ps 0 31 17 && zeroBits ps 0 15 11 && zeroBits ps 0 7 6 && zeroBits ps 1 31 16) netPortOf
    (fun _ ps _ => rangeIf (decide (netPortOf ps > 31) || decide (field (par ps 0) 10 8 > 4) || decide (field (par ps 1) 15 0 < 1)
      || decide (field (par ps 1) 15 0 > 65534)))
    (fun c ps s =>
      let x := s.eng c.eng
      let d := field (par ps 0) 16 16
      let other := (List.range 32).any fun k => k != netPortOf ps && (x.ptp d k).state == 3
      statusIf (!(x.slot d).enable || (field (par ps 0) 10 8 == 3 && other)) .state)
    (fun c ps s => onSelf c (setPtpPort ps) s)

/-- TIME.SET_TC (R283). -/
def timeSetTcSpec : CmdSpec :=
  portSpec 0x080A (lenIs 1) (fun ps => zeroBits ps 0 31 10 && zeroBits ps 0 7 6) netPortOf
    (fun _ ps _ => rangeIf (decide (netPortOf ps > 31) || decide (field (par ps 0) 9 8 > 2))) neverJudge
    (fun c ps s => onSelf c (fun x => x.modNetPort (netPortOf ps) fun n => { n with tcMode := field (par ps 0) 9 8 }) s)

/-- A wavelength of TIME.SET_ASYM out of range. -/
def wlBad (en : Bool) (w : Nat) : Bool := if w = 0 then en else decide (w < 1260) || decide (w > 1625)

/-- TIME.SET_ASYM applied (R279-R281): the partner's wavelength is judged against the new one. -/
def setAsym (ps : List Word) (x : Engine) : Engine :=
  let p := netPortOf ps
  let put (n : NetPort) : NetPort :=
    { n with modelEn := flag (par ps 0) 8, txWl := field (par ps 1) 31 16, rxWl := field (par ps 1) 15 0, s0 := field (par ps 2) 31 16,
             lambda0 := field (par ps 2) 15 0, nG := (par ps 3).toNat, fixedPs := (par ps 4).toInt, trimPs := (par ps 5).toInt }
  let y := asymChange p (fun x => formModel p (x.modNetPort p put)) x
  judgeWl p (y.netPort p).peerWl y

/-- TIME.SET_ASYM (R280). -/
def timeSetAsymSpec : CmdSpec :=
  portSpec 0x080B (lenIs 6) (fun ps => zeroBits ps 0 31 9 && zeroBits ps 0 7 6) netPortOf
    (fun _ ps _ =>
      let en := flag (par ps 0) 8
      rangeIf (decide (netPortOf ps > 31) || wlBad en (field (par ps 1) 31 16) || wlBad en (field (par ps 1) 15 0)
        || decide (field (par ps 2) 31 16 < 1) || decide (field (par ps 2) 15 0 < 12000) || decide (field (par ps 2) 15 0 > 16250)
        || decide ((par ps 3).toNat < 1400000) || decide ((par ps 3).toNat > 1550000)))
    neverJudge (fun c ps s => onSelf c (setAsym ps) s)

/-- TIME.CAL_ASYM (R282). The standby takes its part at the end of the window, or from a commit that carries the TRIM_PS written. -/
def timeCalAsymSpec : CmdSpec :=
  portSpec 0x080C (lenIs 3) (fun ps => zeroBits ps 0 31 9 && zeroBits ps 0 7 7) netPortOf
    (fun _ ps _ => rangeIf (decide (netPortOf ps > 31) || decide ((par ps 1).toNat < 10) || decide ((par ps 1).toNat > 3600)))
    (fun c ps s => firstOf [statusIf (!calAsymHolds (s.eng c.eng) (netPortOf ps)) .state, statusIf (s.eng c.eng).net.cal.isSome .busy])
    (fun c ps s =>
      if c.mirror then
        .now (match c.settled with
          | some ps' => s.modEng c.eng (writeTrim (netPortOf ps) ps')
          | none => s) []
      else
        let k : CalAsym := { port := netPortOf ps, input := field (par ps 0) 6 6, apply := flag (par ps 0) 8, windowS := (par ps 1).toNat,
                             cablePs := (par ps 2).toInt, edges := 0, rejected := 0, sum := 0, sumSq := 0, failed := false }
        { state := s.modEng c.eng fun x => { x with net := { x.net with cal := some k } }, body := [], await := some .calAsym })

/-- The reply of TIME.SWITCH_DOMAIN (Table 9.12). -/
def switchReply (x : Engine) : List Word := stampWords x.now ++ wordsI64 (x.slot x.net.steer).buildOut

/-- TIME.SWITCH_DOMAIN (R285): it waits for the next 1 ms update. -/
def timeSwitchDomainSpec : CmdSpec :=
  configSpec 0x080D (lenIs 2) (fun ps => zeroBits ps 0 31 2 && (flag (par ps 0) 1 || (par ps 1).toNat == 0))
    (fun _ ps _ => rangeIf (flag (par ps 0) 1 && (decide ((par ps 1).toNat < 10) || decide ((par ps 1).toNat > 1000000))))
    (fun c ps s =>
      let x := s.eng c.eng
      let slot := field (par ps 0) 0 0
      if slot = x.net.steer then none
      else firstOf [statusIf (!(x.slot slot).enable || (x.slot slot).servo != 3) .state,
                    statusIf (x.time.step.isSome || x.time.slew.isSome || (x.slot x.net.steer).boRate != 0 || x.net.switch.isSome) .busy])
    (fun c ps s =>
      let x := s.eng c.eng
      let slot := field (par ps 0) 0 0
      if slot = x.net.steer then .now s (switchReply x)
      else
        let k : DomainSwitch := { slot := slot, rate := (par ps 1).toNat }
        { state := s.modEng c.eng fun x => ({ x with net := { x.net with switch := some k } } : Engine).failCal true,
          body := [], await := some .domainSwitch })

/-- TIME.PUT_SAMPLE (R277). -/
def timePutSampleSpec : CmdSpec :=
  configSpec 0x080E (lenIs 7) (fun ps => zeroBits ps 0 31 1 && !badQual ps 3)
    (fun c ps s =>
      let now := (s.eng c.eng).time.now16
      rangeIf (badNsec ps 3 || decide (parTime ps 3 > now) || decide (parTime ps 3 + s16 < now)))
    (fun c ps s =>
      let x := s.eng c.eng
      let d := field (par ps 0) 0 0
      let p := x.slavePort d
      statusIf (!(x.slot d).enable || (!(x.slot d).hostRun && decide (p < 32) && decide (x.level p > 1))) .state)
    (fun c ps s =>
      let d := field (par ps 0) 0 0
      let theta := (par ps 1 ++ par ps 2 : BitVec 64).toInt
      let s1 := s.modEng c.eng fun x => takeSample d (40 + d) (parTime ps 3) theta (markSignal (40 + d) x)
      .now s1 [pack [(((s1.eng c.eng).slot d).servo, 29)]])

end Sys2Proof.Machine
end

