-- ==== Sys2Proof/Machine/References.lean ====
section
/-! DEFINITION. Reference selection, holdover and synthesis (chapter 10): monitoring, states, selection, the 1 ms servo
update, outputs, and the REF and OUT commands. -/

namespace Sys2Proof.Machine

/-! ## References (R290, R291) -/

/-- The kind of a reference (Table 10.1). -/
inductive RefKind where
  | time
  | pulse
  | freq
  | osc
  | none
deriving DecidableEq, Repr

/-- The kind of reference `r` as configured. -/
def kindOf (r : Nat) (q : RefState) : RefKind :=
  if r ≤ 3 then (if q.pulse && q.freqHz == 1 then .pulse else .freq)
  else if r ≤ 5 then .pulse
  else if r = 6 then .osc
  else if r = 7 then .none
  else if r < 40 then .freq
  else .time

/-- A reference of an engine. -/
def Engine.ref (x : Engine) (r : Nat) : RefState := vget x.refs.refs (refReset r) r
/-- A reference changed. -/
def Engine.modRef (x : Engine) (r : Nat) (f : RefState → RefState) : Engine :=
  { x with refs := { x.refs with refs := vmodN x.refs.refs r f } }
/-- The kind of a reference of an engine. -/
def Engine.kind (x : Engine) (r : Nat) : RefKind := kindOf r (x.ref r)

/-- A reference is monitored and a candidate: enabled, present on the part, its port not held by a group (R290). -/
def refLive (part : Part) (x : Engine) (r : Nat) : Bool :=
  (x.ref r).enable && r != 7 && !(decide (8 ≤ r) && decide (r < 40) && (absentPort part (r - 8) || x.unused (r - 8)))

/-- Available or Selected. -/
def refGood (q : RefState) : Bool := q.state == 2 || q.state == 3

/-- D0 comes from OSC_IN (D0_SRC). -/
def d0Osc (x : Engine) : Bool := x.clk.lock.getLsbD 13

/-- OSC_QUAL (R6): OSC_IN is Available or Selected, once firmware has started the monitor. -/
def oscQual (x : Engine) : Bool := x.running && refGood (x.ref 6)

/-- The slot whose figures judge a reference: its own, or the steering slot for ASSIGN 2 (R294). -/
def refSlot (x : Engine) (r : Nat) : Nat := if (x.ref r).assign < 2 then (x.ref r).assign else x.net.steer

/-- OSC_IN is judged against device time: the steering slot is LOCKED or has F_LOCK (R313). -/
def oscJudged (x : Engine) : Bool := (x.slot x.net.steer).servo == 3 || (x.slot x.net.steer).fLock

/-! ## Figures (R294, R295) -/

/-- FRQ: the last one-second value, 0.01 ppb; 0 before the first. -/
def frq (q : RefState) : Int := q.frqs.headD 0

/-- DEV (R294). BASE is the holdover frequency the slot would use now; OSC_IN has none (R313). -/
def dev (x : Engine) (r : Nat) : Int :=
  if x.kind r = .osc then frq (x.ref r)
  else
    let d := refSlot x r
    frq (x.ref r) - (holdOf x d ((x.slot d).selT)).1

/-- The least-squares slope of the values as a fraction, in 0.01 ppb per second (R295). Values stand newest first. -/
def slopeFrac (l : List Int) : Int × Int :=
  let n : Int := l.length
  let (st, sy, sty, stt) := l.zipIdx.foldl (fun (a : Int × Int × Int × Int) (v, i) =>
    let t : Int := -(i : Int)
    (a.1 + t, a.2.1 + v, a.2.2.1 + t * v, a.2.2.2 + t * t)) (0, 0, 0, 0)
  (n * sty - st * sy, n * stt - st * st)

/-- The slope is judged: 100 values at least (R295). -/
def slopeJudged (q : RefState) : Bool := decide (q.frqs.length ≥ 100)

/-- |slope| exceeds `lim` in units of 0.5 ppt/s; 0.01 ppb per second is 10 ppt/s. -/
def slopeOver (q : RefState) (lim : Nat) : Bool :=
  let (n, d) := slopeFrac q.frqs
  slopeJudged q && decide (20 * n.natAbs > lim * d.natAbs)

/-- The slope in units of 0.01 ppt/s, 0 before 100 values (R323). -/
def slopeUnits (q : RefState) : Int :=
  let (n, d) := slopeFrac q.frqs
  if slopeJudged q && d != 0 then 1000 * n / d else 0

/-- The phase of a T or P reference against its slot's BUILD_OUT, 2^-16 ns (R297). -/
def refPhase (x : Engine) (r : Nat) : Int := (x.ref r).phase - (x.slot (refSlot x r)).buildOut

/-! ## Tests (R296, R298) -/

/-- The references of a slot that are Available or Selected, of kinds T, P and F. -/
def slotGood (x : Engine) (d : Nat) : List Nat :=
  (List.range 42).filter fun r => x.kind r != .osc && x.kind r != .none && (x.ref r).assign == d && refGood (x.ref r)

/-- The drift of a slot's references is attributed to D0 (R296). -/
def driftShared (x : Engine) (d : Nat) : Bool :=
  let l := slotGood x d
  let all := l.all fun r => slopeOver (x.ref r) (x.ref r).driftMax
  let sgn (r : Nat) : Bool := decide ((slopeFrac (x.ref r).frqs).1 < 0)
  let near (a b : Nat) : Bool :=
    let lim := min (x.ref a).driftMax (x.ref b).driftMax
    decide ((slopeUnits (x.ref a) - slopeUnits (x.ref b)).natAbs ≤ 50 * lim)
  decide (l.length ≥ 2) && all && l.all fun a => l.all fun b => sgn a == sgn b && near a b

/-- The smaller SOFT of two references; they disagree when their FRQ values lie further apart (R302). -/
def apart (x : Engine) (a b : Nat) (lim : Nat) : Bool := decide ((frq (x.ref a) - frq (x.ref b)).natAbs > lim)

/-- The voters that agree with `a` only and with `b` only (R302). -/
def votes (x : Engine) (d a b : Nat) : Nat × Nat :=
  let lim := min (x.ref a).soft (x.ref b).soft
  let vs := (slotGood x d).filter fun v => v != a && v != b
  let with_ (v r : Nat) : Bool := !apart x v r lim
  ((vs.filter fun v => with_ v a && !with_ v b).length, (vs.filter fun v => with_ v b && !with_ v a).length)

/-- Two references are of one selection: both of kind F, or both of kinds T and P. -/
def sameTier (x : Engine) (a b : Nat) : Bool := (x.kind a == .freq) == (x.kind b == .freq)

/-- A disqualified reference is still outvoted by a member of its selection (R302). -/
def outvoted (x : Engine) (r : Nat) : Bool :=
  let d := (x.ref r).assign
  (slotGood x d).any fun b => b != r && sameTier x r b && (x.ref b).rank == (x.ref r).rank && !(x.ref b).lockout
    && apart x r b (min (x.ref r).soft (x.ref b).soft) && (let (va, vb) := votes x d r b; decide (vb > va))

/-- The test that CAUSE `c` names fails: HARD, drift or phase (R298, R297, R313). -/
def testFails (x : Engine) (r c : Nat) : Bool :=
  let q := x.ref r
  let sl := x.slot (refSlot x r)
  if c = 2 then !q.frqs.isEmpty && decide ((dev x r).natAbs > q.hard)
  else if c = 3 then (if x.kind r = .osc then oscJudged x else !sl.oscDrift) && slopeOver q (2 * q.driftMax)
  else if c = 4 then
    (x.kind r == .time || x.kind r == .pulse) && q.state != 3 && sl.servo == 3 && decide (sl.selT < 63) && sl.selT != r
      && decide ((refPhase x r).natAbs > q.phaseTol * ns16)
  else false

/-- The first failed test other than signal and vote, as CAUSE; 0 when all pass. -/
def failing (x : Engine) (r : Nat) : Nat :=
  if testFails x r 2 then 2 else if testFails x r 3 then 3 else if testFails x r 4 then 4 else 0

/-! ## Transitions (R298, R299) -/

/-- The level of the REF interrupt source (Table 15.16 bit 9). -/
def refIrqLevel (x : Engine) : Bool := x.refs.refs.toList.any fun q => q.hist != 0

/-- The interrupt bit of reference events (Table 15.16). -/
def refIrq : Nat := 9

/-- A reference enters a state (R298, R299): HIST, the interrupt, one event record, REF_DISQUAL. -/
def refEnter (e : EngId) (r new cause : Nat) (x : Engine) : Engine :=
  let q := x.ref r
  let y := x.modRef r fun k =>
    { k with state := new, cause := cause, hist := k.hist ||| (1#6 <<< new), okAt := none, ripe := false,
             availAt := if new = 2 ∧ q.state = 1 then x.time.now16 else k.availAt }
  let z := y.edge (refIrqLevel x) true refIrq
  let w := offerEvent e { type := 0x05, body := pack [(r, 26), (new, 23), (q.state, 20), (cause, 16), (q.assign, 14)] :: stampWords x.now } 77 z
  if new = 4 then w.raise 0x07 0x05 0 (word (r + 256 * cause)) else w

/-- Qualifying entered, with its timer. -/
def refQualify (e : EngId) (r cause period : Nat) (x : Engine) : Engine :=
  (refEnter e r 1 cause x).modRef r fun k => { k with until_ := x.time.now16 + period * s16, period := period }

/-- A restart, an absent SLAVE port and what leaves Unqualified, Disqualified and Lost (Table 10.3). -/
def refLeave (part : Part) (e : EngId) (r : Nat) (x : Engine) : Engine :=
  let q := x.ref r
  let orphan := decide (r ≥ 40) && decide (x.slavePort (r - 40) = 63)
  let x1 :=
    if q.restart then
      (refEnter e r 0 6 x).modRef r fun k =>
        { k with restart := false, lost := false, frqs := [], softWarn := false, rampAt := none, calm := 0, disagree := false }
    else if orphan && q.enable && (q.state != 0 || q.cause != 7) then refEnter e r 0 7 x
    else if !refLive part x r && q.state != 0 then refEnter e r 0 6 x
    else x
  let k := x1.ref r
  if !refLive part x1 r || orphan then x1
  else if k.state = 0 then refQualify e r k.cause k.qualS x1
  else if k.state = 5 ∧ k.signal = true ∧ k.lost = false then refQualify e r 1 k.wtrS x1
  else if k.state = 4 then
    let bad := if k.cause = 5 then outvoted x1 r else testFails x1 r k.cause
    if bad then x1.modRef r fun k => { k with okAt := none }
    else match k.okAt with
      | none => x1.modRef r fun k => { k with okAt := some x1.time.now16 }
      | some t => if t + s16 ≤ x1.time.now16 then refQualify e r k.cause k.wtrS x1 else x1
  else x1

/-- Loss of signal (Table 10.3). A port reference has its signal while its port is up. A signal lost in Disqualified and still away counts
once Qualifying is entered. -/
def refLose (e : EngId) (r : Nat) (x : Engine) : Engine :=
  let q := x.ref r
  let gone := q.lost || (decide (8 ≤ r) && decide (r < 40) && !q.signal)
  let y := if gone && (q.state == 1 || refGood q) then refEnter e r 5 1 x else x
  y.modRef r fun k => { k with lost := q.state == 4 && q.lost && !q.signal }

/-- A failed test: Disqualified, or the qualification timer restarted (Table 10.3). -/
def refJudge (e : EngId) (r : Nat) (x : Engine) : Engine :=
  let q := x.ref r
  let c := failing x r
  if c = 0 then x
  else if refGood q then refEnter e r 4 c x
  else if q.state = 1 then x.modRef r fun k => { k with ripe := false, until_ := x.time.now16 + k.period * s16 }
  else x

/-- A qualification timer that has run out with every test passed: Available. -/
def refRipen (e : EngId) (r : Nat) (x : Engine) : Engine :=
  let q := x.ref r
  if q.state = 1 ∧ q.ripe = true ∧ q.signal = true then refEnter e r 2 0 x else x

/-- Every reference passes through one stage of the update. -/
def eachRef (f : Nat → Engine → Engine) (x : Engine) : Engine := (List.range 42).foldl (fun y r => f r y) x

/-- The state transitions of one update, in the order of R301. -/
def refTransitions (part : Part) (e : EngId) (x : Engine) : Engine :=
  eachRef (refRipen e) (eachRef (refJudge e) (eachRef (refLose e) (eachRef (refLeave part e) x)))

/-! ## Selection (R300-R302, R304) -/

/-- The candidates of a selection: assigned to the slot, of its kinds, Available or Selected, not locked out. -/
def selCandidates (x : Engine) (d : Nat) (time : Bool) : List Nat :=
  (slotGood x d).filter fun r => ((x.kind r != .freq) == time) && !(x.ref r).lockout

/-- The incumbent of a disagreeing pair is `a`: it is Selected, or, with neither or both Selected, Available longer. -/
def aIncumbent (x : Engine) (a b : Nat) : Bool :=
  if (x.ref a).state = (x.ref b).state then decide ((x.ref a).availAt ≤ (x.ref b).availAt) else (x.ref a).state == 3

/-- One pair of a selection resolved (R302): the engine, and who is barred. -/
def resolve (e : EngId) (d a b : Nat) (was : Engine) (s : Engine × List Nat) : Engine × List Nat :=
  let x := s.1
  if !refGood (x.ref a) || !refGood (x.ref b) || (x.ref a).rank != (x.ref b).rank
      || !apart x a b (min (x.ref a).soft (x.ref b).soft) then s
  else
    let (va, vb) := votes x d a b
    if va > vb then (refEnter e b 4 5 x, s.2)
    else if vb > va then (refEnter e a 4 5 x, s.2)
    else
      let old := (was.ref a).disagree && (was.ref b).disagree
      let y := (x.modRef a fun k => { k with disagree := true }).modRef b fun k => { k with disagree := true }
      let z := if old then y else y.raise 0x07 0x07 1 (word (a + 256 * b))
      (z, (if aIncumbent x a b then b else a) :: s.2)

/-- The pairs of a list. -/
def pairsOf : List Nat → List (Nat × Nat)
  | [] => []
  | a :: l => l.map (fun b => (a, b)) ++ pairsOf l

/-- The member chosen among candidates that are not barred (R301). -/
def choose (x : Engine) (d inc : Nat) (c : List Nat) : Nat :=
  match c with
  | [] => 63
  | r0 :: rest =>
    let best := rest.foldl (fun m r => min m (x.ref r).rank) (x.ref r0).rank
    if c.contains inc && ((x.ref inc).rank == best || !(x.slot d).revert) then inc
    else
      let top := c.filter fun r => (x.ref r).rank == best
      top.foldl (fun a r => if (x.ref r).availAt < (x.ref a).availAt then r else a) (top.headD 63)

/-- A pair that disagreed and is not resolved, because its selection is forced, keeps DISAGREE while it still disagrees (R302). -/
def keepDisagree (a b : Nat) (was x : Engine) : Engine :=
  let old := (was.ref a).disagree && (was.ref b).disagree
  if old && (x.ref a).rank == (x.ref b).rank && apart x a b (min (x.ref a).soft (x.ref b).soft) then
    (x.modRef a fun k => { k with disagree := true }).modRef b fun k => { k with disagree := true }
  else x

/-- One selection of a slot remade (R301): the engine and the choice. -/
def select (e : EngId) (d : Nat) (time : Bool) (was : Engine) (x : Engine) : Engine × Nat :=
  let q := x.slot d
  let c := selCandidates x d time
  let may (y : Engine) (r : Nat) : Bool := y.kind r != .pulse || y.time.tbSet
  let kept := (pairsOf c).foldl (fun y (a, b) => keepDisagree a b was y) x
  if q.force = 2 then (kept, 63)
  else if q.force = 1 ∧ (x.kind q.forceRef != .freq) = time then (kept, if c.contains q.forceRef && may x q.forceRef then q.forceRef else 63)
  else
    let (y, barred) := (pairsOf c).foldl (fun s (a, b) => resolve e d a b was s) (x, [])
    let left := c.filter fun r => refGood (y.ref r) && !barred.contains r && may y r
    (y, choose y d (if time then q.selT else q.selF) left)

/-! ## Following a change of selection (R308, R309, R311) -/

/-- The time selection of the steering slot moves to a reference (R308): BUILD_OUT is increased by what the rule gives, and the servo's
error is 0 then (log 27). While TB_SET = 0 the first sample steps device time instead. -/
def absorb (d new : Nat) (x : Engine) : Engine :=
  let q := x.slot d
  let err : Int := if q.servo = 2 ∨ q.servo = 3 then q.theta - q.buildOut else 0
  if x.time.tbSet = false then x
  else
    let bo := q.buildOut + ((x.ref new).phase - err)
    x.modSlot d fun k =>
      { k with buildOut := bo, theta := bo, boRate := if k.slew && bo != 0 then k.slewPsS else 0, boRest := 0 }

/-- The selections of a slot take effect; of a slot that does not steer, theta is brought to the new reference's offset
(R309). `adopt` says that the standby takes its active's (R322): BUILD_OUT and stage come
with them. -/
def applySelection (d t f : Nat) (adopt : Bool) (x : Engine) : Engine :=
  let q := x.slot d
  let n := bit (decide (q.selT ≠ t)) + bit (decide (q.selF ≠ f))
  let y := if q.selT ≠ t ∧ t < 63 ∧ x.net.steer = d ∧ adopt = false then absorb d t x else x
  let brought := decide (q.selT ≠ t) && decide (t < 63) && decide (x.net.steer ≠ d) && decide (q.servo ≥ 2)
  let y1 := if brought then y.modSlot d fun k => { k with thetaSlew := true, thetaRest := 0 } else y
  let z := if q.selT ≠ t ∧ t = 63 then loseReference d q.selT y1 else y1
  let onlyWas := decide (q.selT = 63) && decide (q.selF < 63)
  let only := decide (t = 63) && decide (f < 63)
  let w := z.modSlot d fun k =>
    let k1 := { k with selT := t, selF := f, switches := k.switches + n }
    if only && !onlyWas then { k1 with stage := 0, stageAt := none, fLock := false, freqFarAt := none }
    else if onlyWas && !only then { k1 with fLock := false, freqFarAt := none, stage := if k1.servo = 4 then 3 else k1.stage }
    else k1
  if t < 63 ∧ (w.slot d).servo = 4 then (setServo d 2 w).modSlot d fun k => { k with holdAt := none } else w

/-- A slot uses a reference: as its time or frequency source, or at A1 as the frequency of its SLAVE port (R291, R298). -/
def usedBy (x : Engine) (d r : Nat) : Bool :=
  let q := x.slot d
  let p := x.slavePort d
  q.selT == r || q.selF == r || (q.selT == 40 + d && !q.hostRun && decide (p < 32) && x.level p == 2 && r == 8 + p)

/-- Available and Selected follow the selections (Table 10.3); OSC_IN is Selected while D0 comes from it (R314). -/
def markSelected (e : EngId) (x : Engine) : Engine :=
  eachRef (fun r y =>
    let q := y.ref r
    let used := if r = 6 then d0Osc y else usedBy y 0 r || usedBy y 1 r
    if q.state = 2 ∧ used = true then refEnter e r 3 0 y
    else if q.state = 3 ∧ used = false then refEnter e r 2 0 y
    else y) x

/-- Both selections of a slot remade and applied; `peer` is the active whose selections a standby adopts. -/
def reselect (e : EngId) (d : Nat) (peer : Option Engine) (x0 : Engine) : Engine :=
  let cleared := eachRef (fun r y => if (y.ref r).assign = d ∧ (y.ref r).disagree = true then y.modRef r fun k => { k with disagree := false } else y) x0
  let (x1, t) := select e d true x0 cleared
  let (x2, f) := select e d false x0 x1
  let barred := (List.range 42).any fun r => (x2.ref r).assign == d && (x2.ref r).disagree
  let x3 := x2.modSlot d fun q => { q with disagree := barred }
  match peer with
  | none => applySelection d t f false x3
  | some a =>
    let k := a.slot d
    (applySelection d k.selT k.selF true x3).modSlot d fun q =>
      { q with buildOut := k.buildOut, boRate := k.boRate, boRest := k.boRest, stage := k.stage, stageAt := k.stageAt }

/-! ## The servo (R274, R275, R306, R311, R312) -/

/-- LOCK of a slot in 2^-16 ns, by the LEVEL of its SLAVE port (R274); 100 ns where it has none (log 106). -/
def lockLimit (x : Engine) (d : Nat) : Nat :=
  let p := x.slavePort d
  if (x.slot d).hostRun || decide (p ≥ 32) then 100 * ns16
  else match x.level p with
    | 4 => ns16 / 2
    | 3 => 2 * ns16
    | 2 => 20 * ns16
    | _ => 100 * ns16

/-- Since when a condition has held: kept, begun or ended. -/
def since (holds : Bool) (now : Nat) (was : Option Nat) : Option Nat := if holds then some (was.getD now) else none

/-- A condition has held for `t`. -/
def heldFor (t now : Nat) (a : Option Nat) : Bool := match a with
  | some b => decide (b + t ≤ now)
  | none => false

/-- ACQUIRING to LOCKED and back (Table 9.8). -/
def servoLock (d : Nat) (x : Engine) : Engine :=
  let q := x.slot d
  let now := x.time.now16
  let err := (q.theta - q.buildOut).natAbs
  let lim := lockLimit x d
  if q.servo = 2 then
    let a := since (decide (err ≤ lim)) now q.errAt
    if heldFor (10 * s16) now a then setServo d 3 x else x.modSlot d fun k => { k with errAt := a }
  else if q.servo = 3 then
    let a := since (decide (err > 4 * lim)) now q.farAt
    if heldFor s16 now a then setServo d 2 x else x.modSlot d fun k => { k with farAt := a }
  else x

/-- A slot runs on its frequency selection alone: FREQ_ASSIST (R300). -/
def freqOnly (q : Slot) : Bool := q.servo != 0 && decide (q.selT = 63) && decide (q.selF < 63)

/-- The loop's stages (R311, R312). -/
def loopStage (d : Nat) (x : Engine) : Engine :=
  let q := x.slot d
  let now := x.time.now16
  let onTime := q.servo == 2 || q.servo == 3
  let fErr := (frq (x.ref q.selF) - q.freq).natAbs
  let tErr := (q.theta - q.buildOut).natAbs
  if !onTime && !freqOnly q then x
  else
    let small (ns ppb : Nat) : Bool := if onTime then decide (tErr ≤ ns * ns16) else decide (fErr ≤ 100 * ppb)
    let next (ok : Bool) (t : Nat) (lock : Bool) : Engine :=
      let a := since ok now q.stageAt
      if heldFor t now a then x.modSlot d fun k => { k with stage := k.stage + 1, stageAt := none, fLock := k.fLock || lock }
      else x.modSlot d fun k => { k with stageAt := a }
    match q.stage with
    | 0 => next (small 100 100) s16 false
    | 1 => next (small 10 10) (10 * s16) (!onTime)
    | _ =>
      if onTime then x
      else
        let a := since (decide (fErr > 10000)) now q.freqFarAt
        if heldFor s16 now a then x.modSlot d fun k => { k with stage := 0, stageAt := none, fLock := false, freqFarAt := none }
        else x.modSlot d fun k => { k with freqFarAt := a }

/-- What the slot's loop gives this update: `f` is the frequency it steers at, `th` its filtered offset, both free values
(log 6). In HOLDOVER the slot that does not steer extrapolates theta at its last rate (R274); while theta is brought to a new
reference's offset, that alone moves it (R309). -/
def loopValues (d : Nat) (f th : Int) (x : Engine) : Engine :=
  let q := x.slot d
  let run := q.servo == 2 || q.servo == 3
  x.modSlot d fun k =>
    { k with freq := if run || freqOnly k then f else if k.servo = 4 ∨ k.servo = 0 then k.holdFreq else k.freq,
             theta := if k.thetaSlew then k.theta else if run then th
               else if k.servo == 4 && x.net.steer != d then k.theta + k.rate else k.theta,
             rate := if run && !k.thetaSlew then th - k.theta else k.rate }

/-- What a slew at `rate` ps/s moves in one update, with what is left below one unit of 2^-16 ns. -/
def slewUnits (rate rest : Nat) : Nat × Nat :=
  let a := rest + rate * 65536
  (a / 1000000, a % 1000000)

/-- Theta of a slot brought to the offset of its reference at SLEW_PS_S, over 1 ms (R309). -/
def slewTheta (d : Nat) (x : Engine) : Engine :=
  let q := x.slot d
  if !q.thetaSlew then x
  else
    let (m, rest) := slewUnits q.slewPsS q.thetaRest
    let far : Int := (x.ref q.selT).phase - q.theta
    if q.selT ≥ 63 ∨ far.natAbs ≤ m then
      x.modSlot d fun k => { k with theta := if q.selT ≥ 63 then k.theta else k.theta + far, thetaSlew := false, thetaRest := 0 }
    else x.modSlot d fun k => { k with theta := if far > 0 then k.theta + m else k.theta - m, thetaRest := rest }

/-- One value a second goes into the history of the last 7,200 s: recorded when the slot steered throughout that second. Through
holdover the history is kept as it is (R306). -/
def recordHistory (d : Nat) (x : Engine) : Engine :=
  let q := x.slot d
  let now := x.time.now16
  let steered := (q.servo == 3 && decide (q.selT < 63)) || (freqOnly q && q.stage == 2)
  if now ≥ q.histAt + s16 ∨ now < q.histAt then
    let old := if q.servo = 4 ∧ steered = false then q.history else q.history.filter fun h => decide (h.1 + 7200 * s16 > now)
    x.modSlot d fun k =>
      { k with history := if k.histOk && steered then (now, k.freq) :: old else old, histAt := now, histOk := steered }
  else x.modSlot d fun k => { k with histOk := k.histOk && steered }

/-- BUILD_OUT's slew over 1 ms, towards 0: SLEW_PS_S x 65,536 / 10^6 units of 2^-16 ns (R285, R308). -/
def slewBuildOut (d : Nat) (x : Engine) : Engine :=
  let q := x.slot d
  if q.boRate = 0 then x
  else
    let (m, rest) := slewUnits q.boRate q.boRest
    if q.buildOut.natAbs ≤ m then x.modSlot d fun k => { k with buildOut := 0, boRate := 0, boRest := 0 }
    else x.modSlot d fun k => { k with buildOut := if k.buildOut > 0 then k.buildOut - m else k.buildOut + m, boRest := rest }

/-- The switch instant of TIME.SWITCH_DOMAIN (R285). `was` is the engine before this update's selections: a time reference selected in
this very update is what BUILD_OUT is measured against (R310). -/
def switchInstant (was x : Engine) : Engine :=
  match x.net.switch with
  | none => x
  | some k =>
    let q := x.slot k.slot
    let bo := if q.selT < 63 ∧ q.selT ≠ (was.slot k.slot).selT then (x.ref q.selT).phase else q.theta
    let y := x.modSlot x.net.steer fun q => { q with buildOut := 0, boRate := 0, boRest := 0 }
    let z := y.modSlot k.slot fun q =>
      { q with buildOut := bo, theta := bo, thetaSlew := false, boRate := if bo = 0 then 0 else k.rate, boRest := 0 }
    { z with net := { z.net with steer := k.slot, switch := none, switchCount := z.net.switchCount + 1 } }

/-- The step that a servo in ACQUIRING asks for, if any: Delta (R275). The slot that does not steer asks on its first sample alone while
TB_SET = 0. -/
def stepWanted (x : Engine) (d : Nat) : Option Int :=
  let q := x.slot d
  match q.sample with
  | none => none
  | some (_, th) =>
    let err := th - q.buildOut
    if q.servo ≠ 2 then none
    else if (x.time.tbSet = false ∧ (q.fresh = true ∨ x.net.steer = d)) ∨ (q.stepNs ≠ 0 ∧ err.natAbs > q.stepNs * ns16) then some (-err) else none

/-- The step taken: the other slot resets its estimate; the steering slot's waits 100 us (R275). The standby waits for its
active's step (R71, R74). -/
def servoStep (d : Nat) (x : Engine) : Engine :=
  let q := x.slot d
  let free := x.time.step.isNone && x.time.slew.isNone
  let y := match stepWanted x d with
    | none => x
    | some delta =>
      let told (z : Engine) : Engine := (z.bump (75 + d)).raise 0x07 0x02 0 (word d)
      if x.net.steer ≠ d then told (x.modSlot d fun k => { k with theta := k.buildOut - delta, thetaSlew := false })
      else if !free || x.core.role == 2 then x
      else told { x with time := putStep delta (x.time.now16 + 100 * us16) 1000000 true x.time }
  if q.sample.isSome then y.modSlot d fun k => { k with sample := none, fresh := false } else y

/-- OSC_DRIFT of a slot, raised once an episode (R296). -/
def judgeOscDrift (d : Nat) (x : Engine) : Engine :=
  let now := driftShared x d
  let y := x.modSlot d fun q => { q with oscDrift := now }
  if now && !(x.slot d).oscDrift then y.raise 0x07 0x08 1 (word d) else y

/-- The frequencies of the slots, their holdover values and histories, which are against D0 (R306, R322), carried over a move of D0 to an
oscillator that stands by `by_` from the last one, in 0.01 ppb: SYN-T and the others are reprogrammed by that offset, and D1 does not
move (R314). -/
def carryD0 (by_ : Int) (x : Engine) : Engine :=
  let slot (k : Slot) : Slot :=
    { k with freq := k.freq + by_, holdFreq := k.holdFreq + by_, history := k.history.map fun h => (h.1, h.2 + by_) }
  { x with net := { x.net with slots := x.net.slots.map slot } }

/-- D0 moves to OSC_IN (D0_SRC 1), the offset between the oscillators being what the monitor of REF 6 measures against device time and
what the steering slot holds against the TCXO (R314; DEDUCED, log 169). -/
def d0External (x : Engine) : Engine :=
  if d0Osc x then x
  else
    let by_ := -(frq (x.ref 6)) - (x.slot x.net.steer).freq
    let y := carryD0 by_ x
    { y with clk := { y.clk with lock := y.clk.lock ||| (1#16 <<< 13) }, refs := { y.refs with oscOffset := by_ } }

/-- D0 returns to the TCXO (D0_SRC 0), by the offset last measured (R314; log 169). -/
def d0Tcxo (x : Engine) : Engine :=
  if d0Osc x then
    let y := carryD0 (-x.refs.oscOffset) x
    { y with clk := { y.clk with lock := y.clk.lock &&& ~~~(1#16 <<< 13) }, refs := { y.refs with oscOffset := 0 } }
  else x

/-- D0 returns to the TCXO when OSC_IN is neither Available nor Selected (R50, R314). -/
def d0Return (x : Engine) : Engine := if d0Osc x && !refGood (x.ref 6) then d0Tcxo x else x

/-! ## What commands have set (R292, R293, R303) -/

/-- The fields of REF.SET_INPUT put into a reference: a change of what defines the signal restarts it (R293). -/
def putInput (ps : List Word) (q : RefState) : RefState :=
  let w0 := par ps 0
  let n := { q with
    enable := flag w0 31, lockout := flag w0 30, assign := field w0 29 28, pulse := flag w0 27, falling := flag w0 26,
    family := field w0 25 24, rank := field w0 23 20, freqHz := (par ps 1).toNat, soft := (par ps 2).toNat,
    hard := (par ps 3).toNat, driftMax := field (par ps 4) 31 16, qualS := field (par ps 4) 15 0, wtrS := field (par ps 5) 31 16,
    phaseTol := (par ps 6).toNat, inDelay := (par ps 7).toInt, input := none }
  { n with restart := q.restart || n.enable != q.enable || n.assign != q.assign || n.pulse != q.pulse || n.falling != q.falling
             || n.family != q.family || n.freqHz != q.freqHz }

/-- The fields of REF.SET_SLOT put into a slot (Table 10.5): a slew under way continues at the new rate. -/
def putPolicy (ps : List Word) (q : Slot) : Slot :=
  { q with revert := flag (par ps 0) 31, slew := flag (par ps 0) 30, finalBw := field (par ps 0) 29 28, slewPsS := (par ps 1).toNat,
           tauS := field (par ps 2) 31 16, backdateS := field (par ps 2) 15 0, avgS := field (par ps 3) 31 16,
           boRate := if q.boRate = 0 then 0 else (par ps 1).toNat, policy := none }

/-- The configuration that has waited for this update takes effect. -/
def putPolicies (x : Engine) : Engine :=
  let ref (q : RefState) : RefState := match q.input with
    | some ps => putInput ps q
    | none => q
  let slot (q : Slot) : Slot := match q.policy with
    | some ps => putPolicy ps q
    | none => q
  { x with refs := { x.refs with refs := x.refs.refs.map ref }, net := { x.net with slots := x.net.slots.map slot } }

/-! ## The update -/

/-- The Syncs of every SLAVE port whose successor is due (R271). -/
def lapseAll (x : Engine) : Engine :=
  [0, 1].foldl (fun y d => (List.range 32).foldl (fun z p => if (z.ptp d p).state = 3 then lapseSyncs d p z else z) y) x

/-- On the fallback multiplier the servo steers INC in place of SYN-T (R68): INC is the loop's, a free value above 0 (log 104), while the
steering slot follows a reference. -/
def steerInc (inc : Nat) (x : Engine) : Engine :=
  let q := x.slot x.net.steer
  if x.clk.fallback && (q.servo == 2 || q.servo == 3 || freqOnly q) then { x with time := { x.time with inc := inc + 1 } } else x

/-- The slots' loops over one update, with what they do to device time. `f` and `th` are free values for the two slots, `inc` one for
INC. -/
def runLoops (f0 th0 f1 th1 : Int) (inc : Nat) (x : Engine) : Engine :=
  let d := steerInc inc (loopValues 1 f1 th1 (loopValues 0 f0 th0 x))
  let g := loopStage 1 (loopStage 0 (servoLock 1 (servoLock 0 d)))
  servoStep 1 (servoStep 0 (recordHistory 1 (recordHistory 0 g)))

/-- What the servos of the standby `y` hold of the active's (R286): all but its own history and its own holdover frequency, which are
against its own D0 (R322). It forms the latter from its own history when the active's slot enters HOLDOVER. -/
def shadowSlots (a : NetState) (y : Engine) : NetState :=
  let slot (i : Fin 2) : Slot :=
    let k := y.net.slots[i]
    let hold := if a.slots[i].servo = 4 ∧ k.servo ≠ 4 then holdOf y i.val k.selT else (k.holdFreq, k.holdQual)
    { a.slots[i] with history := k.history, histAt := k.histAt, histOk := k.histOk, freq := k.freq, policy := k.policy,
                      holdFreq := hold.1, holdQual := hold.2, sample := none, oscDrift := k.oscDrift, disagree := k.disagree }
  { y.net with slots := Vector.ofFn slot, steer := a.steer, switch := a.switch, switchCount := a.switchCount }

/-- The servos of a standby in shadow (R286): they hold what the active's hold, record their own history and steer nothing. -/
def shadowLoops (a : Engine) (f0 f1 : Int) (inc : Nat) (x : Engine) : Engine :=
  let own (d : Nat) (f : Int) (y : Engine) : Engine := y.modSlot d fun k => { k with freq := f }
  recordHistory 1 (recordHistory 0 (steerInc inc (own 1 f1 (own 0 f0 { x with net := shadowSlots a.net x }))))

/-- One 1 ms servo update (R301, R310): what commands have set since the last one applies first (R293, R303), and slews under way move;
then state transitions, selections, a switch of domains, the loops. A standby that follows its active `peer` runs in shadow. -/
def servoUpdate (part : Part) (e : EngId) (peer : Option Engine) (f0 th0 f1 th1 : Int) (inc : Nat) (x0 : Engine) : Engine :=
  let x := slewTheta 1 (slewTheta 0 (slewBuildOut 1 (slewBuildOut 0 (lapseAll (putPolicies x0)))))
  let a := judgeOscDrift 1 (judgeOscDrift 0 (d0Return (refTransitions part e x)))
  let b := markSelected e (reselect e 1 peer (reselect e 0 peer a))
  let h := match peer with
    | some p => shadowLoops p f0 f1 inc b
    | none => runLoops f0 th0 f1 th1 inc (switchInstant a b)
  h.failCal ((h.net.cal.map fun k => !calAsymHolds h k.port) == some true)

/-- The port references that a REF.SET_INPUT waiting for this update switches on or off: A1 in their LOCAL follows (R120, R291). -/
def clocksSwitched (x : Engine) : List Nat :=
  (List.range 32).filter fun p => match (x.ref (8 + p)).input with
    | some ps => flag (par ps 0) 31 != (x.ref (8 + p)).enable
    | none => false

/-- SERVO_UPDATE (R301): a step the active's servo asks for is mirrored to the standby (R74), whose servos hold what the active's hold
(R286); a domain switch replies. -/
def rowServoUpdate (e : EngId) (s : State) : Host.Outcome State Fault Refusal :=
  onEngine e s fun s =>
    if (s.eng e).running then
      let (f0, s1) := takeFree s
      let (t0, s2) := takeFree s1
      let (f1, s3) := takeFree s2
      let (t1, s3a) := takeFree s3
      let (inc, s4) := takeFree s3a
      let peer := match s4.active with
        | some a => if decide (a ≠ e) && (s4.eng e).core.role == 2 && followsActive s4 then some (s4.eng a) else none
        | none => none
      let x := s4.eng e
      let y := servoUpdate s4.part e peer (freeInt f0) (freeInt t0) (freeInt f1) (freeInt t1) inc x
      let s5 := (clocksSwitched x).foldl (fun s p => localChanged e p s) (s4.setEng e y)
      let s6 := match s5.standby with
        | some b =>
          if decide (b ≠ e) && followsActive s5 && y.core.role == 1 then
            s5.modEng b fun z =>
              let w : Engine := { z with net := shadowSlots y.net z }
              if x.time.step.isNone && y.time.step.isSome then { w with time := { w.time with step := y.time.step } } else w
          else s5
        | none => s5
      if x.net.switch.isSome then complete e .domainSwitch .ok (fun x _ => switchReply x) s6 else s6
    else s

/-- BUILD_OUT_SLEW_DONE (R285): the slew has reached 0. -/
def execBuildOutSlewDone (e : EngId) (s : State) : Host.Outcome State Fault Refusal :=
  onEngine e s fun s => s.modEng e fun x =>
    let one (d : Nat) (y : Engine) : Engine :=
      if (y.slot d).boRate = 0 then y else y.modSlot d fun q => { q with buildOut := 0, boRate := 0, boRest := 0 }
    one 1 (one 0 x)

/-! ## Measurements (R294-R297, R313) -/

/-- A one-second measurement of a reference: its frequency `f` in 0.01 ppb and the offset averaged over the second. Where R296 or R313
suspends the tests no mark is set, but a mark clears only after 100 s below both figures (R295). -/
def measure (r : Nat) (f ph : Int) (x : Engine) : Engine :=
  let v := if r = 6 ∧ d0Osc x = true ∧ oscJudged x = true then -(x.slot x.net.steer).freq else f
  let y := x.modRef r fun q =>
    { q with frqs := (v :: q.frqs).take 1000, phase := ph, signal := q.signal || decide (r < 7) }
  let z := if (y.ref r).assign < 2 then judgeOscDrift (y.ref r).assign y else y
  let q := z.ref r
  let d := refSlot z r
  let soft := (if r = 6 then oscJudged z else !(z.slot d).oscDrift)
  let steep := slopeOver q q.driftMax
  let wide := decide ((dev z r).natAbs > q.soft)
  let beyond := soft && wide
  if soft && (steep || wide) then
    let w := z.modRef r fun k =>
      { k with rampAt := some (k.rampAt.getD z.now), calm := 0, softWarn := k.softWarn || beyond }
    if beyond && !q.softWarn then w.raise 0x07 0x04 0 (word r) else w
  else if steep || wide then z.modRef r fun k => { k with calm := 0 }
  else if q.rampAt.isSome then
    z.modRef r fun k => if k.calm + 1 ≥ 100 then { k with rampAt := none, softWarn := false, calm := 0 } else { k with calm := k.calm + 1 }
  else z

/-- REF_MEASURE (R294). -/
def execRefMeasure (e : EngId) (ref : Fin 42) (frq phase : Int) (s : State) : Host.Outcome State Fault Refusal :=
  onEngine e s fun s => s.modEng e fun x => if x.running && refLive s.part x ref.val then measure ref.val frq phase x else x

/-- REF_LOSS_OF_SIGNAL (R290). When OSC_IN is lost while D0 comes from it, D0 returns to the TCXO at once (R314). -/
def execRefLossOfSignal (e : EngId) (ref : Fin 42) (s : State) : Host.Outcome State Fault Refusal :=
  onEngine e s fun s => s.modEng e fun x =>
    let y := x.modRef ref.val fun q => { q with signal := false, lost := true }
    if ref.val = 6 then d0Tcxo y else y

/-- REF_QUALIFY_TIMER (R298): device time has reached the end of the timer; the next update makes the reference Available. -/
def execRefQualifyTimer (e : EngId) (ref : Fin 42) (s : State) : Host.Outcome State Fault Refusal :=
  onEngine e s fun s =>
    let q := (s.eng e).ref ref.val
    if q.state = 1 then (passTo e q.until_ s).modEng e fun x => x.modRef ref.val fun k => { k with ripe := true } else s

/-- REF_HIST_CLEAR (R299): HIST bits are W1C. -/
def execRefHistClear (e : EngId) (ref : Fin 42) (mask : Word) (s : State) : Host.Outcome State Fault Refusal :=
  onEngine e s fun s => s.modEng e fun x =>
    x.modRef ref.val fun q => { q with hist := q.hist &&& ~~~(BitVec.ofNat 6 (field mask 13 8)) }

/-- A time less the nearest whole second, 2^-16 ns. -/
def offSecond (t : Int) : Int := (t + s16 / 2) % s16 - s16 / 2

/-- PULSE_INPUT_EDGE (R291, R282): an edge on a pulse reference. The edge that marks the second gives its slot a sample; a
rising edge on PPSIN0 or PPSIN1 serves a running TIME.CAL_ASYM whatever the input's configuration. -/
def execPulseInputEdge (e : EngId) (ref : Fin 42) (rise : Bool) (after : Nat) (s : State) : Host.Outcome State Fault Refusal :=
  onEngine e s fun s0 =>
    let s := passAfter after s0
    s.modEng e fun x =>
      let r := ref.val
      let q := x.ref r
      let t : Int := (x.time.now16 + interpOf after : Nat)
      let marks := x.running && q.enable && x.kind r == .pulse && rise != q.falling
      let y := if marks then
          let th := offSecond (t - q.inDelay)
          let z := x.modRef r fun k => { k with signal := true }
          if q.assign < 2 then takeSample q.assign r t.toNat th z else z
        else x
      match y.net.cal with
      | none => y
      | some k =>
        if rise && r == 4 + k.input then
          let err := offSecond (t - ps16 k.cablePs) - (y.slot y.net.steer).buildOut
          { y with net := { y.net with cal := some (calAsymEdge err k) } }
        else y

/-! ## Registers (Table 10.10) -/

/-- REF_STAT of a reference. -/
def refStat (x : Engine) (r : Nat) : Word :=
  let q := x.ref r
  let forced := [0, 1].any fun d => (x.slot d).force == 1 && (x.slot d).forceRef == r
  if r = 7 then 0
  else pack [(q.state, 29), (bit q.softWarn, 28), (bit q.rampAt.isSome, 27), (bit q.disagree, 26), (bit q.lockout, 25), (bit forced, 24),
             (q.rank, 20), (q.cause, 16), (q.assign, 14), (q.hist.toNat, 8)]

/-- SEL_STAT of a slot. HOLD reads 0 in OFF, as after reset (log 28). -/
def selStat (x : Engine) (d : Nat) : Word :=
  let q := x.slot d
  pack [(q.selT, 26), (q.selF, 20), (q.stage, 18), (bit (q.servo != 0 && decide (q.selT = 63)), 17), (bit (freqOnly q), 16),
        (q.holdQual, 14), (bit q.disagree, 13), (bit q.oscDrift, 12), (bit (q.force != 0), 11), (bit q.fLock, 10), (bit q.slew, 9),
        (bit q.revert, 8), (q.switches % 256, 0)]

/-- HOLD_AGE of a slot. -/
def holdAge (x : Engine) (d : Nat) : Nat := match (x.slot d).holdAt with
  | some t => if (x.slot d).servo = 4 then satN (2 ^ 32 - 1) ((x.time.now16 - t) / s16) else 0
  | none => 0

/-- The bits of a vector whose elements meet a condition. -/
def maskOf {α : Type} {n : Nat} (v : Vector α n) (f : α → Bool) : Nat := (v.toList.zipIdx.map fun (q, i) => bit (f q) * 2 ^ i).sum

/-- The reference and output registers (Table 10.10). -/
def refReg (part : Part) (x : Engine) (off : Nat) : Option Word :=
  if 0x0900 ≤ off ∧ off < 0x09A8 ∧ off % 4 = 0 then
    let r := (off - 0x0900) / 4
    some (if decide (8 ≤ r) && decide (r < 40) && absentPort part (r - 8) then 0 else refStat x r)
  else match off with
    | 0x09C0 => some (selStat x 0)
    | 0x09D0 => some (selStat x 1)
    | 0x09C4 => some (wordI (x.slot 0).holdFreq)
    | 0x09D4 => some (wordI (x.slot 1).holdFreq)
    | 0x09C8 => some (word (holdAge x 0))
    | 0x09D8 => some (word (holdAge x 1))
    | 0x0A00 =>
      some (pack [(maskOf x.refs.clks fun k => k.enable, 24), (maskOf x.refs.pps fun k => k.enable, 20),
                  (maskOf x.refs.syns fun k => k.hold, 16), (maskOf x.refs.clks fun k => k.misaligned, 8),
                  (maskOf x.refs.pps fun k => k.misaligned, 4)])
    | 0x0A10 => some (wordI (sat32 (ppsOffset x 0)))
    | 0x0A14 => some (wordI (sat32 (ppsOffset x 1)))
    | 0x0A18 => some (wordI (sat32 (ppsOffset x 2)))
    | 0x0A1C => some (wordI (sat32 (ppsOffset x 3)))
    | _ => none

/-! ## REF commands -/

/-- REF of a command. -/
def refOf (ps : List Word) : Nat := field (par ps 0) 5 0

/-- A reference absent on a part. -/
def refAbsent (p : Part) (r : Nat) : Bool := decide (8 ≤ r) && decide (r < 40) && absentPort p (r - 8)

/-- ERR_STATE for the reference of a port that a grouped port holds. -/
def refUnused (x : Engine) (r : Nat) : Bool := decide (8 ≤ r) && decide (r < 40) && x.unused (r - 8)

/-- REF.SET_INPUT names a pulse reference. -/
def putsPulse (ps : List Word) : Bool := (decide (refOf ps ≤ 3) && flag (par ps 0) 27 && (par ps 1).toNat == 1) || refOf ps == 4 || refOf ps == 5

/-- The fields of REF.SET_INPUT that must be 0 (Table 10.2). -/
def refRsvd (ps : List Word) : Bool :=
  let r := refOf ps
  let w0 := par ps 0
  let timed := putsPulse ps || decide (r ≥ 40)
  zeroBits ps 0 19 6 && zeroBits ps 5 15 0 && (r != 6 || (!flag w0 30 && zeroBits ps 0 23 20))
    && (decide (r ≤ 6) || zeroBits ps 0 25 24) && (decide (r ≤ 3) || r == 6 || (par ps 1).toNat == 0)
    && (timed || (par ps 6).toNat == 0) && (putsPulse ps || (par ps 7).toNat == 0)

/-- A field of REF.SET_INPUT out of range. -/
def refRange (_ : Ctx) (ps : List Word) (_ : State) : Option (List Word) :=
  let r := refOf ps
  let w0 := par ps 0
  let hz := (par ps 1).toNat
  let soft := (par ps 2).toNat
  let tol := (par ps 6).toNat
  let d := (par ps 7).toInt
  let timed := putsPulse ps || decide (r ≥ 40)
  let assignBad := field w0 29 28 == 3 || (decide (r ≥ 40) && field w0 29 28 != r - 40) || (r == 6 && field w0 29 28 != 2)
  let hzBad := (decide (r ≤ 3) && (decide (hz > 800000000) || (flag w0 31 && hz == 0)))
    || (r == 6 && ((hz != 0 && (decide (hz < 10000000) || decide (hz > 50000000))) || (flag w0 31 && hz == 0)))
  let familyBad := decide (field w0 25 24 > 1) || (field w0 25 24 == 1 && decide (hz > 250000000))
  rangeIf (r == 7 || decide (r > 41) || assignBad || familyBad || (flag w0 27 && (decide (r > 3) || hz != 1)) || hzBad
    || decide (soft < 1) || decide (soft > 10000000) || decide ((par ps 3).toNat < soft) || field (par ps 4) 31 16 == 0
    || field (par ps 4) 15 0 == 0 || decide (field (par ps 4) 15 0 > 3600) || decide (field (par ps 5) 31 16 > 3600)
    || (timed && (decide (tol < 1) || decide (tol > 1000000))) || decide (d < -655360) || decide (d > 655360000))

/-- REF.SET_INPUT accepted: its fields apply from the next 1 ms update (R293). -/
def setInput (ps : List Word) (x : Engine) : Engine := x.modRef (refOf ps) fun q => { q with input := some ps }

/-- REF.SET_INPUT (R292). -/
def refSetInputSpec : CmdSpec :=
  { configSpec 0x0901 (lenIs 8) refRsvd refRange
      (fun c ps s =>
        let x := s.eng c.eng
        statusIf (refUnused x (refOf ps) || (refOf ps == 6 && !flag (par ps 0) 31 && d0Osc x)) .state)
      (fun c ps s => onSelf c (setInput ps) s)
    with absent := fun p ps => refAbsent p (refOf ps) }

/-- REF.SET_SLOT accepted: its fields apply from the next 1 ms update (R303). -/
def setSlot (ps : List Word) (x : Engine) : Engine := x.modSlot (field (par ps 0) 0 0) fun q => { q with policy := some ps }

/-- REF.SET_SLOT (R303, R305). -/
def refSetSlotSpec : CmdSpec :=
  configSpec 0x0902 (lenIs 4) (fun ps => zeroBits ps 0 27 1 && zeroBits ps 3 15 0)
    (fun _ ps _ =>
      let rate := (par ps 1).toNat
      let tau := field (par ps 2) 31 16
      let avg := field (par ps 3) 31 16
      rangeIf (field (par ps 0) 29 28 == 3 || decide (rate < 10) || decide (rate > 1000000) || decide (tau < 1) || decide (tau > 1000)
        || decide (field (par ps 2) 15 0 > 3600) || decide (avg < 10) || decide (avg > 3600)))
    neverJudge (fun c ps s => onSelf c (setSlot ps) s)

/-- REF.FORCE (R304): the selections of the slot are remade at once, and the reply gives them. A standby that follows its active takes
the active's (R322). -/
def refForceSpec : CmdSpec :=
  { configSpec 0x0903 (lenIs 1) (fun ps => zeroBits ps 0 31 17 && zeroBits ps 0 15 10 && zeroBits ps 0 7 6)
      (fun _ ps _ =>
        let r := refOf ps
        rangeIf (field (par ps 0) 9 8 == 3 || (field (par ps 0) 9 8 == 1 && (r == 6 || r == 7 || decide (r > 41)))))
      (fun c ps s =>
        let x := s.eng c.eng
        let q := x.ref (refOf ps)
        statusIf (field (par ps 0) 9 8 == 1
          && (refUnused x (refOf ps) || q.assign != field (par ps 0) 16 16 || q.lockout || !refGood q)) .state)
      (fun c ps s =>
        let d := field (par ps 0) 16 16
        let peer := match s.active with
          | some a => if decide (a ≠ c.eng) && c.mirror && followsActive s then some (s.eng a) else none
          | none => none
        let put (x : Engine) : Engine :=
          markSelected c.eng (reselect c.eng d peer
            (x.modSlot d fun q => { q with force := field (par ps 0) 9 8, forceRef := if field (par ps 0) 9 8 = 1 then refOf ps else 0 }))
        let s1 := s.modEng c.eng put
        let q := (s1.eng c.eng).slot d
        .now s1 [pack [(q.selT, 26), (q.selF, 20)]])
    with absent := fun p ps => field (par ps 0) 9 8 == 1 && refAbsent p (refOf ps) }

/-- The reply of REF.GET_STATUS (R323). -/
def refStatusWords (x : Engine) (r : Nat) : List Word :=
  let q := x.ref r
  let timed := x.kind r == .time || x.kind r == .pulse
  let left := if q.state = 1 then (q.until_ - x.time.now16 + s16 - 1) / s16 else 0
  [refStat x r, wordI (frq q), wordI (sat32 (dev x r)), wordI (sat32 (slopeUnits q)), wordI (if timed then sat32 (refPhase x r / 256) else 0)]
    ++ stampWords (q.rampAt.getD stampZero) ++ [word left]

/-- REF.GET_STATUS (R323). -/
def refGetStatusSpec : CmdSpec :=
  readSpec 0x0904 true (lenIs 1) (fun ps => zeroBits ps 0 31 6) (fun p ps => refAbsent p (refOf ps))
    (fun _ ps _ => rangeIf (refOf ps == 7 || decide (refOf ps > 41))) neverJudge
    (fun c ps s => .now s (refStatusWords (s.eng c.eng) (refOf ps)))

/-- REF.SET_OSC (R314): D0 moves through the glitch-free multiplexer. An engine's D0 moves to OSC_IN only while its own OSC_QUAL
reads 1 (R50): a standby that applies the active's command without it stays on the TCXO. -/
def refSetOscSpec : CmdSpec :=
  configSpec 0x0905 (lenIs 1) (fun ps => zeroBits ps 0 31 1) neverRange
    (fun c ps s => statusIf (flag (par ps 0) 0 && !oscQual (s.eng c.eng)) .state)
    (fun c ps s => onSelf c (fun x =>
      if flag (par ps 0) 0 && !oscQual x then x
      else
        markSelected c.eng (if flag (par ps 0) 0 then d0External x else d0Tcxo x)) s)

/-! ## Outputs (R317-R321) -/

/-- OUT.SET_SYNTH applied (R317): a change of F moves the outputs it feeds, which are misaligned then (R320). How far a pulse output
moves is left open: the free value `draw` (log 151). -/
def setSynth (draw : Nat) (ps : List Word) (x0 : Engine) : Engine :=
  let x := alignNow x0
  let k := field (par ps 0) 1 0
  let old := vget x.refs.syns { fHz := 0, fFrac := 0, hold := false } k
  let hz := (par ps 1).toNat
  let fr := (par ps 2).toNat
  let moved := decide (old.fHz ≠ hz ∨ old.fFrac ≠ fr)
  { x with refs := { x.refs with
      syns := vmodN x.refs.syns k fun q => { q with fHz := hz, fFrac := fr },
      clks := x.refs.clks.map fun c => { c with misaligned := c.misaligned || (moved && c.enable && c.syn == k) },
      pps := vmodN x.refs.pps k fun c => if moved && c.enable then { c with misaligned := true, offset := wrapOffset c.rate (freeInt draw * 256) / 256 } else c } }

/-- OUT.SET_SYNTH (R317). -/
def outSetSynthSpec : CmdSpec :=
  configSpec 0x0A01 (lenIs 3) (fun ps => zeroBits ps 0 31 2)
    (fun _ ps _ => rangeIf (decide ((par ps 1).toNat < 10000000) || decide ((par ps 1).toNat > 800000000))) neverJudge
    (fun c ps s => onSelf c (setSynth (takeFree s).1 ps) (takeFree s).2)

/-- OUT.SET_CLKOUT applied (R318, R320): an output that is switched on is aligned; one that stays on does not follow a
change of DELAY or of its synthesizer's F. -/
def setClkout (ps : List Word) (x : Engine) : Engine :=
  let w0 := par ps 0
  let f (k : Nat) : Nat × Nat := let q := vget x.refs.syns { fHz := 0, fFrac := 0, hold := false } k; (q.fHz, q.fFrac)
  { x with refs := { x.refs with clks := vmodN x.refs.clks (field w0 2 0) fun c =>
      let on := flag w0 31
      let late := c.enable && (c.delay != (par ps 2).toInt || f c.syn != f (field w0 25 24))
      { enable := on, format := field w0 30 28, syn := field w0 25 24, div := (par ps 1).toNat, delay := (par ps 2).toInt,
        misaligned := on && c.enable && (c.misaligned || late) } } }

/-- The output frequency F / DIV lies outside the limits of R318. F counts 2^-32 Hz. -/
def clkoutBad (x : Engine) (ps : List Word) : Bool :=
  let q := vget x.refs.syns { fHz := 0, fFrac := 0, hold := false } (field (par ps 0) 25 24)
  let f := q.fHz * 2 ^ 32 + q.fFrac
  let exceeds (hz : Nat) : Bool := decide (f > (par ps 1).toNat * hz * 2 ^ 32)
  let fmt := field (par ps 0) 30 28
  decide (f < (par ps 1).toNat * 2 ^ 32) || exceeds 800000000 || (fmt == 3 && exceeds 200000000) || (fmt == 4 && exceeds 250000000)

/-- OUT.SET_CLKOUT (R318). -/
def outSetClkoutSpec : CmdSpec :=
  configSpec 0x0A02 (lenIs 3) (fun ps => zeroBits ps 0 27 26 && zeroBits ps 0 23 3)
    (fun c ps s => rangeIf (decide (field (par ps 0) 30 28 > 4) || decide ((par ps 1).toNat < 1) || decide ((par ps 1).toNat > 1073741824)
      || badDelay (par ps 2) || clkoutBad (s.eng c.eng) ps)) neverJudge
    (fun c ps s => onSelf c (setClkout ps) s)

/-- OUT.SET_PPSOUT applied (R319, R320). -/
def setPpsout (ps : List Word) (x0 : Engine) : Engine :=
  let x := alignNow x0
  let w0 := par ps 0
  { x with refs := { x.refs with pps := vmodN x.refs.pps (field w0 1 0) fun c =>
      let on := flag w0 31
      let stays := on && c.enable
      let d := (par ps 3).toInt
      { enable := on, lv33 := flag w0 30, rate := (par ps 1).toNat, widthNs := (par ps 2).toNat, delay := d,
        misaligned := stays && (c.misaligned || c.delay != d),
        offset := if stays then wrapOffset (par ps 1).toNat (c.offset * 256 + c.delay - d) / 256 else 0 } } }

/-- OUT.SET_PPSOUT (R319). -/
def outSetPpsoutSpec : CmdSpec :=
  configSpec 0x0A03 (lenIs 4) (fun ps => zeroBits ps 0 29 2)
    (fun _ ps _ =>
      let rate := (par ps 1).toNat
      let wd := (par ps 2).toNat
      rangeIf (decide (rate < 1) || decide (rate > 100000) || 1000000000 % rate != 0 || decide (wd < 8) || decide (wd ≥ 1000000000 / rate)
        || badDelay (par ps 3))) neverJudge
    (fun c ps s => onSelf c (setPpsout ps) s)

/-- An output reaches its aligned position. -/
def aligned (m : BitVec 12) (x : Engine) : Engine :=
  { x with refs := { x.refs with
      clks := Vector.ofFn fun i => let k := x.refs.clks[i]; if m.getLsbD i.val then { k with misaligned := false } else k,
      pps := Vector.ofFn fun i => let k := x.refs.pps[i]; if m.getLsbD (8 + i.val) then { k with misaligned := false, offset := 0 } else k } }

/-- The outputs that are on, as the masks of TIME.ALIGN_OUTPUTS. -/
def outputsOn (x : Engine) : BitVec 12 := BitVec.ofNat 12 ((maskOf x.refs.clks fun k => k.enable) + 256 * maskOf x.refs.pps fun k => k.enable)

/-- TIME.ALIGN_OUTPUTS (R321): at once, or by slew until each selected output is aligned. -/
def timeAlignOutputsSpec : CmdSpec :=
  configSpec 0x080F (lenIs 2) (fun ps => zeroBits ps 0 30 12 && (flag (par ps 0) 31 || (par ps 1).toNat == 0))
    (fun _ ps _ => rangeIf (flag (par ps 0) 31 && (decide ((par ps 1).toNat < 10) || decide ((par ps 1).toNat > 1000000))))
    (fun c ps s =>
      let x := s.eng c.eng
      let m := BitVec.ofNat 12 (field (par ps 0) 11 0)
      firstOf [statusIf (m &&& ~~~(outputsOn x) != 0) .state, statusIf (x.refs.align != 0) .busy])
    (fun c ps s =>
      let m := BitVec.ofNat 12 (field (par ps 0) 11 0)
      if flag (par ps 0) 31 && m != 0 then
        { state := s.modEng c.eng fun x => { x with refs := { x.refs with
            align := m, aligned := m, alignRate := (par ps 1).toNat, alignAt := x.time.tbCycles } }, body := [],
          await := some .alignOutputs }
      else .now (s.modEng c.eng (aligned m)) [word m.toNat])

/-- OUTPUT_SLEW_DONE (R321): an output is aligned; with the last one the command replies. -/
def rowOutputSlewDone (e : EngId) (out : Fin 12) (s : State) : Host.Outcome State Fault Refusal :=
  onEngine e s fun s =>
    let x := s.eng e
    if x.refs.align.getLsbD out.val then
      let m := 1#12 <<< out.val
      let y := aligned m { x with refs := { x.refs with align := x.refs.align &&& ~~~m } }
      let s1 := s.setEng e y
      if y.refs.align = 0 then complete e .alignOutputs .ok (fun x _ => [word x.refs.aligned.toNat]) s1 else s1
    else s

end Sys2Proof.Machine
end

