-- ==== Sys2Proof/Machine/Ingress.lean ====
section
/-! DEFINITION. Ingress: the sampler's choice, the decision of a pass, admission, duplicate discard, and what becomes of a
frame at its tail (chapters 4 to 9 and 14). -/

namespace Sys2Proof.Machine

/-! ## The sampler (R407, R408) -/

/-- The entries of the on-die ring that the frames taken before still need (R408, R410; DEDUCED, log 166): one for each copy that a
decided frame has left, 34 for one that the Roundabout has still to decide. -/
def Engine.sampleDue (x : Engine) : Nat :=
  let pending (i : Nat) : Bool :=
    x.buf.round.any (fun r => r.frame == i) || x.buf.arriving.any (fun a => a.2.frame == i && a.2.recirc.isSome)
  (x.buf.frames.map fun k => if k.2.sample.isNone then 0 else if pending k.1 then 34 else min 34 k.2.refs).sum

/-- The setting that judges a frame by its ingress stamp (R411): the oldest one replaced that still holds for it, else the present
one. -/
def samplerFor (stamp : Stamp) (t : StatsState) : OldSampler :=
  (t.smpOld.find? fun o => decide (stamp.t ≤ o.until16)).getD
    { until16 := 0, enable := t.smpEnable, mode := t.smpMode, log2N := t.smpLog2N, meanN := t.smpMeanN, lfsr := t.smpLfsr,
      mask := t.smpMask, count := t.smpCount }

/-- The count and the register of the setting that judged a frame kept in it. -/
def keepSampler (stamp : Stamp) (o : OldSampler) (t : StatsState) : StatsState :=
  if t.smpOld.any fun q => decide (stamp.t ≤ q.until16) then
    { t with smpOld := t.smpOld.map fun q => if q.until16 = o.until16 then o else q }
  else { t with smpCount := o.count, smpLfsr := o.lfsr }

/-- An eligible frame considered by the sampler. `draw` is a free value: the 32-bit register of MODE 1 has no polynomial in
the manual (log 6). The SAMPLE_SEQ of a taken frame, and the engine after. -/
def sampleChoice (draw p : Nat) (stamp : Stamp) (x : Engine) : Option Nat × Engine :=
  let o := samplerFor stamp x.stats
  if x.core.role ≠ 1 ∨ o.enable = false ∨ o.mask.getLsbD p = false then (none, x)
  else
    let chosen := if o.mode then decide (o.count ≤ 1) else decide (o.count + 1 ≥ 2 ^ o.log2N)
    if !chosen then
      let n := if o.mode then o.count - 1 else o.count + 1
      (none, { x with stats := keepSampler stamp { o with count := n } x.stats })
    else
      let n := if o.mode then 1 + draw % (2 * o.meanN - 1) else 0
      let lfsr := if o.mode then BitVec.ofNat 32 draw else o.lfsr
      let seq := (x.stats.smpSeq + 1) % 2 ^ 32
      let t := keepSampler stamp { o with count := n, lfsr := lfsr } x.stats
      let y : Engine := { x with stats := { t with smpSeq := seq } }
      if t.onDie.length + x.sampleDue + 34 ≤ 8192 then (some seq, y.bump 92) else (none, y.bump 91)

/-! ## The pass (R149-R152) -/

/-- What L2 leaves of a rule's action: class, meter and mirror (R141). -/
def actL2 (a : List Word) : List Word := [par a 0 &&& 0x0000F0F8#32, 0, par a 2 &&& 0xFFE00000#32, 0]

/-- A lookup: the engine after its counters, the winning index, 0xFFFF for a miss, and the action. -/
structure Hit where
  eng : Engine
  index : Nat
  act : List Word
deriving DecidableEq, Repr

/-- The rules of a port. -/
def Engine.portRule (x : Engine) (p : Nat) : PortRule := vget x.rules.ports portRuleReset p

/-- The parsing of a port. -/
def Engine.portParse (x : Engine) (p : Nat) : PortParse := vget x.parser.ports portParseReset p

/-- What a truncation or conflict action leaves of a rule's action (R141): all of it, what L2 leaves, or the class alone of a frame
that goes to the host only or is discarded. The rule's CNT counts the lookup all the same (R398). -/
def actUnder (gone : Nat) (a : List Word) : List Word :=
  if gone = 0 then a else if gone = 1 then actL2 a else [par a 0 &&& 0x0000F000#32, 0, 0, 0]

/-- The lookup of a pass of a frame in the bank of its epoch (R149, R150, R154), under the settings its port had at its first byte.
`base` is where the pass starts, `gone` the truncation or conflict action that limits what applies. -/
def lookupRule (x : Engine) (f : Frame) (pass1 : Bool) (meta_ : Nat) (r : ParseResult) (base gone : Nat) : Hit :=
  let b := x.rules.bank (bankOfEpoch x.rules f.epoch)
  let ds := look [] f.pr.profile b.profiles
  let last := (r.list.getLast?.map fun h => h.1).getD 0
  let k := buildKey ds (extractsOf b.wide) (metaWord f.ingress (parseFlags r f.bytes false) pass1 last meta_) r.list f.bytes
    (base + f.pp.byteLimit)
  match searchBank b k with
  | none => { eng := x.bumpPort f.ingress 22, index := 0xFFFF, act := missAction }
  | some (i, w) => { eng := if actCnt w.action then x.bump (actCntIdx w.action) else x, index := i, act := actUnder gone w.action }

/-- The outermost VLAN tag of a pass: of pass 1, the first tag after the first Ethernet header it records (R151). -/
def passTag (pass1 : Bool) (hs : List (Nat × Nat)) (bs : List Byte) : Option Nat :=
  if !pass1 then outerTag hs bs
  else
    match hs.find? fun h => h.1 == 1 || h.1 == 11 with
    | some (11, _) => (hdrOff 12 hs).map fun o => half bs o
    | some _ => outerTag hs bs
    | none => (hs.find? fun h => h.1 == 2 || h.1 == 12).map fun h => half bs h.2

/-- The meter of an action over a frame (R160); one that R365 has made invalid is absent: discarded as red, drop-eligible as yellow, and the engine after. -/
def meterAct (act : List Word) (n : Nat) (x : Engine) : Bool × Bool × Engine :=
  if !actMeter act || x.rules.voided.contains (7, actMeterIdx act) then (false, false, x)
  else
    let i := actMeterIdx act
    let (c, m) := meterFrame x.time.now16 (n + 20) (look meterZero i x.rules.meters)
    let y : Engine := { x with rules := { x.rules with meters := put meterZero i m x.rules.meters } }
    (c == .red, c == .yellow, if c = .red then y.bump 39 else y)

/-- The members of the pair that a port belongs to, the port alone otherwise (R258). -/
def Engine.members (x : Engine) (p : Nat) : BitVec 34 :=
  match x.pairOf p with
  | some r => portBit (x.pair r).portA ||| portBit (x.pair r).portB
  | none => portBit p

/-- A destination with every member of a pair named in full, the ingress port and its pair left out (R152, R258). -/
def pairDest (x : Engine) (ingress : Nat) (d : Dest) : Dest :=
  let all := (List.range 34).foldl (fun m p => if d.ports.getLsbD p then m ||| x.members p else m) 0#34
  let own := if ingress < 34 then x.members ingress else 0
  let ports := all &&& ~~~own
  { d with ports := ports, same := d.same || (!d.multi && all != 0 && ports == 0) }

/-- The port to which an accepted HSR frame goes on round the ring (R261): the other member, unless it is decided for a
unicast destination outside the pair. -/
def ringPort (x : Engine) (f : Frame) (d : Dest) : Option Nat :=
  match f.red, x.pairOf f.ingress with
  | some t, some r =>
    let k := x.pair r
    if t.hsr && k.mode == 2 && !(!d.multi && d.ports != 0) then some (if k.portA = f.ingress then k.portB else k.portA) else none
  | _, _ => none

/-- The outcome of a pass: the engine after its counters, the destination before admission, what Table 9.3 says, the copies
to be made, and the discard cause when there is none (Table 14.5). -/
structure Decision where
  eng : Engine
  dest : Dest
  fate : PtpFate
  copies : List Copy
  noCopy : Nat
  queue : Nat
  launch : Bool
deriving Repr

/-- The launch queue that an action or a spread entry names (R158, R252, Table 5.17). -/
def launchQueue (act : List Word) (d : Dest) : Option Nat :=
  match d.queue with
  | some q => if q ≥ 8 then some (q - 8) else none
  | none => if actLaunch act then some (actLq act) else none

/-- The launch time that a launch queue of a port gives a forwarded frame (R252). -/
def launchTime (x : Engine) (p lq stamp : Nat) : Option Nat :=
  let g := x.eg p
  if lq = 0 then (if g.lq0Mode then some (stamp + g.delay0 * ns16) else none)
  else if g.lq1Mode then some (stamp + g.delay1 * ns16) else none

/-- One copy of a decision for a port: each has its own stamp record where the action asks for one (R90), and the template of the action
is applied before that of the spread entry (DESIGN CHOICE, log 161). -/
def copyFor (x : Engine) (i : Nat) (f : Frame) (act : List Word) (d : Dest) (p : Nat) : Copy :=
  let t := match launchQueue act d with
    | some lq => (launchTime x p lq f.stamp.t).map fun t => (8 + lq, t)
    | none => none
  let plain := match d.queue with
    | some q => if q < 8 then q else f.cls
    | none => f.cls
  { frame := i, port := p, queue := (t.map fun k => k.1).getD plain, cls := f.cls, launch := t.map fun k => k.2,
    tag := if actTs act then some (actTag act) else none,
    rewrites := (if actRewrite act then [actRewriteIdx act] else []) ++ d.template.toList, mirror := false, trap := 0,
    staged := false, held := false, enq := x.time.now16, charged := false, ring := false }

/-- The copy of an accepted HSR frame that goes on round the ring unchanged (R261), unless that port is unused. -/
def ringCopy (x : Engine) (i : Nat) (f : Frame) (d : Dest) : Option Copy :=
  match ringPort x f d with
  | some p => if x.unused p then none else some { copyFor x i f missAction destNone p with ring := true }
  | none => none

/-- The port round the ring is unused: it counts as any such destination (R505). -/
def ringUnused (x : Engine) (f : Frame) (d : Dest) : Bool :=
  match ringPort x f d with
  | some p => x.unused p
  | none => false

/-- The TS_VALID 0 record of a frame that asked for a stamp and was discarded before it had a copy (R90). It names no egress port:
that field is a free value (log 74). -/
def stampLost (e : EngId) (f : Frame) (tag : Option Nat) (x : Engine) : Engine :=
  match tag with
  | some t => if x.stores then stampRecord e (Config.noEgressPort t % 64) t stampZero f.stamp 0 x else x
  | none => x

/-- The decision of a pass on a frame whose lookup gave an action (R149): `da` and `vid` for the forwarding table; `red`
says that its meter discards it, also from its ring (log 71). -/
def decideFrame (part : Part) (x : Engine) (i : Nat) (f : Frame) (act : List Word) (red inner : Bool) (da vid : Nat) : Decision :=
  let rule := red || actKind act == 4
  let d := pairDest x f.ingress (resolveDest x act f.ingress da vid inner f.hdrs f.bytes)
  let fate : PtpFate :=
    match hdrOff 17 f.hdrs with
    | some o => if rule || decide (f.ingress ≥ 32) then .ordinary else ptpFate x f.ingress f.hdrs f.bytes o
    | none => .ordinary
  let free := !rule && fate == .ordinary
  let ports := if rule then 0 else d.ports
  let unused := unusedOf x ports
  let live := (List.range 34).filter fun p => ports.getLsbD p && portFitted part p && !x.unused p
  let normal := if free then live.map (copyFor x i f act d) else []
  let ring := (if red then none else ringCopy x i f d).toList.filter fun c => !(free && live.contains c.port)
  let copies := normal ++ ring
  let x1 := match free, d.counter with
    | true, some k => x.bump k
    | _, _ => x
  let x2 := if free && d.same && copies.isEmpty then x1.bumpPort f.ingress 23 else x1
  let astray := !red && ringUnused x f d && !(free && (match ringPort x f d with
    | some p => unused.getLsbD p
    | none => false))
  let x2a := if astray then x2.bump 63 else x2
  let x3 := if free then (List.range 32).foldl (fun y p => if unused.getLsbD p then y.bump 63 else y) x2a else x2a
  let asked := (launchQueue act d).isSome
  let x4 := if asked && normal.any (fun c => c.launch.isNone) && decide (f.ingress < 34) then x3.bumpPort f.ingress 24 else x3
  { eng := x4, dest := { d with ports := ports }, fate := fate, copies := copies,
    noCopy := if !copies.isEmpty then 0 else if fate ≠ .ordinary then 11 else if unused ≠ 0 then 11 else 1,
    queue := (copies.head?.map fun c => c.queue).getD (match d.queue with
      | some q => q
      | none => f.cls),
    launch := copies.any fun c => c.launch.isSome }

/-- The mirror copy of an action (R158): none back to the ingress port, none of a session that R365 has made invalid. -/
def mirrorCopy (part : Part) (i : Nat) (f : Frame) (act : List Word) (x : Engine) : Option Copy × Engine :=
  if !actMirror act || x.rules.voided.contains (8, actSession act) then (none, x)
  else
    let (p, c) := look (0, 0) (actSession act) x.rules.mirrors
    if p = f.ingress ∨ portFitted part p = false then (none, x)
    else if x.unused p then (none, x.bump 63)
    else
      (some { frame := i, port := p, queue := c, cls := c, launch := none, tag := none, rewrites := [], mirror := true, trap := 0,
              staged := false, held := false, enq := x.time.now16, charged := false, ring := false }, x)

/-! ## Admission (R201-R205, R218-R220, R254) -/

/-- What the head test makes of a copy: cut through, stored, residue, or refused with a counter of a port and a discard
cause. -/
inductive CopyVerdict where
  | cut
  | ready
  | residue
  | refused (port counter cause : Nat)
deriving DecidableEq, Repr

/-- A frame above 9,216 bytes, FCS included (R208). -/
def oversize (f : Frame) : Bool := decide (f.orig.length + 4 > 9216)

/-- Every condition of Table 6.7 but an idle transmitter; `spilled` says that the frame goes to the Underpass. A copy whose template meets
an expired TTL is not sent and so not cut through (R159). -/
def Engine.cutConditions (x : Engine) (f : Frame) (c : Copy) (spilled : Bool) : Bool :=
  let p := c.port
  let q := c.queue
  decide (f.ingress < 34) && decide (p < 32) && x.txUp p && x.ports.ctIn.getLsbD f.ingress && x.ports.ctOut.getLsbD p
    && (f.ingress == 32 || decide (x.rate p ≤ x.rate f.ingress)) && decide (q < 8) && (x.queue p q).isEmpty
    && (x.eg p).gates.getLsbD q && !x.paused p q && !(x.preemptable p q && (x.eg p).hold)
    && x.passes p q (x.time.now16 * 25) 9216 && x.endsBeforeSwap p (x.time.now16 * 25) 9216 && !spilled && !f.pp.prp && !c.mirror && !f.pass1
    && !copyExpires x c f

/-- A transmitter that nothing holds (Table 6.7). -/
def Engine.txIdle (x : Engine) (p : Nat) : Bool := (x.eg p).tx.isNone && (x.eg p).cut.isNone && (x.eg p).ctl.isEmpty

/-- A transmitter claimed by a cut-through copy whose head has not left (R192). -/
def Engine.claimed (x : Engine) (p : Nat) : Bool :=
  match (x.eg p).tx with
  | some t => t.ct && !t.begun
  | none => false

/-- A copy of a multicast frame finds older residue of its port and class, or lossless replication stopped (R201, R204). -/
def Engine.behindResidue (x : Engine) (c : Copy) : Bool :=
  ((x.buf.residue ++ x.buf.waiting).any fun k => k.port == c.port && k.cls == c.cls)
    || ((x.cls c.cls).lossless && x.residueStopped)

/-- The head test of a copy for a port that is up, at its decision (R201, R218, R254). A copy of a frame for several ports is cut
through only where its queue admits it. -/
def judgeCopy (part : Part) (x : Engine) (f : Frame) (multi spilled : Bool) (c : Copy) : CopyVerdict :=
  let lossless := decide (f.ingress < 34) && x.lossless f.ingress c.cls
  let admits := headOut part x c.port c.queue c.cls f.dropElig
  let cut := x.cutConditions f c spilled && x.txIdle c.port
  match x.launchRefusal c with
  | some k => .refused c.port k 6
  | none =>
    if multi then
      let ready := !x.behindResidue c && admits
      if oversize f then (if ready && cut then .cut else .refused f.ingress 39 3)
      else if !ready then .residue
      else if cut then .cut
      else .ready
    else if cut then .cut
    else if oversize f then .refused f.ingress 39 3
    else if lossless || admits then .ready
    else .refused f.ingress (if (x.cls c.cls).lossless then 38 else 68 + c.cls) 3

/-- A copy that would lose a claimed transmitter to another cut-through copy, should it be stored (R192). -/
def lostClaim (x : Engine) (f : Frame) (multi spilled : Bool) (c : Copy) : Bool :=
  x.claimed c.port && x.cutConditions f c spilled && !(multi && x.behindResidue c)

/-- Where the spill rules send a frame (R234): it is not spilled, spilled, or would be but for full spill staging. -/
inductive Spill where
  | stay
  | go
  | busy
deriving DecidableEq, Repr

/-- A frame's cells charged for the store it is written to. One that is charged to headroom lies where that headroom lies, and is never
spilled (R234). -/
def chargeFrame (part : Part) (qs : List (Nat × Nat)) (uni : Option (Nat × Nat)) (spill : Bool) (n : Nat) (f : Frame) (x : Engine) :
    Option (Bool × Engine × Frame) :=
  match chargeCells part qs uni spill n (x, f) with
  | none => none
  | some (y, g) =>
    let under := (y.hr g.ingress g.cls).under
    if g.pHr = 0 ∨ under = spill then some (spill, y, g)
    else (chargeCells part qs uni under n (x, f)).map fun k => (under, k)

/-- A frame's cells charged, taken and written (R207, R220, R234): none when the completion reserve is empty. SPILL_BUSY counts a frame
that full spill staging keeps in the Arcade. -/
def storeFrame (part : Part) (qs : List (Nat × Nat)) (uni : Option (Nat × Nat)) (spill : Spill) (i : Nat) (x : Engine) :
    Option Engine :=
  match x.frame i with
  | none => none
  | some f =>
    let n := cellsOf f.orig.length
    match chargeFrame part qs uni (spill == .go && decide (n ≤ x.sharedFreeU part)) n { f with acls := f.cls } x with
    | none => none
    | some (under, y, g) =>
      let cs := if under then pickCells y.takenCells underpassCells n arcadeCells else pickCells y.takenCells arcadeCells n 0
      if cs.length < n then none
      else
        let z := y.putFrame i { g with cells := cs, under := under }
        let w := if !under then (if spill == .busy && g.pHr == 0 then z.bump 66 else z)
          else if g.pHr = 0 then spillCells n z else headroomCells n z
        some (writeInjected cs (f.orig.length + 4) (judgeXons part (judgeSpill w)))

/-- A frame's first cell finds a place. -/
def firstCell (part : Part) (i : Nat) (x : Engine) : Bool :=
  match x.frame i with
  | none => false
  | some f => (chargeCell part [] none false (x, f)).isSome

/-- The cells of frames of one ingress port that wait for the Roundabout before a frame: their places are not given away (log 163). -/
def Engine.heldAhead (x : Engine) (i p : Nat) : Nat :=
  ((x.buf.round.takeWhile fun k => k.frame != i).map fun k => match x.frame k.frame with
    | some g => if g.ingress = p ∧ g.round = 0 then g.cells.length else 0
    | none => 0).sum

/-- The place of a recirculating frame's cells moved to the Roundabout, where there is room (R169, R210); its charges are kept for when
it leaves. -/
def toRound (i : Nat) (x : Engine) : Engine :=
  match x.frame i with
  | none => x
  | some f =>
    let n := f.cells.length
    if f.round ≠ 0 ∨ n = 0 ∨ x.overFrames (fun g => g.round) + x.heldAhead i f.ingress + n > 256 then x
    else
      let y := x.modIn f.ingress f.acls fun a => { a with minUse := a.minUse - f.pMin, hrUse := a.hrUse - f.pHr }
      let z := f.pEg.foldl (fun w k => w.modEg (k.1 / 10) (k.1 % 10) fun a => { a with minUse := a.minUse - k.2 }) y
      z.putFrame i { f with round := n }

/-- A cut-through copy claims its transmitter (R192); `stomp` marks one whose frame cannot be kept whole. -/
def claimTx (stomp : Nat) (c : Copy) (x : Engine) : Engine :=
  let t : Tx :=
    { copy := some c, bytes := [], stamp := stampZero, residence := 0, stomp := stomp, ct := true, begun := false, pre := false, left := 0,
      started := x.time.now16, starved := false }
  x.modEgPort c.port fun g => { g with tx := some t }

/-- A copy that becomes residue (R203-R205): a lossy one is dropped where there is no residue for it, a lossless one waits. -/
def intoResidue (part : Part) (e : EngId) (c : Copy) (x : Engine) : Engine :=
  let lossless := (x.cls c.cls).lossless
  if !lossless && x.buf.residueAgeUs == 0 then discardCopy part e 7 c (x.bumpPort c.port 37)
  else if !lossless && x.residueFull false then discardCopy part e 7 c (x.bump 60)
  else if lossless && (x.residueStopped || x.residueFull true) then
    judgeStall (x.modBuf fun b => { b with waiting := b.waiting ++ [c] })
  else (x.bumpPort c.port 36).setResidue (x.buf.residue ++ [c])

/-- What needs a frame stored whole beside its copies: nothing, its trap copy, or the Roundabout. -/
inductive Need where
  | nothing
  | trap
  | round
deriving DecidableEq, Repr

/-- What admission leaves: the engine, the copies stored for the tail, whether the trap copy and the Roundabout still stand,
whether a copy was cut through. -/
structure Admitted where
  eng : Engine
  stored : List Copy
  kept : Bool
  cut : Bool
deriving DecidableEq, Repr

/-- A list of copies discarded with one cause. -/
def discardEach (part : Part) (e : EngId) (cause : Nat) (cs : List Copy) (x : Engine) : Engine :=
  cs.foldl (fun y c => discardCopy part e cause c y) x

/-- The cells of a stored frame counted against the queues of copies that were judged after its storing (R167, R220). -/
def chargeCopies (f : Frame) (cs : List Copy) (x : Engine) : Engine :=
  cs.foldl (fun y c => y.modEg c.port c.queue fun a => { a with occ := a.occ + f.cells.length, hrUse := a.hrUse + f.pHr }) x

/-- The copies of a decision admitted on an engine that stores (R201, R208, R218-R220, R234). An oversize frame counts as that for a port
that is down too (DESIGN CHOICE, log 161). The frame stands under its handle with
one reference for each copy. `again` says that it makes its second pass, or a later copy: it has its ingress charges and its cells. -/
def admitCopies (part : Part) (e : EngId) (i : Nat) (copies : List Copy) (mirror : Option Copy) (multi : Bool) (need : Need) (again : Bool)
    (xe : Engine) : Admitted :=
  let x0 := judgeSpill xe
  match x0.frame i with
  | none => { eng := x0, stored := [], kept := false, cut := false }
  | some f =>
    let big := oversize f
    let whole := need != .nothing
    let downs := (copies ++ mirror.toList).filter fun c => !(x0.port c.port).up
    let ups := copies.filter fun c => (x0.port c.port).up
    let mir := mirror.toList.filter fun c => (x0.port c.port).up
    let first := ups.map fun c => (c, judgeCopy part x0 f multi false c)
    let stays := whole || !downs.isEmpty || !mir.isEmpty || (multi && !ups.isEmpty)
      || first.any fun v => v.2 == .ready || v.2 == .residue
    let spills := stays && !big && !again && x0.buf.spilling && (x0.cls f.cls).spill && underpassPart part && need != .round
      && !(copies.any fun c => c.launch.isSome)
    let spill : Spill := if !spills then .stay else if x0.spillStaged ≥ spillDepth then .busy else .go
    let vs := if spill == .go then ups.map fun c => (c, judgeCopy part x0 f multi true c) else first
    let mirOk := mir.filter fun c => !big && headOut part x0 c.port c.queue c.cls f.dropElig
    let pick (v : CopyVerdict) : List Copy := (vs.filter fun k => k.2 == v).map fun k => k.1
    -- refusals at the decision
    let x2 := vs.foldl (fun y k => match k.2 with
      | .refused p n cause => discardCopy part e cause k.1 (y.bumpPort p n)
      | _ => y) x0
    let x3 := (mir.filter fun c => !mirOk.contains c).foldl (fun y c =>
      discardCopy part e 3 c (y.bumpPort f.ingress (if big then 39 else 68 + c.cls))) x2
    let x3a := if big && whole then x3.bumpPort f.ingress 39 else x3
    let x4 := if big then downs.foldl (fun y c => discardCopy part e 3 c (y.bumpPort f.ingress 39)) x3a else x3a
    let downs1 := if big then [] else downs
    let cuts := pick .cut
    let ready := pick .ready ++ mirOk
    let residue := pick .residue
    let claim (stomp : Nat) (y : Engine) : Engine := cuts.foldl (fun y c => claimTx stomp c y) y
    -- a frame for several ports is always stored (R208), a mirror or trap copy and the Roundabout need it
    let kept := !big && (whole || !ready.isEmpty || !residue.isEmpty || (multi && !cuts.isEmpty))
    match (if kept && !again then headIn part x4 f.ingress f.cls f.dropElig else none) with
    | some k =>
      let y := discardEach part e 3 (ready ++ residue ++ downs1) (countRefusal f.ingress f.cls k x4)
      if multi then { eng := discardEach part e 3 cuts y, stored := [], kept := false, cut := false }
      else { eng := claim 0 y, stored := [], kept := false, cut := !cuts.isEmpty }
    | none =>
      let uni := match multi, copies.filter fun c => ready.contains c || downs1.contains c with
        | false, [c] => some (c.port, c.queue)
        | _, _ => none
      let stored := if again && !f.cells.isEmpty then some (chargeCopies f ready x4)
        else if kept || !downs1.isEmpty then storeFrame part (ready.map fun c => (c.port, c.queue)) uni spill i x4
        else some x4
      match stored with
      | none =>
        let y := discardEach part e 3 (ready ++ residue ++ downs1) (x4.bump 67)
        -- a head leaves before the second cell is written: its copy ends stomped (R220)
        if firstCell part i x4 then { eng := claim 7 y, stored := [], kept := false, cut := !cuts.isEmpty }
        else { eng := discardEach part e 3 cuts y, stored := [], kept := false, cut := false }
      | some y0 =>
        let lost := (pick .ready).filter fun c => lostClaim x0 f multi (spill == .go) c
        let y := lost.foldl (fun y c => y.bumpPort c.port 29) y0
        { eng := residue.foldl (fun y c => intoResidue part e c y) (claim 0 y),
          stored := (ready.map fun c => { c with charged := true }) ++ downs1, kept := !big, cut := !cuts.isEmpty }

/-! ## Duplicate discard (R261) -/

/-- Duplicate discard for a frame on a member of a pair: the counter of a discard, and the engine after. -/
def dupCheck (p src seq : Nat) (x : Engine) : Option Nat × Engine :=
  match x.pairOf p with
  | none => (none, x)
  | some r =>
    if (x.pair r).mode = 2 ∧ (x.egress.proxies.any fun k => k.pair == r && k.src == src) = true then (some 58, x)
    else
      match x.egress.dups.find? fun k => k.pair == r && k.src == src && k.seq == seq with
      | some d =>
        if d.port ≠ p then
          (some 56, { x with egress := { x.egress with dups := x.egress.dups.filter fun k => decide (k ≠ d) } })
        else (some 57, x)
      | none =>
        let full := decide (x.egress.dups.length ≥ 16384)
        let old := if full then x.egress.dups.drop 1 else x.egress.dups
        let new : Dup := { pair := r, src := src, seq := seq, port := p, at_ := x.time.now16 }
        let y : Engine := { x with egress := { x.egress with dups := old ++ [new] } }
        let due := match y.egress.dupEvictAt with
          | some t => decide (y.time.now16 ≥ t + s16)
          | none => true
        let z := if full then y.bump 72 else y
        if full && due then
          (none, ({ z with egress := { z.egress with dupEvictAt := some z.time.now16 } } : Engine).raise 0x06 0x03 1 (word r))
        else (none, z)

/-! ## The decision record (R336, Table 11.5) -/

/-- The 32 bytes of a decision record. -/
def decisionRecord (f : Frame) (flags : BitVec 8) (cls queue learn : Nat) (dest : BitVec 34) : List Byte :=
  [BitVec.ofNat 8 f.ingress, flags] ++ beBytes 2 f.orig.length ++ beBytes 4 (ethCrc f.orig).toNat ++ beBytes 2 f.epoch
    ++ beBytes 2 f.hit0 ++ beBytes 2 f.hit1 ++ [BitVec.ofNat 8 (queue % 16 * 8 + cls), BitVec.ofNat 8 learn] ++ beBytes 5 dest.toNat
    ++ List.replicate 11 0

/-- A good frame counted into the digest of its window, unless R336 leaves it out. -/
def digestFrame (part : Part) (f : Frame) (flags : BitVec 8) (queue learn : Nat) (dest : BitVec 34) (x : Engine) : Engine :=
  if !twinPart part || decide (f.ingress ≥ 32) || f.edge then x
  else
    let h := crc64 (decisionRecord f flags f.cls queue learn dest)
    { x with twin := { x.twin with digestFrames := x.twin.digestFrames ++ [(f.stamp.t, h)] } }

/-- The flags of a decision record that the action and the parse give. -/
def recordFlags (r : ParseResult) (bs : List Byte) (act : List Word) (recirc launch gone : Bool) : BitVec 8 :=
  let p := parseFlags r bs false
  BitVec.ofNat 8 (bit (p.getLsbD 7) * 128 + bit (p.getLsbD 6) * 64 + bit recirc * 32 + bit (actTrap act) * 16 + bit (actMirror act) * 8
    + bit (actTs act) * 4 + bit launch * 2 + bit gone)

/-- The copies that the standby has decided, for the loss count of R332. -/
def noteDecided (f : Frame) (cs : List Copy) (x : Engine) : Engine :=
  if x.core.role = 2 ∧ x.twin.storing = false then
    { x with twin := { x.twin with shadowDecided := x.twin.shadowDecided ++ cs.map fun c => (10 * c.port + c.queue, f.stamp.t) } }
  else x

/-! ## The head of a frame (R83, R125, R141, R144, R145) -/

/-- The truncation or conflict action of a parse result (R141, R145): 0 none, 1 L2, 2 trap, 3 discard, and the trap
reason. `late` takes tail-resolved failures in. -/
def parseAction (q : PortParse) (r : ParseResult) (late : Bool) : Nat × Nat :=
  let t := if r.reason = 0 then 0 else q.truncAct + 1
  let conf := r.head.isSome || (late && r.tail.isSome)
  let c := if !conf || q.confAct == 0 then 0 else q.confAct + 1
  (max t c, if c = 2 then 2 else 1)

/-- The parse of pass 0 (R125, R143, R146): a valid trailer of a PRP port is deducted. -/
def parsePass0 (x : Engine) (q : PortParse) (bs : List Byte) : ParseResult :=
  let r := parseFrom x.parser q q.start 0 0 bs
  if q.prp && (prpTrailer bs (hdrOff 18 r.list).isSome).2.isSome then parseFrom x.parser q q.start 0 6 bs else r

/-- The counters of a walk (R127, R132, R141). -/
def countWalk (p : Nat) (r : ParseResult) (x : Engine) : Engine :=
  let x1 := if r.deadEnd then x.bump 37 else x
  let x2 := if r.csumBad then x1.bumpPort p 19 else x1
  if r.reason = 0 then x2
  else
    let y := x2.bumpPort p 16
    { y with parser := { y.parser with lastTrunc := truncWord p r } }

end Sys2Proof.Machine
end

