-- ==== Sys2Proof/Machine/Frames.lean ====
section
/-! DEFINITION. The events of ingress: a frame's head and tail, MAC control frames, the Roundabout, bank flips, the send
rings and the forwarding table's sweep (chapters 3 to 8 and 15). -/

namespace Sys2Proof.Machine

/-! ## MAC control frames (R224) -/

/-- A MAC control frame with a good FCS (R224): PFC on a PFC port, PAUSE on a PAUSE port, anything else ignored. A queue that it
releases may trip its watchdog again (R226). -/
def macControl (p op : Nat) (vec : BitVec 8) (quanta : Nat → Nat) (x : Engine) : Engine :=
  let m := (x.fc p).mode
  if op = 0x0101 ∧ m = 2 then
    settlePauses p ((x.bumpPort p 43).modFc p fun f =>
      { f with timers := Vector.ofFn fun i => if vec.getLsbD i.val then quanta i.val else f.timers[i] })
  else if op = 0x0001 ∧ m = 1 then
    settlePauses p ((x.bumpPort p 44).modFc p fun f => { f with timers := Vector.replicate 8 (quanta 0) })
  else x.bumpPort p 45

/-- An engine that follows frames: the active and the standby. -/
def Engine.follows (x : Engine) : Bool := x.core.role == 1 || x.core.role == 2

/-- MAC_CONTROL_RECEIVED. The frame is stamped like any other (R83). -/
def execMacControlReceived (e : EngId) (port : Fin 34) (opcode : BitVec 16) (vec : BitVec 8) (quanta : Vector (BitVec 16) 8)
    (len : Nat) (s : State) : Host.Outcome State Fault Refusal :=
  onEngine e s fun s => s.modEng e fun x =>
    let y := countDegraded (x.portStamp port.val 0 0) (rxCount port.val len x)
    if (y.port port.val).up && y.follows then macControl port.val opcode.toNat vec (fun i => (vget quanta 0#16 i).toNat) y else y

/-! ## The head (R83, R107, R123, R125, R149, R181, R209) -/

/-- An arriving frame of which the MAC keeps only the bytes, and its ingress stamp (R83). -/
def arrivalOf (kind : RxKind) (stamp : Stamp) (bs : List Byte) (jabber : Bool) : Arriving :=
  { kind := kind, stamp := stamp, bytes := bs, jabber := jabber, frame := 0, copies := [], parse := parseNone, act := 0, trap := 0, recirc := none,
    fate := .ordinary, host := 0, tag := none, cut := false, noCopy := 0, flags := 0, queue := 0, dest := 0, vid := 0 }

/-- An arriving frame put on its port. -/
def Engine.putArriving (x : Engine) (p : Nat) (a : Arriving) : Engine :=
  x.modBuf fun b => { b with arriving := insertAt p a b.arriving }

/-- What the MAC of a port does with a frame (R107, R123, R209, R224, R377). -/
def rxKind (x : Engine) (p : Nat) (bs : List Byte) : RxKind :=
  if !(x.port p).up then .counted
  else if bs.length < 60 then .runt
  else if !x.follows then .counted
  else if half bs 12 = 0x8808 then .control
  else if p < 32 ∧ bytesAt bs 0 6 = 0x0180C200000E ∧ half bs 12 = x.ports.etype.toNat then .ahnud
  else .data

/-- A new frame of the engine, not yet decided, with the settings that its port has as its first byte comes. -/
def newFrame (p : Nat) (stamp : Stamp) (x : Engine) (bs : List Byte) (r : ParseResult) (sample : Option Nat) : Frame :=
  let ep := epochOf x.rules stamp.t
  let cls := portClass (x.portRule p) (outerTag r.list bs)
  { ingress := p, stamp := stamp, jumps := x.time.jumpSum, bytes := bs, orig := bs, hdrs := r.list, pflags := parseFlags r bs false,
    truncPtp := r.reason != 0 && nodeKind (nodeOf x.parser.graph r.endNode) == 17, pp := x.portParse p, pr := x.portRule p,
    epoch := ep.1, edge := ep.2, hit0 := 0xFFFF, hit1 := 0xFFFF, cls := cls, acls := cls, dropElig := false, cells := [],
    under := false, pMin := 0, pHr := 0, pShared := 0, pRes := 0, pEg := [], round := 0, refs := 1, sample := sample, trap := 0,
    red := none, bad := 0, multi := false, several := false, pass1 := false, noTag := false, seqs := [], phi := (x.netPort p).phi, slot := 0 }

/-- A frame put into the table under a new handle, held by what brings it. -/
def Engine.addFrame (x : Engine) (f : Frame) : Nat × Engine :=
  let i := x.buf.nextFrame
  (i, (x.modBuf fun b => { b with nextFrame := i + 1 }).putFrame i f)

/-- The HSR tag of a frame, read at the head (R261): its sequence number and where it stands. -/
def hsrTag (r : ParseResult) (bs : List Byte) : Option RedTag :=
  (hdrOff 18 r.list).map fun o => { hsr := true, seq := half bs (o + 2), off := some o }

/-- One decided frame admitted: its references counted, its copies tested and stored where the engine stores. -/
def admitFrame (part : Part) (e : EngId) (i : Nat) (f : Frame) (copies : List Copy) (mirror : Option Copy) (need : Need) (again : Bool)
    (x : Engine) : Admitted :=
  if !x.stores then { eng := noteDecided f (copies ++ mirror.toList) (x.putFrame i f), stored := [], kept := false, cut := false }
  else
    let n := copies.length + mirror.toList.length
    admitCopies part e i copies mirror f.multi need again (x.putFrame i { f with refs := f.refs + n })

/-- The lookup of a frame whose pass a truncation or conflict action ends: a truncated frame is classified first (R141). -/
def goneLookup (x : Engine) (f : Frame) (pass1 : Bool) (meta_ : Nat) (r : ParseResult) (base act : Nat) : Hit :=
  if r.reason ≠ 0 then lookupRule x f pass1 meta_ r base act else { eng := x, index := 0xFFFF, act := missAction }

/-- A frame whose pass 0 was ended by a truncation or conflict action: discarded, or trapped only (R141, R145). It is not forwarded,
round an HSR ring neither (log 71). -/
def headGone (part : Part) (e : EngId) (p i act reason : Nat) (f : Frame) (a : Arriving) (x0 : Engine) : Engine :=
  let h := goneLookup x0 f false 0 a.parse 0 act
  let f1 : Frame := { f with hit0 := h.index, cls := if actQsel h.act then actClass h.act else f.cls }
  let adm := admitFrame part e i f1 [] none (if act = 2 then .trap else .nothing) false h.eng
  adm.eng.putArriving p { a with
    copies := adm.stored, trap := if act = 2 ∧ adm.kept = true then reason else 0, cut := adm.cut, queue := f1.cls,
    noCopy := if act = 3 then 2 else if adm.kept then 11 else 3,
    flags := recordFlags a.parse f.bytes missAction false false (act == 3) }

/-- A frame that asks for a stamp has no copy and is discarded (R90): by a rule, a meter or for want of a destination, or as Table 9.3
discards it. `tag` is that of its request, `held` says that a trap or host copy is still to come of it. -/
def lostTag (d : Decision) (tag : Option Nat) (held : Bool) : Option Nat :=
  let dropped := match d.fate with
    | .take _ => false
    | .peer => false
    | _ => !held
  if d.copies.isEmpty && dropped then tag else none

/-- The STAMP_TAG that an action asks for. -/
def tagOf (act : List Word) : Option Nat := if actTs act then some (actTag act) else none

/-- A frame classified at its head (R149). A red frame makes no mirror or trap copy (DESIGN CHOICE, log 161). -/
def headDecided (part : Part) (e : EngId) (p i : Nat) (f : Frame) (a : Arriving) (x : Engine) : Engine :=
  let bs := f.bytes
  let h := lookupRule x f false 0 a.parse 0 a.act
  let cls := if actQsel h.act then actClass h.act else f.cls
  let (red, yellow, x1) := meterAct h.act bs.length h.eng
  let f1 : Frame := { f with hit0 := h.index, cls := cls, dropElig := yellow }
  let (mirror, x2) := if red then (none, x1) else mirrorCopy part i f1 h.act x1
  let inner := a.parse.hdrs.any fun (_, k, _) => decide (11 ≤ k) && decide (k ≤ 16)
  let trap := if actTrap h.act && !red then actReason h.act else 0
  if actRecirc h.act && !red then
    let adm := admitFrame part e i f1 [] mirror .round false x2
    let y := if adm.kept then toRound i adm.eng else adm.eng
    y.putArriving p { a with
      copies := adm.stored, trap := if adm.kept then trap else 0, recirc := if adm.kept || !x.stores then some h.act else none,
      noCopy := if adm.kept || !x.stores then 0 else 3, flags := recordFlags a.parse bs h.act true false false }
  else
    let d := decideFrame part x2 i f1 h.act red inner (bytesAt bs 0 6) a.vid
    let host := match d.fate with
      | .toHost r => r
      | _ => 0
    let several := decide (d.copies.length > 1)
    let f2 : Frame := { f1 with multi := d.dest.multi || several, several := several }
    let adm := admitFrame part e i f2 d.copies mirror (if trap ≠ 0 ∨ host ≠ 0 then .trap else .nothing) false d.eng
    let held := adm.kept && (trap != 0 || host != 0)
    (stampLost e f2 (lostTag d (tagOf h.act) held) adm.eng).putArriving p { a with
      copies := adm.stored, trap := if adm.kept then trap else 0, fate := d.fate, host := if adm.kept then host else 0,
      tag := if d.copies.isEmpty && held then tagOf h.act else none, cut := adm.cut, noCopy := d.noCopy, flags := recordFlags a.parse bs h.act false d.launch (red || actKind h.act == 4),
      queue := d.queue, dest := d.dest.ports }

/-- The flits of an arriving frame that something waits for sent into the Crossing by its port's channel; where staging overflows the
frame is found bad with cause 7: what has not started is discarded, a claim too (R178, R181, R195). -/
def crossArriving (part : Part) (e : EngId) (p i : Nat) (x : Engine) : Engine :=
  match findAt p x.buf.arriving, x.frame i with
  | some a, some f =>
    if !x.stores || (f.refs ≤ 1 && a.trap == 0 && a.host == 0 && a.recirc.isNone) then x
    else
      let (y, full) := crossFrame part (channelOf p) i (f.bytes.length + 4) x
      if full then markBad part e 7 i y else y
  | _, _ => x

/-- The head of a frame that is passed on. -/
def headData (part : Part) (e : EngId) (p interp : Nat) (bs : List Byte) (jabber : Bool) (sample : Option Nat) (x0 : Engine) :
    Engine :=
  let stamp := x0.portStamp p 0 interp
  let q := x0.portParse p
  let r := parsePass0 x0 q bs
  let x := countWalk p r (countDegraded stamp x0)
  let f : Frame := { newFrame p stamp x bs r sample with red := hsrTag r bs }
  let (act, reason) := parseAction q r false
  let (dup, x1) := match f.red with
    | some t => dupCheck p (bytesAt bs 6 6) t.seq x
    | none => (none, x)
  let (i, x2) := x1.addFrame f
  let a : Arriving :=
    { arrivalOf .data stamp bs jabber with
      frame := i, parse := r, act := act, vid := portVid (x.portRule p) (outerTag r.list bs) }
  crossArriving part e p i
    (match dup with
    | some k => (x2.bumpPort p k).putArriving p { a with act := 3, noCopy := 10 }
    | none => if act ≥ 2 then headGone part e p i act reason f a x2 else headDecided part e p i f a x2)

/-- The head of a frame on a port. A port whose last frame is still arriving, H0, and a port that holds no queues receive
none. -/
def frameHead (e : EngId) (p interp : Nat) (bytes : List Byte) (s : State) : State :=
  let x := s.eng e
  if p = 32 || !x.holdsQueues s.part p || (findAt p x.buf.arriving).isSome then s
  else
    let jabber := decide (bytes.length + 4 ≥ 16384)
    let bs := if jabber then bytes.take 16380 else bytes
    match rxKind x p bs with
    | .data =>
      let (draw, s1) := takeFree s
      let (sample, y) := sampleChoice draw p (x.portStamp p 0 interp) (s1.eng e)
      s1.setEng e (headData s.part e p interp bs jabber sample y)
    | k =>
      let stamp := x.portStamp p 0 interp
      s.setEng e ((countDegraded stamp x).putArriving p (arrivalOf k stamp bs jabber))

/-- FRAME_HEAD_RECEIVED. `bytes` are those of the frame before its FCS; `hands` the Crossing's handshakes since the last event. -/
def execFrameHeadReceived (e : EngId) (port : Fin 34) (after : Nat) (bytes : List Byte) (hands : List (Fin 10 × Nat)) (s : State) :
    Host.Outcome State Fault Refusal :=
  onEngine e s fun s0 =>
    let s := passAfter after s0
    frameHead e port.val (interpOf after) bytes (s.modEng e (handshakes s.part hands))

/-! ## The tail (R115, R145-R147, R171, R195-R197, R261, R268) -/

/-- A stored copy offered to its queue at the frame's tail: by its launch time first (R254), by the port-down rules while the port is
down (R115, R219); one that was down at the decision and is up now by the head test. -/
def offerCopy (part : Part) (e : EngId) (c : Copy) (x : Engine) : Engine :=
  match x.frame c.frame with
  | none => x
  | some f =>
    let n := f.cells.length
    let a := x.egAcct c.port c.queue
    match x.launchRefusal c with
    | some k => discardCopy part e 6 c (x.bumpPort c.port k)
    | none =>
      if !(x.port c.port).up then
        let occ := if c.charged then a.occ else a.occ + n
        if (x.port c.port).holding && decide (occ ≤ x.minEg c.port c.queue) then
          (if c.charged then queueCopy part e c x else queueCopy part e { c with charged := true } (chargeEg c f x))
        else discardCopy part e 4 c (x.bumpPort c.port 7)
      else if c.charged then queueCopy part e c x
      else
        match judgeCopy part x { f with pass1 := true } f.multi false c with
        | .refused p k cause => discardCopy part e cause c (x.bumpPort p k)
        | .residue => intoResidue part e c x
        | _ => queueCopy part e { c with charged := true } (chargeEg c f x)

/-- A copy of a frame has left as the tail finds it bad: its head is on the wire. -/
def Engine.begunCopy (x : Engine) (i : Nat) : Bool :=
  (List.range 34).any fun p =>
    let mine (t : Option Tx) : Bool := match t with
      | some t => t.begun && (t.copy.map fun c => c.frame) == some i
      | none => false
    mine (x.eg p).tx || mine (x.eg p).cut

/-- A frame's first failed check counted, once for each frame (R144, R148). -/
def countConflict (p : Nat) (r : ParseResult) (stomped : Bool) (x : Engine) : Engine :=
  match r.conflict with
  | none => x
  | some (c, tail) =>
    let y := x.bumpPort p 17
    { y with parser := { y.parser with lastConf := confWord p c tail stomped } }

/-- A trap copy of a frame made at its tail; a frame of which no cell was kept is stored for it, by its head test. The reason of the copy
that was made, 0 for none. -/
def lateTrap (part : Part) (e : EngId) (i reason : Nat) (x : Engine) : Nat × Engine :=
  match x.frame i with
  | none => (0, x)
  | some f =>
    if f.cells.isEmpty then
      let adm := admitCopies part e i [] none false .trap false x
      if adm.kept then offerTraps part i [reason] adm.eng else (0, adm.eng)
    else offerTraps part i [reason] x

/-- A frame that has no copy, or only a trap copy, completes its sample record (R409). -/
def sampleEnds (e : EngId) (i : Nat) (trap cause : Nat) (x : Engine) : Engine :=
  match x.frame i with
  | none => x
  | some f => if cause = 0 then x else if trap ≠ 0 then sampleNoCopy e f 3 0 x else sampleNoCopy e f 2 cause x

/-- The discard cause of an arriving frame that has no copy, as it ends badly; 0 where copies were made of it (R409). -/
def Arriving.badEnd (a : Arriving) : Nat :=
  if a.recirc.isSome || a.trap != 0 || a.host != 0 then (if a.recirc.isSome || a.noCopy != 0 then 8 else 0) else a.noCopy

/-- The end of a frame found bad at its tail (R195, R147): `cause` as Table 6.8. With CONF_ACT 1 a frame of which nothing
was cut through goes to the host. A frame whose FCS is good has been decided, and counts in its digest window (R336). -/
def tailBad (part : Part) (e : EngId) (p cause : Nat) (a : Arriving) (x0 : Engine) : Engine :=
  let i := a.frame
  let mark := cause == 3
  let x := match x0.frame i with
    | some f => x0.putFrame i { f with pflags := parseFlags a.parse a.bytes true }
    | none => x0
  let conf := match x.frame i with
    | some f => f.pp.confAct
    | none => 0
  let x1 := match x.frame i with
    | some f => if cause = 1 ∨ cause = 2 then x else digestFrame part f a.flags a.queue 0 a.dest x
    | none => x
  let y := discardAll part e 8 31 a.copies (foundBad part e i cause x1)
  let trapIt := mark && conf == 1 && !a.cut && x.stores && (a.act != 2 || a.trap != 0)
  let (took, z) := if trapIt then lateTrap part e i 2 y else (0, y)
  let lost := match z.frame i with
    | some f => stampLost e f (if took = 0 then a.tag else none) z
    | none => z
  let w := sampleEnds e i took a.badEnd lost
  unref part i (if mark && x.begunCopy i then w.bumpPort p 18 else w)

/-- What Table 9.3 does with a PTP frame at its tail, as it said when the frame was decided (R264, R268, R284). -/
def tailPtp (fate : PtpFate) (p mpd : Nat) (f : Frame) (x : Engine) : Engine :=
  match hdrOff 17 f.hdrs with
  | none => x
  | some o =>
    match fate with
    | .ordinary => x
    | .take d => ptpTaken d p f.bytes o f.stamp f.phi (mpd : Int) x
    | .peer => peerMessage 0 p f.bytes o f.stamp x
    | .held => x
    | .toHost _ => x.bumpPort p 60
    | .disabled => x.bumpPort p 61
    | .bad => x.bumpPort p 62

/-- A good frame whose tail has come enters the Roundabout behind those that wait (R167, R169): a lossy one that finds no
room is discarded, and counts in its digest window as pass 0 has decided it (R336). -/
def enterRound (part : Part) (e : EngId) (i : Nat) (entry : RoundEntry) (x0 : Engine) : Engine :=
  let x := toRound i x0
  match x.frame i with
  | none => x
  | some f =>
    if f.round = 0 ∧ f.cells ≠ [] ∧ x.lossless f.ingress f.acls = false then
      unref part i (stampLost e f entry.tag (sampleNoCopy e f 2 11 (digestFrame part f entry.flags f.cls entry.learn 0 (x.bump 46))))
    else x.modBuf fun b => { b with round := b.round ++ [entry] }

/-- A good frame at its tail. `mpd` is a free value, the filtered mean path delay should the frame complete a sample. A copy cut through
goes on when LIMIT_ACT discards its frame, and the trap copies are not made (DESIGN CHOICE, log 161). -/
def tailGood (part : Part) (e : EngId) (p mpd : Nat) (a : Arriving) (x0 : Engine) : Engine :=
  let i := a.frame
  match x0.frame i with
  | none => x0
  | some f0 =>
    let bs := a.bytes
    let prp := if f0.pp.prp then (prpTrailer bs (hdrOff 18 a.parse.list).isSome).2 else none
    let f : Frame := { f0 with pflags := parseFlags a.parse bs true, red := match prp with
      | some n => some { hsr := false, seq := n, off := none }
      | none => f0.red }
    let (dup, x2) := match prp with
      | some n => dupCheck p (bytesAt bs 6 6) n x0
      | none => (none, x0)
    let x3 := x2.putFrame i f
    let gone (k cause : Nat) (y : Engine) : Engine :=
      let z := a.copies.foldl (fun w c => discardCopy part e cause c w) (if k = 0 then y else y.bumpPort p k)
      let y := match z.frame i with
        | some f => stampLost e f a.tag z
        | none => z
      unref part i (sampleEnds e i 0 (if a.noCopy = 0 ∧ a.recirc = none then 0 else cause) y)
    match dup with
    | some k => gone k 10 (digestFrame part f a.flags a.queue 0 a.dest x3)
    | none =>
      if a.noCopy = 10 then unref part i (sampleEnds e i 0 10 (digestFrame part f a.flags a.queue 0 a.dest x3))
      else
        let l : Learned := if a.act ≥ 2 then { code := 0, discard := false, eng := x3 } else learnSource e p a.vid (bytesAt bs 6 6) x3
        let x4 := if a.recirc.isSome && !l.discard then l.eng else digestFrame part f a.flags a.queue l.code a.dest l.eng
        if l.discard then gone 0 11 x4
        else
          let x5 := tailPtp a.fate p mpd f x4
          let x6 := a.copies.foldl (fun y c => offerCopy part e c y) x5
          let (took, x7a) := offerTraps part i [a.trap, a.host] x6
          let x7 := stampLost e f (if took = 0 then a.tag else none) x7a
          match a.recirc with
          | some act =>
            enterRound part e i { frame := i, action := some act, vid := a.vid, learn := l.code, flags := a.flags, tag := none } x7
          | none => unref part i (sampleEnds e i took a.noCopy x7)

/-- The stomp cause that a tail gives its frame (R195-R197, Table 6.8), the lowest that applies; 0 for a good one. A
conflict of a frame on its way to the Roundabout, or one trapped at the head, takes its action alike; `conf` is CONF_ACT and
`found` the cause with which the frame was found bad before its tail. -/
def tailCause (fcs : FcsResult) (up : Bool) (conf found : Nat) (a : Arriving) : Nat :=
  let mark := a.parse.tail.isSome && (conf == 1 || conf == 2) && a.act != 3
  if fcs == .bad then 1
  else if fcs == .stomped then 2
  else if mark then 3
  else if !up then 6
  else found

/-- A trailer whose LSDU size is wrong is counted at the tail of every frame of a port with PRP = 1 (R146). -/
def countTrailer (p : Nat) (prp : Bool) (a : Arriving) (x : Engine) : Engine :=
  let t := prpTrailer a.bytes (hdrOff 18 a.parse.list).isSome
  if prp && !a.jabber && t.1 && t.2.isNone then x.bumpPort p 20 else x

/-- The tail of a frame on a port, with its FCS as received. A MAC control frame is honoured only on a port that is up (R109). -/
def frameTail (e : EngId) (p : Nat) (word : Word) (s0 : State) : State :=
  match findAt p (s0.eng e).buf.arriving with
  | none => s0
  | some a =>
    let fcs : FcsResult := if a.jabber then .bad else fcsOf a.bytes word
    let out (x : Engine) : Engine := x.modBuf fun b => { b with arriving := eraseAt p b.arriving }
    let ok := fcs == .good
    let judged := a.kind != .counted && a.kind != .runt
    let s := s0.modEng e fun x =>
      let y := rxCount p (a.bytes.length + 4) (out x)
      let z := if a.jabber && a.kind != .counted then y.bump 94 else y
      if judged then countFcs p fcs z else z
    match a.kind with
    | .counted => s
    | .runt => s.modEng e fun x => x.bump 93
    | .control =>
      if ok && ((s.eng e).port p).up then s.modEng e (macControl p (half a.bytes 14) (BitVec.ofNat 8 (half a.bytes 16))
        (fun i => if half a.bytes 14 = 0x0001 then half a.bytes 16 else half a.bytes (18 + 2 * i)))
      else s
    | .ahnud => ahnudFrame e p a.bytes ok s
    | .data =>
      let x := s.eng e
      let (q, found) := match x.frame a.frame with
        | some f => (f.pp, f.bad)
        | none => (portParseReset, 0)
      let cause := tailCause fcs (x.port p).up q.confAct found a
      let y := countTrailer p q.prp a (countConflict p a.parse (cause == 3 && x.begunCopy a.frame) x)
      if cause = 0 then
        let (mpd, s1) := takeFree s
        s1.setEng e (tailGood s.part e p mpd a y)
      else s.setEng e (tailBad s.part e p cause a y)

/-- FRAME_TAIL_RECEIVED. -/
def execFrameTailReceived (e : EngId) (port : Fin 34) (fcs : Word) (s : State) : Host.Outcome State Fault Refusal :=
  onEngine e s (frameTail e port.val fcs)

end Sys2Proof.Machine
end

