-- ==== Sys2Proof/Machine/Roundabout.lean ====
section
/-! DEFINITION. The Roundabout, bank flips and their drain, the send rings and the sweep of the forwarding table (chapters 5
and 15). -/

namespace Sys2Proof.Machine

/-! ## The Roundabout (R137, R166-R169) -/

/-- A frame of the Roundabout discarded before a copy of it is made: it counts in its digest window as pass 0 has decided it (R336). -/
def dropRound (part : Part) (e : EngId) (k : RoundEntry) (cause : Nat) (x : Engine) : Engine :=
  match x.frame k.frame with
  | none => x
  | some f => unref part k.frame (stampLost e f k.tag (sampleEnds e k.frame 0 cause (digestFrame part f k.flags f.cls k.learn 0 x)))

/-- The places of a frame that leaves the Roundabout given back; it keeps its admission and the charges it has (R167, R218). -/
def leaveRound (i : Nat) (x : Engine) : Engine :=
  match x.frame i with
  | none => x
  | some f =>
    if f.round = 0 then x
    else
      let y := x.modIn f.ingress f.acls fun a => { a with minUse := a.minUse + f.pMin, hrUse := a.hrUse + f.pHr }
      let z := f.pEg.foldl (fun w k => w.modEg (k.1 / 10) (k.1 % 10) fun a => { a with minUse := a.minUse + k.2 }) y
      z.putFrame i { f with round := 0 }

/-- Held frames that find room in the Roundabout now, in their order (R169). -/
def admitRound (x : Engine) : Engine := x.buf.round.foldl (fun y k => toRound k.frame y) x

/-- What a pass through the Roundabout works on: the bytes, the offset and node it starts from, the bytes of a trailer. -/
structure Resume where
  bytes : List Byte
  base : Nat
  node : Nat
deriving DecidableEq, Repr

/-- Where a Roundabout action resumes a frame; none when RESUME_HDR names no recorded header (R167). -/
def resumeAt (act : List Word) (f : Frame) : Option Resume :=
  match f.hdrs[actHdr act]? with
  | none => none
  | some (_, o) =>
    if actStrip act then some { bytes := f.bytes.drop o, base := 0, node := actNode act }
    else some { bytes := f.bytes, base := o, node := actNode act }

/-- The destination address and VID of a pass through the Roundabout (R151, R170): those of the first Ethernet header it
records, of pass 0 where it records none. -/
def passKey (f : Frame) (pass1 : Bool) (vid0 : Nat) : Nat × Nat :=
  match f.hdrs.find? fun h => h.1 == 1 || h.1 == 11 with
  | some (_, o) => (bytesAt f.bytes o 6, portVid f.pr (passTag pass1 f.hdrs f.bytes))
  | none => if pass1 then (bytesAt f.orig 0 6, vid0) else (bytesAt f.bytes 0 6, portVid f.pr none)

/-- The copies of a frame that leaves the Roundabout put on their way: those stored to their queues, the trap copies to H0, the flits
into the Crossing by its channel. The reason of a trap copy that was taken, 0 for none. -/
def roundOut (part : Part) (e : EngId) (i : Nat) (traps : List Nat) (adm : Admitted) : Nat × Engine :=
  let x := adm.stored.foldl (fun y c => offerCopy part e c y) adm.eng
  let (took, y) := if adm.kept then offerTraps part i traps x else (0, x)
  (took, crossWhole part e roundChannel i y)

/-- A frame whose pass in the Roundabout was ended by a truncation or conflict action (R141, R145): it is not forwarded. -/
def roundGone (part : Part) (e : EngId) (k : RoundEntry) (meta_ base act reason : Nat) (r : ParseResult) (f : Frame) (x0 : Engine) :
    Engine :=
  let i := k.frame
  let pass1 := k.action.isSome
  let h := goneLookup x0 f pass1 meta_ r base act
  let cls := if actQsel h.act then actClass h.act else f.cls
  let f1 : Frame := { f with hit0 := if pass1 then f.hit0 else h.index, hit1 := if pass1 then h.index else 0xFFFF, cls := cls }
  let x := if pass1 && r.reason != 0 then h.eng.bump 42 else h.eng
  let flags := if act = 3 then k.flags ||| 1#8 else k.flags
  let adm := admitFrame part e i f1 [] none (if act = 2 then .trap else .nothing) true (digestFrame part f1 flags f1.cls k.learn 0 x)
  let (took, y) := roundOut part e i [if act = 2 then reason else 0] adm
  let z := stampLost e f1 (if took = 0 then k.tag else none) y
  unref part i (sampleEnds e i took (if act = 3 then 2 else if adm.kept then 11 else 3) z)

/-- The decision that a frame takes in the Roundabout (R149, R166-R168, R268): pass 1, or pass 0 of a host frame. A second
recirculation is ignored, one of a host frame's pass 0 too, which ROUND_REPEAT counts alike (DESIGN CHOICE, log 161). `mpd` is a
free value, the filtered mean path delay should the frame complete a sample. -/
def roundDecide (part : Part) (e : EngId) (k : RoundEntry) (mpd gone meta_ base : Nat) (r : ParseResult) (f : Frame) (x0 : Engine) :
    Engine :=
  let i := k.frame
  let pass1 := k.action.isSome
  let h := lookupRule (if pass1 then x0.bump 42 else x0) f pass1 meta_ r base gone
  let act := h.act
  let x1 := if actRecirc act then h.eng.bump 44 else h.eng
  let cls := if actQsel act then actClass act else portClass f.pr (passTag pass1 f.hdrs f.bytes)
  let (red, yellow, x2) := meterAct act f.bytes.length x1
  let f1 : Frame := { f with hit0 := if pass1 then f.hit0 else h.index, hit1 := if pass1 then h.index else 0xFFFF, cls := cls,
                             dropElig := f.dropElig || yellow }
  let (mirror, x3) := if red then (none, x2) else mirrorCopy part i f1 act x2
  let inner := r.hdrs.any fun (_, t, _) => decide (11 ≤ t) && decide (t ≤ 16)
  let (da, vid) := passKey f pass1 k.vid
  let d := decideFrame part x3 i f1 act red inner da vid
  let host := match d.fate with
    | .toHost n => n
    | _ => 0
  let trap := if actTrap act && !red then actReason act else 0
  let tag := match tagOf act with
    | some t => some t
    | none => if pass1 then none else k.tag
  let copies := d.copies.map fun c => if c.ring then c else { c with tag := tag }
  let several := decide (copies.length > 1)
  let f2 : Frame := { f1 with multi := d.dest.multi || several, several := several }
  let flags := k.flags ||| recordFlags r f.bytes act false d.launch (red || actKind act == 4)
  let y := digestFrame part f2 flags d.queue k.learn d.dest.ports d.eng
  let adm := admitFrame part e i f2 copies mirror (if trap ≠ 0 ∨ host ≠ 0 then .trap else .nothing) true y
  let (took, w) := roundOut part e i [trap, host] adm
  let z := stampLost e f2 (lostTag d tag (took != 0)) w
  unref part i (sampleEnds e i took d.noCopy (tailPtp d.fate f2.ingress mpd f2 z))

/-- A parsed frame of the Roundabout (R141, R145, R148): its truncation or conflict action, then its decision. What the counters have
counted on an earlier pass is not counted again. -/
def roundParsed (part : Part) (e : EngId) (k : RoundEntry) (mpd meta_ base : Nat) (r : ParseResult) (f0 : Frame) (x0 : Engine) : Engine :=
  let p := f0.ingress
  let x1 := if r.deadEnd then x0.bump 37 else x0
  let x1a := if r.csumBad && !f0.pflags.getLsbD 3 then x1.bumpPort p 19 else x1
  let x2 := if r.reason ≠ 0 ∧ f0.pflags.getLsbD 7 = false then
      let y := x1a.bumpPort p 16
      { y with parser := { y.parser with lastTrunc := truncWord p r } }
    else x1a
  let x3 := if f0.pflags.getLsbD 6 then x2 else countConflict p r false x2
  let f : Frame := { f0 with hdrs := r.list, pflags := f0.pflags ||| parseFlags r f0.bytes true, pass1 := k.action.isSome,
                             truncPtp := r.reason != 0 && nodeKind (nodeOf x0.parser.graph r.endNode) == 17 }
  let (act, reason) := parseAction f.pp r true
  let x := x3.putFrame k.frame f
  if act ≥ 2 then roundGone part e k meta_ base act reason r f x else roundDecide part e k mpd act meta_ base r f x

/-- A redundancy tag after the front of its frame has been stripped. -/
def RedTag.stripped (n : Nat) (t : RedTag) : RedTag := { t with off := t.off.bind fun o => if n ≤ o then some (o - n) else none }

/-- The redundancy trailer or tag that a host frame brings with it, found on its pass 0 (R146, R261). -/
def hostTag (q : PortParse) (r : ParseResult) (bs : List Byte) : Option RedTag :=
  match (if q.prp then (prpTrailer bs (hdrOff 18 r.list).isSome).2 else none) with
  | some n => some { hsr := false, seq := n, off := none }
  | none => hsrTag r bs

/-- A frame taken out of the Roundabout (R137, R167): pass 1 from where its action resumes, or pass 0 of a host frame from
the start node of H0. -/
def roundOne (part : Part) (e : EngId) (mpd : Nat) (k : RoundEntry) (x0 : Engine) : Engine :=
  let x := leaveRound k.frame x0
  match x.frame k.frame with
  | none => x
  | some f =>
    if f.bad ≠ 0 then dropRound part e k 8 x
    else
      match k.action with
      | some act =>
        match resumeAt act f with
        | none => dropRound part e k 11 (x.bump 45)
        | some u =>
          let trailer := match f.red with
            | some t => if t.hsr then 0 else 6
            | none => 0
          let r := parseFrom x.parser f.pp u.node u.base trailer u.bytes
          let g : Frame := { f with bytes := u.bytes, red := f.red.map (RedTag.stripped (f.bytes.length - u.bytes.length)) }
          roundParsed part e k mpd (actMeta act) u.base r g x
      | none =>
        let r := parsePass0 x f.pp f.bytes
        let t := prpTrailer f.bytes (hdrOff 18 r.list).isSome
        let y := if f.pp.prp && t.1 && t.2.isNone then x.bumpPort f.ingress 20 else x
        roundParsed part e k mpd 0 0 r { f with red := hostTag f.pp r f.bytes } y

/-- The first frame of the Roundabout that stands in it and has crossed to it, and the others. Frames of one ingress port make their
passes in the order in which they came (R180): `behind` lists the ports whose first frame is not ready. -/
def takeRound (x : Engine) (behind : List Nat) : List RoundEntry → Option (RoundEntry × List RoundEntry)
  | [] => none
  | k :: rest =>
    match x.frame k.frame with
    | none => some (k, rest)
    | some f =>
      if !behind.contains f.ingress && (f.round != 0 || f.cells.isEmpty) && x.crossed k.frame then some (k, rest)
      else (takeRound x (f.ingress :: behind) rest).map fun (j, l) => (j, k :: l)

/-- ROUNDABOUT_PASS1: the next frame of the Roundabout makes its pass. -/
def execRoundaboutPass1 (e : EngId) (s : State) : Host.Outcome State Fault Refusal :=
  onEngine e s fun s =>
    match takeRound (s.eng e) [] (s.eng e).buf.round with
    | none => s
    | some (k, rest) =>
      let (mpd, s1) := takeFree s
      s1.modEng e fun x => admitRound (roundOne s.part e mpd k (x.modBuf fun b => { b with round := rest }))

/-! ## Bank flips (R163, R164) -/

/-- The flip at FLIP_AT: the epoch advances, the banks change places, the drain begins. -/
def flipBank (x : Engine) : Engine :=
  let r := x.rules
  match r.flip with
  | none => x
  | some t =>
    { x with rules := { r with epoch := (r.epoch + 1) % 65536, liveB := !r.liveB, flip := none, lastFlip := some t,
                               drain := some { epoch := r.epoch, bankB := r.liveB, flipAt := t } } }

/-- FLIP_AT. -/
def execFlipAt (e : EngId) (s : State) : Host.Outcome State Fault Refusal :=
  onEngine e s fun s =>
    match (s.eng e).rules.flip with
    | none => s
    | some t => (passTo e t s).modEng e flipBank

/-- The arriving frames on their way to the Roundabout that carry an epoch. -/
def Engine.arrivingOf (x : Engine) (epoch : Nat) : List (Nat × Arriving) :=
  x.buf.arriving.filter fun a => a.2.recirc.isSome && (match x.frame a.2.frame with
    | some f => f.epoch == epoch
    | none => false)

/-- The Roundabout's entries that carry an epoch. -/
def Engine.roundOf (x : Engine) (epoch : Nat) : List RoundEntry :=
  x.buf.round.filter fun k => match x.frame k.frame with
    | some f => f.epoch == epoch
    | none => false

/-- The frames of the old epoch discarded at the bound of a drain (R164). -/
def drainDiscard (part : Part) (e : EngId) (epoch : Nat) (x : Engine) : Engine :=
  let old := x.roundOf epoch
  let coming := x.arrivingOf epoch
  let y := x.modBuf fun b =>
    { b with round := b.round.filter fun k => !old.contains k,
             arriving := b.arriving.map fun a => if coming.contains a then (a.1, { a.2 with recirc := none, noCopy := 11 }) else a }
  admitRound (old.foldl (fun z k => dropRound part e k 11 z) (y.bumpN 41 (old.length + coming.length)))

/-- The end of a drain: at once when no frame of the old epoch is left in the Roundabout or on its way there, else at the
bound of 4 us; the waiting RULE.FLIP_BANK replies (Table 5.11). -/
def endDrain (e : EngId) (s : State) : State :=
  match (s.eng e).rules.drain with
  | none => s
  | some d =>
    let n := ((s.eng e).roundOf d.epoch).length + ((s.eng e).arrivingOf d.epoch).length
    let bound := d.flipAt + 4 * us16
    let s1 := if n = 0 then s else (passTo e bound s).modEng e (drainDiscard s.part e d.epoch)
    let s2 := s1.modEng e (modRules fun r => { r with drain := none })
    complete e .drainEnd .ok (fun x _ =>
      [pack [(x.rules.epoch, 16), (d.epoch, 0)]] ++ stampWords { t := d.flipAt, qual := 0 }
        ++ [pack [(satN 65535 n, 16), (satN 4000 ((x.time.now16 - d.flipAt) / ns16), 0)]]) s2

/-- DRAIN_END. -/
def rowDrainEnd (e : EngId) (s : State) : Host.Outcome State Fault Refusal := onEngine e s (endDrain e)

/-! ## Send rings (R434, R435) -/

/-- A send ring may be fetched (R222, R376, R434): no account of H0 is in XOFF (DEDUCED, log 138). -/
def Engine.sendReady (x : Engine) (j : Nat) : Bool :=
  let q := x.ring (5 + j)
  let held := (List.range 8).any fun c => (x.inAcct 32 c).xoff
  x.core.role == 1 && q.enabled && !q.stopped && !q.posted.isEmpty && !held

/-- A header of Table 15.10 with a frame of `n` bytes that is not sent. -/
def sendBad (part : Part) (x : Engine) (h : List Word) (n : Nat) : Bool :=
  let w := par h 0
  let classify := flag w 31
  let launch := flag w 29
  let p := field w 21 16
  flag w 27 || field w 23 22 != 0 || (classify && (launch || p != 0)) || (!launch && flag w 28)
    || ((classify || launch) && field w 26 24 != 0) || par h 1 != 0 || par h 2 != 0 || par h 3 != 0
    || (launch && (field (par h 7) 15 0 != 0 || decide ((par h 6).toNat > 999999999)))
    || (!launch && (par h 4 != 0 || par h 5 != 0 || par h 6 != 0 || par h 7 != 0))
    || decide (n < 14) || decide (n > 9212)
    || (!classify && (p == 32 || !portFitted part p || x.unused p))

/-- A host frame sent without classification: one copy for the port and queue its header names. -/
def sendDirect (part : Part) (e : EngId) (h : List Word) (f0 : Frame) (x : Engine) : Engine :=
  let w := par h 0
  let launch := flag w 29
  let f : Frame := { f0 with cls := field w 26 24 }
  let (i, y) := x.addFrame f
  let c : Copy :=
    { frame := i, port := field w 21 16, queue := if launch then 8 + field w 28 28 else field w 26 24, cls := field w 26 24,
      launch := if launch then some (parTime h 4) else none, tag := if flag w 30 then some (field w 15 0) else none, rewrites := [],
      mirror := false, trap := 0, staged := false, held := false, enq := x.time.now16, charged := false, ring := false }
  let adm := admitFrame part e i f [c] none .nothing false y
  unref part i (crossWhole part e (channelOf 32) i (adm.stored.foldl (fun z c => offerCopy part e c z) adm.eng))

/-- A host frame that makes its pass 0 in the Roundabout (R166): admitted by H0's DEFAULT_CLASS, learned and put in. -/
def sendClassified (part : Part) (e : EngId) (h : List Word) (f : Frame) (x : Engine) : Engine :=
  let (i, y) := x.addFrame f
  let adm := admitFrame part e i f [] none .round false y
  let tag := if flag (par h 0) 30 then some (field (par h 0) 15 0) else none
  let refused (cause : Nat) (z : Engine) : Engine := unref part i (stampLost e f tag (sampleEnds e i 0 cause z))
  if !adm.kept then refused 3 adm.eng
  else
    let z := crossWhole part e (channelOf 32) i adm.eng
    let r := parsePass0 z f.pp f.bytes
    let vid := portVid f.pr (outerTag r.list f.bytes)
    let l : Learned := if (parseAction f.pp r true).1 ≥ 2 then { code := 0, discard := false, eng := z }
      else learnSource e 32 vid (bytesAt f.bytes 6 6) z
    if l.discard then refused 11 l.eng
    else enterRound part e i { frame := i, action := none, vid := vid, learn := l.code, flags := 0, tag := tag } l.eng

/-- A send buffer's bytes taken as header and frame (R434, R435). -/
def sendBuffer (part : Part) (e : EngId) (j draw : Nat) (bs : List Byte) (x : Engine) : Engine :=
  let h := bytesWords (bs.take 32)
  let frame := bs.drop 32
  let w := par h 0
  if sendBad part x h frame.length then
    let y := x.modRing (5 + j) fun q => { q with drops := satN (2 ^ 32 - 1) (q.drops + 1) }
    if flag w 30 then stampRecord e (field w 21 16) (field w 15 0) stampZero x.now 0 y else y
  else
    let data := pad60 frame
    let y := rxCount 32 (data.length + 4) x
    let classify := flag w 31
    if !(y.port 32).up then
      (if flag w 30 then
        stampRecord e (if classify then Config.noEgressPort (field w 15 0) % 64 else field w 21 16) (field w 15 0) stampZero y.now 0 y
      else y)
    else
      let stamp := y.portStamp 32 0 0
      let (sample, z) := if classify then sampleChoice draw 32 stamp y else (none, y)
      let f : Frame := { newFrame 32 stamp z data parseNone sample with
        cls := (z.portRule 32).defClass }
      if classify then sendClassified part e h f (countDegraded stamp z) else sendDirect part e h f (countDegraded stamp z)

/-- One buffer fetched from a send ring. -/
def sendFetch (part : Part) (e : EngId) (j draw : Nat) (x : Engine) : Engine :=
  match (x.ring (5 + j)).posted with
  | [] => x
  | d :: rest =>
    if descBad d then stopRing (5 + j) 2 x
    else if !d.pcieOk then stopRing (5 + j) 3 x
    else
      let y := (x.modRing (5 + j) fun q => { q with posted := rest, engineIdx := q.engineIdx + 1 }).irq 5
      if descLen d = 0 then y.bump (101 + j)
      else
        let bs := (List.range (descLen d)).map fun i => d.data.getD i 0
        sendBuffer part e j draw bs y

/-- HOST_SEND_FETCH: send ring 1 goes before send ring 0. A ring that stops takes H0 down (R111). -/
def execHostSendFetch (e : EngId) (ring : Fin 2) (s : State) : Host.Outcome State Fault Refusal :=
  onEngine e s fun s =>
    let x := s.eng e
    if !x.sendReady ring.val || (ring.val == 0 && x.sendReady 1) then s
    else
      let (draw, s1) := takeFree s
      judgeH0 e (s1.modEng e (sendFetch s.part e ring.val draw))

/-! ## The sweep of the forwarding table (R173) -/

/-- FDB_AGE_SWEEP: every dynamic entry visited once. An entry that names no port is aged without a learn record (DEDUCED, log 161). -/
def execFdbAgeSweep (e : EngId) (s : State) : Host.Outcome State Fault Refusal :=
  onEngine e s fun s => s.modEng e fun x =>
    if x.rules.ageS = 0 ∨ x.core.role ≠ 1 then x
    else
      let old := agedOut x.rules.fdb
      old.foldl (fun y k =>
        let z := (y.bump 48).noteChange k.1 none
        if k.2.kind = 0 then notifyLearn e k.2.dest 3 k.1 z else z) (x.modFdb afterSweep)

end Sys2Proof.Machine
end

