-- ==== Sys2Proof/Machine/Faults.lean ====
section
/-! DEFINITION. The events of the fault collector, the FAULT commands and the fault registers (chapter "Fault collection
and reaction", R352-R381). The collector itself is in Collector.lean. -/

namespace Sys2Proof.Machine

/-! ## Events -/

/-- FAULT_MESSAGE_ARRIVAL (R354, R361-R363, R368). -/
def rowFaultMessageArrival (e : EngId) (s : State) : Host.Outcome State Fault Refusal :=
  onEngine e s fun s => arriveFault e s

/-- F2_WINDOW_END (R357, R358). -/
def rowF2WindowEnd (e : EngId) (source kind : Byte) (inj : Bool) (s : State) : Host.Outcome State Fault Refusal :=
  onEngine e s fun s => endF2 e source kind inj s

/-- F3_WINDOW_END (R357, R360). -/
def rowF3WindowEnd (e : EngId) (inj : Bool) (s : State) : Host.Outcome State Fault Refusal :=
  onEngine e s fun s => endF3 e inj s

/-- BLOCK_RESET_READY (R366-R368). -/
def execBlockResetReady (e : EngId) (reset : BlockReset) (s : State) : Host.Outcome State Fault Refusal :=
  onEngine e s fun s => s.modEng e (endReset reset)

/-- ADDRESS of the fault that a block reset answers (Table 12.2). -/
def resetAddress (b : BlockReset) (x : Engine) : Word :=
  match b with
  | .monitorRestart => word (exclMask x.ports.monitors.toList)
  | .staging ch => word ch.val
  | .txPll g => word g.val
  | .syno k => word k.val
  | _ => 0

/-- A reset that is not ready within its bound (R366): its window ends and its fault is raised again; the attempts of SYN-T
are no further reports (R316). -/
def overdueReset (part : Part) (b : BlockReset) (x : Engine) : Engine :=
  match x.fault.resets.find? fun r => r.reset = b && !r.late with
  | none => x
  | some r =>
    let l := x.fault.resets.map fun q => if q.reset = b then { q with late := true } else q
    let y : Engine := { x with fault := { x.fault with resets := l } }
    match b with
    | .synt => closeReset r y
    | _ => (closeReset r y).raise r.source.toNat r.kind.toNat ((faultClass part r.source.toNat r.kind.toNat).getD 2) (resetAddress b x)

/-- BLOCK_RESET_OVERDUE (R366). -/
def rowBlockResetOverdue (e : EngId) (reset : BlockReset) (s : State) : Host.Outcome State Fault Refusal :=
  onEngine e s fun s => s.modEng e (overdueReset s.part reset)

/-- COLLECTOR_CHECK (R375). -/
def rowCollectorCheck (e : EngId) (s : State) : Host.Outcome State Fault Refusal :=
  onEngine e s fun s => checkerFault e 1 s

/-- RING_WATCHDOG (R375). -/
def rowRingWatchdog (e : EngId) (s : State) : Host.Outcome State Fault Refusal :=
  onEngine e s fun s => checkerFault e 2 s

/-- FW_WATCHDOG (R356): firmware that runs has missed its service. -/
def execFwWatchdog (e : EngId) (s : State) : Host.Outcome State Fault Refusal :=
  onEngine e s fun s => s.modEng e fun x => if x.running && x.fw.running.isSome then x.raise 0x0B 0x01 3 0 else x

/-- A fault latch cleared by the write (R361); once the checker has raised a fault it holds what it held, and only its bits clear (R375). -/
def clearLatch (frozen : Bool) (l : FaultLatch) : FaultLatch := if frozen then { l with valid := false, ovf := false } else latchReset

/-- FIRST_VALID written 1 (R361). -/
def execFirstValidClear (e : EngId) (s : State) : Host.Outcome State Fault Refusal :=
  onEngine e s fun s => s.modEng e fun x =>
    { x with fault := { x.fault with first := clearLatch x.fault.frozen x.fault.first } }

/-- INJ_VALID written 1 (R361). -/
def execInjValidClear (e : EngId) (s : State) : Host.Outcome State Fault Refusal :=
  onEngine e s fun s => s.modEng e fun x =>
    { x with fault := { x.fault with firstInj := clearLatch x.fault.frozen x.fault.firstInj } }

/-! ## Registers (Table 12.10) -/

/-- The windows of a class that run. -/
def windowsOf (cls : BitVec 3) (f : FaultState) : Nat := (f.windows.filter fun w => w.msg.cls = cls).length

/-- FAULT_STATUS, 0x0C00. -/
def faultStatus (f : FaultState) : Word :=
  pack [(bit f.first.valid, 31), (bit f.first.ovf, 30), (bit f.firstInj.valid, 29), (bit f.firstInj.ovf, 28),
    (bit (windowsOf 2 f != 0), 27), (bit (windowsOf 3 f != 0), 26), (bit (!f.resets.isEmpty), 25), (bit f.f4Latched, 24),
    (bit f.collectorOk, 23), (bit (!f.ecc.isEmpty), 22), (satN 255 (windowsOf 2 f), 8)]

/-- The six words of a latch: the message and its time. -/
def latchRegs (l : FaultLatch) : List Word := msgWords l.msg ++ stampWords l.time

/-- The fault registers. -/
def faultReg (f : FaultState) (off : Nat) : Option Word :=
  let at_ (base : Nat) (ws : List Word) : Option Word := ws[(off - base) / 4]?
  if off = 0x0C00 then some (faultStatus f)
  else if 0x0C04 ≤ off ∧ off ≤ 0x0C18 then at_ 0x0C04 (latchRegs f.first)
  else if 0x0C20 ≤ off ∧ off ≤ 0x0C34 then at_ 0x0C20 (latchRegs f.firstInj)
  else if 0x0C40 ≤ off ∧ off ≤ 0x0C50 then at_ 0x0C40 (f.counts.toList.map word)
  else if off = 0x0C54 then some (word f.countConseq)
  else if off = 0x0C58 then some (word f.escalations)
  else if 0x0C60 ≤ off ∧ off ≤ 0x0C70 then at_ 0x0C60 (f.injCounts.toList.map word)
  else if 0x0C80 ≤ off ∧ off ≤ 0x0C94 then at_ 0x0C80 (msgWords f.f4Msg ++ stampWords f.f4Time)
  else if off = 0x0CA0 then some (pack [(f.tableBad.toNat, 28), (f.tableBadIndex.toNat, 0)])
  else none

/-! ## Settings and readings -/

/-- FAULT.SET_WINDOWS (Table 12.9): for windows that start after it. -/
def faultSetWindowsSpec : CmdSpec :=
  configSpec 0x0C01 (lenIs 2) (fun _ => true)
    (fun _ ps _ => rangeIf (decide ((par ps 0).toNat > 10000) || decide ((par ps 1).toNat > 1000))) neverJudge
    (fun c ps s => onSelf c (fun x =>
      { x with fault := { x.fault with winF2Us := (par ps 0).toNat, winF3Us := (par ps 1).toNat } }) s)

/-- FAULT.SET_EVENTS (Table 12.9). -/
def faultSetEventsSpec : CmdSpec :=
  configSpec 0x0C02 (lenIs 1) (fun ps => zeroBits ps 0 31 5) neverRange neverJudge
    (fun c ps s => onSelf c (fun x => { x with fault := { x.fault with enables := (par ps 0).setWidth 5 } }) s)

/-- FAULT.GET_FIRST (Table 12.9), answered in maintenance mode and in Cul-de-sac (R377, R427). -/
def faultGetFirstSpec : CmdSpec :=
  { readSpec 0x0C03 true (lenIs 1) (fun ps => zeroBits ps 0 31 1) neverAbsent neverRange neverJudge
      (fun c ps s =>
        let f := (s.eng c.eng).fault
        let l := if flag (par ps 0) 0 then f.firstInj else f.first
        .now s (latchRegs l ++ [pack [(bit l.valid, 31), (bit l.ovf, 30)]])) with inMaint := true }

/-- FAULT.ACT_NOW (Table 12.9): the window of one kind of message ends at once. A source of a unit the part lacks is taken as any
other (DESIGN CHOICE, log 122). -/
def faultActNowSpec : CmdSpec :=
  let runs (ps : List Word) (x : Engine) : Option FaultWindow := x.fault.windows.find? fun w =>
    w.msg.source.toNat == field (par ps 0) 15 8 && w.msg.kind.toNat == field (par ps 0) 7 0 && w.msg.inj == flag (par ps 0) 31
  { configSpec 0x0C04 (lenIs 1) (fun ps => zeroBits ps 0 30 16)
      (fun _ ps s => rangeIf (faultClass s.part (field (par ps 0) 15 8) (field (par ps 0) 7 0)).isNone) neverJudge
      (fun c ps s =>
        match runs ps (s.eng c.eng) with
        | none => .now s []
        | some w =>
          let s1 := s.modEng c.eng (closeWindow w.msg)
          .now (if w.msg.cls = 2 then reactF2 c.eng w.msg s1 else reactF3 c.eng w.msg s1) []) with
    mirrored := false,
    judge := fun c ps s => statusIf (runs ps (s.eng c.eng)).isNone .state }

/-! ## Injection (R370-R374) -/

/-- The ENGINE field of an injection command. -/
def injEngine (ps : List Word) : Nat := field (par ps 0) 29 28

/-- The engine that an injection command acts on: 0 names the active, which executes it. -/
def injTarget (c : Ctx) (ps : List Word) : EngId := if injEngine ps = 1 then .a else if injEngine ps = 2 then .b else c.eng

/-- ERR_STATE of an injection for an engine that cannot be reached (R380). -/
def injState (c : Ctx) (ps : List Word) (s : State) : Option (Status × List Word) :=
  let e := injTarget c ps
  let x := s.eng e
  let r := x.core.role
  statusIf (decide (e ≠ c.eng) && (!s.fof.up || !x.running || (s.sup.view e).fenced || r == 0 || r == 3 || r == 4)) .state

/-- The checks that the three injection commands share: sent to the active, not mirrored, ENGINE 2 absent on a
single-engine part. -/
def injSpec (op : BitVec 16) (n : Nat) (rsvd : List Word → Bool) (absent : Part → List Word → Bool)
    (range : Ctx → List Word → State → Option (List Word)) (judge : Ctx → List Word → State → Option (Status × List Word))
    (apply : Ctx → List Word → State → Applied) : CmdSpec :=
  { configSpec op (lenIs n) rsvd range neverJudge apply with
    mirrored := false,
    absent := fun p ps => (!twinPart p && injEngine ps == 2) || absent p ps,
    judge := fun c ps s => firstOf [injState c ps s, judge c ps s] }

/-- The message that FAULT.INJECT places into the ring (R370). -/
def injMessage (ps : List Word) : FaultMsg :=
  { source := BitVec.ofNat 8 (field (par ps 0) 15 8), kind := BitVec.ofNat 8 (field (par ps 0) 7 0),
    cls := BitVec.ofNat 3 (field (par ps 1) 2 0), inj := true, conseq := false, injMixed := false, part := false,
    address := par ps 2, seq := 0, act := flag (par ps 0) 31, tag := 0 }

/-- The CONFIRM that FAULT.INJECT asks for. -/
def confirmWanted (ps : List Word) : Nat := if field (par ps 1) 2 0 = 4 ∧ flag (par ps 0) 31 then 0xF4F4 else 0

/-- FAULT.INJECT (R370). A source of a unit the part lacks is taken as any other (DESIGN CHOICE, log 122). -/
def faultInjectSpec : CmdSpec :=
  injSpec 0x0C05 3 (fun ps => zeroBits ps 0 30 30 && zeroBits ps 0 27 16 && zeroBits ps 1 15 3) neverAbsent
    (fun _ ps s => rangeIf (injEngine ps == 3 || decide (field (par ps 1) 2 0 > 4) || field (par ps 1) 31 16 != confirmWanted ps
      || (faultClass s.part (field (par ps 0) 15 8) (field (par ps 0) 7 0)).isNone))
    neverJudge
    (fun c ps s =>
      let e := injTarget c ps
      let s1 := s.modEng e (report (injMessage ps))
      .now s1 [word (faultSeq (s1.eng e).fault (injMessage ps).source)])

/-- The entry that FAULT.INJECT_ECC arms. -/
def eccEntryOf (ps : List Word) : EccEntry :=
  { dram := flag (par ps 0) 24, word := (par ps 1).toNat,
    pattern := (par ps 2).setWidth 16 ++ par ps 3 ++ par ps 4, tag := (par ps 0).setWidth 8, act := flag (par ps 0) 30, written := false }

/-- FAULT.INJECT_ECC (R372). -/
def faultInjectEccSpec : CmdSpec :=
  injSpec 0x0C06 5 (fun ps => zeroBits ps 0 31 31 && zeroBits ps 0 27 25 && zeroBits ps 0 23 8 && zeroBits ps 2 31 16)
    (fun p ps => !underpassPart p && flag (par ps 0) 24)
    (fun _ ps _ =>
      let k := eccEntryOf ps
      let w := patternWeight k.pattern
      rangeIf (injEngine ps == 3 || k.tag == 0 || decide (k.word ≥ (if k.dram then 134217728 else arcadeWords)) || w == 0 || decide (w > 3)))
    (fun c ps s =>
      let l := (s.eng (injTarget c ps)).fault.ecc
      statusIf (decide (l.length ≥ 16) || l.any fun k => eccNumber k == eccNumber (eccEntryOf ps)) .busy)
    (fun c ps s => .now (s.modEng (injTarget c ps) fun x => { x with fault := { x.fault with ecc := x.fault.ecc ++ [eccEntryOf ps] } }) [])

/-- FAULT.CLEAR_INJ (R374): every armed entry dropped, every written word cleaned. -/
def faultClearInjSpec : CmdSpec :=
  injSpec 0x0C07 1 (fun ps => zeroBits ps 0 31 30 && zeroBits ps 0 27 0) neverAbsent (fun _ ps _ => rangeIf (injEngine ps == 3)) neverJudge
    (fun c ps s =>
      let e := injTarget c ps
      .now (s.modEng e fun x => { x with fault := { x.fault with ecc := [] } }) [word (s.eng e).fault.ecc.length])

/-! ## The supervisor's FAULT commands -/

/-- The checks of a command that only the supervisor executes (R421). -/
def supSpec (op : BitVec 16) (needs : Bool) (n : Nat) (rsvd : List Word → Bool) (absent : Part → List Word → Bool)
    (range : Ctx → List Word → State → Option (List Word)) (judge : Ctx → List Word → State → Option (Status × List Word))
    (apply : Ctx → List Word → State → Applied) : CmdSpec :=
  { opcode := op, onActive := false, onStandby := false, onSup := true, mirrored := false, inMaint := false, inCul := true,
    needsSup := needs, lenOk := lenIs n, rsvdOk := rsvd, absent := absent, rangeErr := range, judge := judge, apply := apply }

/-- The engine that bits 1:0 of word 0 name: 1 = A, 2 = B. -/
def engineField (ps : List Word) : EngId := if field (par ps 0) 1 0 = 2 then .b else .a

/-- ENGINE names neither engine. -/
def engineFieldBad (ps : List Word) : Bool := field (par ps 0) 1 0 == 0 || field (par ps 0) 1 0 == 3

/-- FAULT.RELEASE (Tables 12.8 and 12.9): an engine in Cul-de-sac without an F4 starts again from step 5 of Table 16.1. -/
def faultReleaseSpec : CmdSpec :=
  supSpec 0x0C08 true 1 (fun ps => zeroBits ps 0 31 2) (fun p ps => !twinPart p && field (par ps 0) 1 0 == 2)
    (fun _ ps _ => rangeIf (engineFieldBad ps))
    (fun _ ps s => statusIf ((s.eng (engineField ps)).core.role != 4 || s.power.f4Held) .state)
    (fun _ ps s => .now (leaveReset (engineField ps) (resetEngine (engineField ps) s)) [])

/-- The eight words of a log entry (Table 12.9); ENGINE and ROLE stand as in a ring record's header (PRESUMED, log 30). -/
def logWords (q : LogEntry) : List Word :=
  msgWords q.msg ++ [pack [(engCode q.engine, 30), (q.role, 24)]] ++ stampWords q.time ++ [0]

/-- FAULT.READ_LOG (R364): entries from FIRST on, counted from the oldest held. -/
def faultReadLogSpec : CmdSpec :=
  supSpec 0x0C09 false 1 (fun ps => zeroBits ps 0 31 14 && zeroBits ps 0 7 7) neverAbsent
    (fun _ ps _ => rangeIf (decide (field (par ps 0) 6 0 > 16))) neverJudge
    (fun _ ps s => .now s (((s.sup.log.drop (field (par ps 0) 13 8)).take (field (par ps 0) 6 0)).flatMap logWords))

/-! ## The rows -/

end Sys2Proof.Machine
end

