-- ==== Sys2Proof/Machine/Stats.lean ====
section
/-! DEFINITION. Counters read, cleared and chained, snapshots, the way of sample records to their ring, and the STATS
commands (chapter "Counters, snapshots and frame sampling", R397-R413). The counting itself is in Ops.lean, the sampler's
choice in Ingress.lean. -/

namespace Sys2Proof.Machine

/-! ## Reading and clearing (R401, R403, R406) -/

/-- A range of counters that holds an absent one: on the RHF3240-S the port blocks of P16 to P31 (R401). -/
def absentRange (p : Part) (first count : Nat) : Bool :=
  !underpassPart p && decide (count > 0) && decide (first < 3872) && decide (first + count > 2080)

/-- The values of a range of counters. -/
def counterValues (first count : Nat) (c : StatsState) : List Word := (List.range count).map fun i => word (counter c (first + i))

/-- The counters of admission, storage, transmission and flow-control sending (R400; DEDUCED, log 158): by their offset in a port block,
and those of the engine block. -/
def sendingCounter (i : Nat) : Bool :=
  if i < 288 then (decide (53 ≤ i) && decide (i ≤ 61)) || (decide (64 ≤ i) && decide (i ≤ 67))
  else
    let k := (i - 288) % 112
    let within (a b : Nat) : Bool := decide (a ≤ k) && decide (k ≤ b)
    within 2 3 || k == 5 || within 7 11 || k == 15 || within 28 33 || within 36 42 || within 46 55 || k == 63 || within 68 101

/-- The counters as an engine shows them: on the standby those of admission, storage, transmission and flow-control sending read 0
(R400). -/
def Engine.shownStats (x : Engine) : StatsState :=
  if x.core.role = 2 then { x.stats with counters := x.stats.counters.filter fun q => !sendingCounter q.1 } else x.stats

/-- A range of counters set to 0; no WRAP is set (R406). -/
def clearCounters (first count : Nat) (c : StatsState) : StatsState :=
  { c with counters := c.counters.filter fun q => !(decide (first ≤ q.1) && decide (q.1 < first + count)) }

/-- Pairs chained or unchained; both values of each stay (R402). -/
def setChain (on : Bool) (first count : Nat) (c : StatsState) : StatsState :=
  (List.range count).foldl (fun d i => { d with chained := put (chainedByDefault (first + i)) (first + i) on d.chained }) c

/-! ## Snapshots (R404, R405) -/

/-- The buffers left after a record of `n` bytes has been written into the first ones (R432). -/
def takeBuffers : Nat → List Desc → Option (List Desc)
  | 0, ds => some ds
  | _ + 1, [] => none
  | n + 1, d :: ds => takeBuffers (n + 1 - descLen d) ds

/-- The posted buffers hold `k` records of `n` words each. -/
def holdsRecords (n : Nat) : Nat → List Desc → Bool
  | 0, _ => true
  | k + 1, ds =>
    match takeBuffers (4 * n) ds with
    | none => false
    | some rest => holdsRecords n k rest

/-- The words of one snapshot record, header included (Table 14.3). -/
def snapRecordWords : Nat := 550

/-- The snapshot ring has room for all eight records. -/
def snapRoom (q : Ring) : Bool := q.enabled && !q.stopped && q.waiting.isEmpty && holdsRecords snapRecordWords 8 q.posted

/-- The counters latched now, and WRAP started anew. -/
def latchSnapshot (onDemand : Bool) (seq : Nat) (x : Engine) : Engine :=
  let t := x.stats
  let q : Snapshot :=
    { seq := seq, onDemand := onDemand, role := x.core.role, switches := x.twin.switches, stepCount := x.time.stepCount,
      time := x.now, cycles := x.time.tbCycles, values := x.shownStats.counters, chained := t.chained, wraps := t.wraps }
  { x with stats := { t with snap := some q, wraps := [] } }

/-- A snapshot taken (R404, R405): SNAP_SEQ advances and WRAP starts anew; it is dropped while an earlier one is still being written,
or without room for its eight records. -/
def takeSnapshot (onDemand : Bool) (x0 : Engine) : Engine :=
  let x := x0.countXoffs
  let seq := (x.stats.snapSeq + 1) % 2 ^ 32
  let y : Engine := { x with stats := { x.stats with snapSeq := seq } }
  if y.stats.snap.isSome || !snapRoom (y.ring 3) then
    let z : Engine := y.bump 90
    { z with stats := { z.stats with wraps := [] } }
  else latchSnapshot onDemand seq y

/-- 32 flags as a word, the first in bit 31. -/
def flagWord (f : Nat → Bool) : Word := pack ((List.range 32).map fun i => (bit (f i), 31 - i))

/-- A pair is chained in a snapshot. -/
def Snapshot.chain (q : Snapshot) (pair : Nat) : Bool := look (chainedByDefault pair) pair q.chained

/-- A counter of a snapshot has wrapped; the even counter of a chained pair never shows it. -/
def Snapshot.wrap (q : Snapshot) (i : Nat) : Bool := look false i q.wraps && !(q.chain (i / 2) && i % 2 == 0)

/-- ABSENT_FIRST and ABSENT_COUNT of a segment (Table 14.3). -/
def segmentAbsent (p : Part) (seg : Nat) : Nat × Nat :=
  if underpassPart p then (0, 0)
  else match seg with
    | 4 => (32, 480)
    | 5 => (0, 512)
    | 6 => (0, 512)
    | 7 => (0, 288)
    | _ => (0, 0)

/-- The body of one segment's record (Table 14.3). -/
def segmentBody (p : Part) (e : EngId) (q : Snapshot) (seg : Nat) : List Word :=
  let ab := segmentAbsent p seg
  [word q.seq, pack [(seg, 29), (engCode e, 28), (q.role, 24), (bit q.onDemand, 23), (q.switches % 256, 8), (q.stepCount % 256, 0)]]
    ++ stampWords q.time ++ words64 q.cycles ++ [pack [(ab.1, 16), (ab.2, 0)], 0]
    ++ (List.range 8).map (fun w => flagWord fun i => q.chain (256 * seg + 32 * w + i))
    ++ (List.range 16).map (fun w => flagWord fun i => q.wrap (512 * seg + 32 * w + i))
    ++ (List.range 512).map (fun j => word (look 0 (512 * seg + j) q.values))

/-- The latched snapshot written as eight records; it is dropped whole when its ring can no longer take it (R405, R449). -/
def writeSnapshot (p : Part) (e : EngId) (x : Engine) : Engine :=
  match x.stats.snap with
  | none => x
  | some q =>
    let y : Engine := { x with stats := { x.stats with snap := none } }
    if snapRoom (y.ring 3) then
      let (ok, z) := (List.range 8).foldl (fun r seg =>
        let (ok, w) := if r.1 then takesRecord 3 snapRecordWords r.2 else r
        (ok, if ok then writeRecord e 3 { type := 0x08, body := segmentBody p e q seg } w else w)) (true, y)
      if ok then z else z.bump 90
    else (y.bump 90 : Engine)

/-- The next whole multiple of a period, from a time on. -/
def nextMultiple (t period : Nat) : Nat := (t + period - 1) / period * period

/-- The next instant of a periodic snapshot (R404): one for each instant, and the first after the completion of STATS.SET_SNAPSHOT
(R412). -/
def Engine.snapInstant (x : Engine) : Nat :=
  let period := x.stats.snapPeriodMs * 1000 * us16
  let m := nextMultiple x.time.now16 period
  match x.stats.snapAt with
  | some t => if m ≤ t then (t / period + 1) * period else m
  | none => m

/-- A periodic snapshot taken at its instant. -/
def periodicSnapshot (at_ : Nat) (x : Engine) : Engine :=
  takeSnapshot false { x with stats := { x.stats with snapAt := some at_ } }

/-- SNAPSHOT_INSTANT (R404): nothing with SNAP_PERIOD_MS 0. -/
def execSnapshotInstant (e : EngId) (s : State) : Host.Outcome State Fault Refusal :=
  onEngine e s fun s =>
    let x := s.eng e
    if x.stats.snapPeriodMs = 0 then s else (passTo e x.snapInstant s).modEng e (periodicSnapshot x.snapInstant)

/-- SNAPSHOT_WRITTEN (R405). -/
def execSnapshotWritten (e : EngId) (s : State) : Host.Outcome State Fault Refusal :=
  onEngine e s fun s => s.modEng e (writeSnapshot s.part e)

/-! ## Sample records (R410) -/

/-- The sample ring asked for room for one record of 20 words. -/
def sampleRoom (x : Engine) : Bool × Engine := if (x.ring 4).waiting.isEmpty then takesRecord 4 20 x else (false, x)

/-- One record in a stage is handed to the sample ring while it has room. -/
def putSamples (e : EngId) : List (List Word) → Engine → List (List Word) × Engine
  | [], x => ([], x)
  | b :: rest, x =>
    let (ok, y) := sampleRoom x
    if ok then putSamples e rest (writeRecord e 4 { type := 0x09, body := b } y) else (b :: rest, y)

/-- The largest number of records in the overflow region; a part without buffer DRAM has none (R44, R410). -/
def overflowSize (p : Part) : Nat := if underpassPart p then 4194304 else 0

/-- Sample records move on, in the order of their completion: the overflow region into the ring, the on-die ring after it,
and what the ring has no room for into the overflow region. -/
def moveSamples (p : Part) (e : EngId) (x : Engine) : Engine :=
  let (held, y) := putSamples e x.stats.overflow x
  let (die, z) := if held.isEmpty then putSamples e y.stats.onDie y else (y.stats.onDie, y)
  let free := overflowSize p - held.length
  { z with stats := { z.stats with overflow := held ++ die.take free, onDie := die.drop free } }

/-- SAMPLE_RECORD_MOVE (R410). -/
def execSampleRecordMove (e : EngId) (s : State) : Host.Outcome State Fault Refusal :=
  onEngine e s fun s => s.modEng e (moveSamples s.part e)

/-! ## Registers (Table 14.7) -/

/-- The counter and sampler registers. -/
def statsReg (x : Engine) (off : Nat) : Option Word :=
  let t := x.stats
  if off = 0x0E00 then some (pack [(bit (t.snapPeriodMs != 0), 31), (bit t.snap.isSome, 30), (t.snapPeriodMs, 0)])
  else if off = 0x0E04 then some (word t.snapSeq)
  else if off = 0x0E08 then
    some (pack [(bit (t.smpEnable && x.core.role == 1), 31), (bit t.smpMode, 30), (bit (!t.overflow.isEmpty), 29), (t.onDie.length, 0)])
  else if off = 0x0E0C then some (word t.overflow.length)
  else if off = 0x0E10 then some (word t.smpSeq)
  else none

/-! ## Commands (Table 14.6) -/

/-- FIRST of STATS.READ and STATS.CLEAR. -/
def statsFirst (ps : List Word) : Nat := field (par ps 0) 27 16

/-- STATS.READ, answered in Cul-de-sac and during a switchover (R400, R403, R412). -/
def statsReadSpec : CmdSpec :=
  let n (ps : List Word) := field (par ps 0) 8 0
  readSpec 0x0E01 true (lenIs 1) (fun ps => zeroBits ps 0 31 28 && zeroBits ps 0 15 9) (fun p ps => absentRange p (statsFirst ps) (n ps))
    (fun _ ps _ => rangeIf (decide (n ps > 256) || decide (statsFirst ps + n ps > 4096))) neverJudge
    (fun c ps s =>
      let x := (s.eng c.eng).countXoffs
      .now (s.setEng c.eng x) (stampWords x.now ++ counterValues (statsFirst ps) (n ps) x.shownStats))

/-- Counters cleared on the edge that is now (R406): a snapshot whose instant falls on it takes the values from before, and what comes
after finds a later edge. -/
def clearOn (e : EngId) (first count : Nat) (s : State) : State :=
  let x := (s.eng e).countXoffs
  let y := if x.stats.snapPeriodMs != 0 && x.snapInstant == x.time.now16 then periodicSnapshot x.snapInstant x else x
  pass 1 (s.setEng e { y with stats := clearCounters first count y.stats })

/-- STATS.CLEAR (R406). -/
def statsClearSpec : CmdSpec :=
  let n (ps : List Word) := field (par ps 0) 12 0
  readSpec 0x0E02 false (lenIs 1) (fun ps => zeroBits ps 0 31 28 && zeroBits ps 0 15 13) (fun p ps => absentRange p (statsFirst ps) (n ps))
    (fun _ ps _ => rangeIf (decide (n ps > 4096) || decide (statsFirst ps + n ps > 4096))) (fun _ _ s => busySwitching s)
    (fun c ps s =>
      .now (clearOn c.eng (statsFirst ps) (n ps) s) (stampWords (s.eng c.eng).now))

/-- STATS.SET_CHAIN (R402); pairs of an absent port are accepted (DESIGN CHOICE, log 121). -/
def statsSetChainSpec : CmdSpec :=
  let n (ps : List Word) := field (par ps 0) 11 0
  let first (ps : List Word) := field (par ps 0) 26 16
  configSpec 0x0E03 (lenIs 1) (fun ps => zeroBits ps 0 30 27 && zeroBits ps 0 15 12)
    (fun _ ps _ => rangeIf (decide (n ps > 2048) || decide (first ps + n ps > 2048))) neverJudge
    (fun c ps s => onSelf c (fun x => { x with stats := setChain (flag (par ps 0) 31) (first ps) (n ps) x.stats }) s)

/-- STATS.SET_SNAPSHOT (R404). -/
def statsSetSnapshotSpec : CmdSpec :=
  configSpec 0x0E04 (lenIs 1) (fun _ => true) (fun _ ps _ => rangeIf (decide ((par ps 0).toNat > 60000))) neverJudge
    (fun c ps s => onSelf c (fun x =>
      { x with stats := { x.stats with snapPeriodMs := (par ps 0).toNat, snapAt := some x.time.now16 } }) s)

/-- STATS.SNAP_NOW (R404): one more snapshot, at the first D1 edge after acceptance. -/
def statsSnapNowSpec : CmdSpec :=
  readSpec 0x0E05 false (lenIs 0) (fun _ => true) neverAbsent neverRange
    (fun c _ s => firstOf [statusIf (s.eng c.eng).stats.snap.isSome .busy, busySwitching s])
    (fun c _ s =>
      let s1 := (pass 1 s).modEng c.eng (takeSnapshot true)
      let x := s1.eng c.eng
      .now s1 (stampWords x.now ++ [word x.stats.snapSeq]))

/-- STATS.SET_SAMPLER applied, to frames stamped after its completion (R411); `draw` gives the first skip count of MODE 1 (a free value, log 6). -/
def setSampler (ps : List Word) (draw : Nat) (x : Engine) : Engine :=
  let mode := flag (par ps 0) 30
  let mean := (par ps 1).toNat
  let t := x.stats
  let old : OldSampler :=
    { until16 := x.time.now16, enable := t.smpEnable, mode := t.smpMode, log2N := t.smpLog2N, meanN := t.smpMeanN, lfsr := t.smpLfsr,
      mask := t.smpMask, count := t.smpCount }
  { x with stats := { t with
      smpOld := t.smpOld.filter (fun o => decide (o.until16 ≠ x.time.now16)) ++ [old],
      smpEnable := flag (par ps 0) 31, smpMode := mode, smpLog2N := field (par ps 0) 4 0, smpMeanN := mean, smpLfsr := par ps 2,
      smpMask := (par ps 4).setWidth 2 ++ par ps 3, smpCount := if mode then 1 + draw % (2 * mean - 1) else 0 } }

/-- STATS.SET_SAMPLER (R407, Table 14.6). -/
def statsSetSamplerSpec : CmdSpec :=
  let mode (ps : List Word) := flag (par ps 0) 30
  { configSpec 0x0E06 (lenIs 5)
      (fun ps => zeroBits ps 0 29 5 && zeroBits ps 4 31 2
        && (if mode ps then zeroBits ps 0 4 0 else zeroBits ps 1 31 0 && zeroBits ps 2 31 0))
      (fun _ ps _ => rangeIf (if mode ps then decide ((par ps 1).toNat < 1) || decide ((par ps 1).toNat > 16777216) || par ps 2 == 0
        else decide (field (par ps 0) 4 0 > 24)))
      neverJudge
      (fun c ps s =>
        let (draw, s1) := takeFree s
        onSelf c (setSampler ps draw) s1) with
    absent := fun p ps => !underpassPart p && field (par ps 3) 31 16 != 0 }

/-! ## The rows -/

end Sys2Proof.Machine
end

