-- ==== Sys2Proof/Machine/Firmware.lean ====
section
/-! DEFINITION. Firmware slots, write sessions, fuses and restarts: the FW commands (chapter "Start-up, firmware and
compatibility", R457-R470). Verification and booting are in Startup.lean. -/

namespace Sys2Proof.Machine

/-! ## Units and slots -/

/-- The units that use the flash of a unit (R457). -/
def flashUnits (p : Part) (u : UnitId) : List UnitId :=
  match u with
  | .sup => [.sup]
  | .eng _ => if twinPart p then [.eng .a, .eng .b] else [.eng .a]

/-- SLOT of a FW command. -/
def slotOf (ps : List Word) : Nat := field (par ps 0) 0 0

/-- LEVEL of a unit's running firmware; 0xFFFF where none runs. -/
def levelOf (f : FwUnit) : Nat := if f.running.isNone then 0xFFFF else f.level.toNat

/-- The two units that a unit's firmware is judged against (Table 16.6): an engine against the supervisor and its peer, the
supervisor against both engines. -/
def againstFw (u : UnitId) (s : State) : FwUnit × FwUnit :=
  match u with
  | .eng e => (s.sup.fw, if twinPart s.part then (s.eng (other e)).fw else fwUnitReset)
  | .sup => (s.engA.fw, if twinPart s.part then s.engB.fw else fwUnitReset)

/-- A fuse burn runs on the unit (R462). -/
def burning (c : Ctx) (s : State) : Option (Status × List Word) := statusIf (unitFw c.unit s).burn.isSome .busy

/-- The stated checks of a FW command (R462): every unit executes it, in every role and mode. -/
def fwSpec (op : BitVec 16) (inCul : Bool) (len : Ctx → State → List Word → Bool) (rsvd : List Word → Bool)
    (range : Ctx → List Word → State → Option (List Word)) (judge : Ctx → List Word → State → Option (Status × List Word))
    (apply : Ctx → List Word → State → Applied) : CmdSpec :=
  { opcode := op, onActive := true, onStandby := true, onSup := true, mirrored := false, inMaint := true, inCul := inCul, needsSup := false,
    lenOk := len, rsvdOk := rsvd, absent := neverAbsent, rangeErr := range,
    judge := fun c ps s => firstOf [judge c ps s, burning c s], apply := apply }

/-! ## FW.GET_INFO (Table 16.6) -/

/-- Words 7 to 10 of Table 16.6 for a slot; `bits` stand at 15:14 of the first. -/
def slotInfo (q : FwSlot) (bits : Nat) : List Word :=
  let svn := if q.state ≤ 1 then 0 else field (slotWord q 2) 15 8
  [pack [(q.state, 28), (q.reason, 24), (svn, 16), (bits, 14)], slotWord q 3, pack [(field (slotWord q 4) 31 16, 16)], slotWord q 5]

/-- KEY_INDEX of a slot's header. -/
def slotKey (q : FwSlot) : Nat := field (slotWord q 2) 1 0

/-- The reply of FW.GET_INFO. -/
def fwInfo (u : UnitId) (s : State) : List Word :=
  let f := unitFw u s
  let (o1, o2) := againstFw u s
  let slot (o : Option Nat) : Nat := o.getD 3
  let run (w : Word) : Word := if f.running.isNone then 0 else w
  [pack [(unitCode u, 30), (slot f.running, 28), (bit f.trialRun, 27), (bit f.fallback, 26), (f.maintCause, 20), (f.primary, 18),
         (slot f.trial, 16), (f.svnFuse, 8), (f.revoked.toNat, 4)],
   run f.fwVersion, run (pack [(f.level.toNat, 16)]), run (pack [(f.levelMin.toNat, 16), (f.levelMax.toNat, 0)]),
   pack [(levelOf o1, 16), (levelOf o2, 0)],
   pack [(bit (compatible f o1), 31), (bit (compatible f o2), 30), (bit f.session.isSome, 29), ((f.session.map (·.slot)).getD 0, 28)],
   word ((f.session.map (·.next)).getD 0)]
    ++ slotInfo (unitSlot u 0 s) (slotKey (unitSlot u 0 s)) ++ slotInfo (unitSlot u 1 s) (slotKey (unitSlot u 1 s))

/-- FW.GET_INFO. -/
def fwGetInfoSpec : CmdSpec :=
  fwSpec 0x0F01 true (lenIs 0) (fun _ => true) neverRange neverJudge (fun c _ s => .now s (fwInfo c.unit s))

/-! ## FW.WRITE_IMAGE (R463) -/

/-- OFFSET of a write. -/
def imgOffset (ps : List Word) : Nat := (par ps 1).toNat

/-- The session that a unit of this flash holds on a slot: the unit and its session. -/
def sessionOn (u : UnitId) (slot : Nat) (s : State) : Option (UnitId × FwSession) :=
  (flashUnits s.part u).findSome? fun v =>
    match (unitFw v s).session with
    | some q => if q.slot = slot then some (v, q) else none
    | none => none

/-- A session that is the writer's own: its unit executes, and the packet came on the channel that opened it. -/
def ownSession (c : Ctx) (v : UnitId) (q : FwSession) : Bool := v == c.unit && q.unit == c.arrival.via && q.chan == c.arrival.chan

/-- OFFSET 0 may not open a session on a slot (R463). -/
def slotKept (u : UnitId) (slot : Nat) (s : State) : Bool :=
  let us := flashUnits s.part u
  let runs := us.any fun v => (unitFw v s).running == some slot
  let trial := us.any fun v => (unitFw v s).trial == some slot
  let prim := us.any fun v => (unitFw v s).primary == slot
  let st := (unitSlot u slot s).state
  runs || trial || (prim && !(st == 2 || st == 4))

/-- A write of OFFSET 0 that opens a session anew. -/
def opens (c : Ctx) (ps : List Word) (s : State) : Bool :=
  decide (imgOffset ps = 0) && (match sessionOn c.unit (slotOf ps) s with
    | some (_, q) => q.prev != 0
    | none => true)

/-- The range checks of a write: alignment, the slot's size, and the session's place. -/
def writeRange (c : Ctx) (ps : List Word) (s : State) : Option (List Word) :=
  let o := imgOffset ps
  let place : Bool := match sessionOn c.unit (slotOf ps) s with
    | some (v, q) => ownSession c v q && !(o == 0 || o == q.next || o == q.prev)
    | none => o != 0
  rangeIf (decide (o % 4 ≠ 0) || decide (o + 4 * (ps.length - 2) > slotSize c.unit) || place)

/-- The state checks of a write. A unit that holds a session on its other slot is busy (DESIGN CHOICE, log 31). -/
def writeJudge (c : Ctx) (ps : List Word) (s : State) : Option (Status × List Word) :=
  let foreign : Bool := match sessionOn c.unit (slotOf ps) s with
    | some (v, q) => !ownSession c v q
    | none => (unitFw c.unit s).session.isSome
  firstOf [statusIf foreign .busy, statusIf (opens c ps s && slotKept c.unit (slotOf ps) s) .state]

/-- Words programmed into a slot from a word offset on. -/
def programWords : Nat → List Word → List (Nat × Word) → List (Nat × Word)
  | _, [], m => m
  | i, w :: ws, m => programWords (i + 1) ws (put 0xFFFFFFFF#32 i w m)

/-- The words of an image from `i` on, `n` of them; what has not been written reads as all ones. -/
def imageWords (ws : List (Nat × Word)) (i n : Nat) : List Word := (List.range n).map fun k => look 0xFFFFFFFF#32 (i + k) ws

/-- What the checks 5 to 7 of Table 16.4 form from an image's fields: SHA-384 of the body, SHA-384 of PUBKEY, and whether SIGNATURE holds
over SHA-384 of bytes 0 to 223 with PUBKEY (R458, R459; log 8). -/
def sealSlot (q : FwSlot) : FwSlot :=
  let pub := imageWords q.words 20 24
  let len := (slotWord q 6).toNat / 4
  let body := if len ≤ 2097152 then imageWords q.words 80 len else []
  { q with digest := Config.sha384 body, keyHash := Config.sha384 pub,
           signed := Config.ecdsaP384 pub (Config.sha384 (imageWords q.words 0 56)) (imageWords q.words 56 24) }

/-- A slot with data written; an opening write erases it first. -/
def writeSlot (fresh : Bool) (at_ : Nat) (data : List Word) (q : FwSlot) : FwSlot :=
  let ws := programWords at_ data (if fresh then [] else q.words)
  sealSlot { q with state := 1, reason := 0, words := ws }

/-- FW.WRITE_IMAGE. -/
def fwWriteImageSpec : CmdSpec :=
  fwSpec 0x0F02 false (fun _ _ ps => decide (3 ≤ ps.length) && decide (ps.length ≤ 1019)) (fun ps => zeroBits ps 0 31 1) writeRange writeJudge
    (fun c ps s =>
      let o := imgOffset ps
      let next := o + 4 * (ps.length - 2)
      let q : FwSession := { slot := slotOf ps, next := next, prev := o, unit := c.arrival.via, chan := c.arrival.chan }
      let s1 := modSlot c.unit (slotOf ps) (writeSlot (opens c ps s) (o / 4) (ps.drop 2)) s
      .now (modFw c.unit (fun f => { f with session := some q }) s1) [word next])

/-- The session of a unit is abandoned: its slot reads INCOMPLETE (R463). -/
def abandonUnit (u : UnitId) (s : State) : State :=
  match (unitFw u s).session with
  | none => s
  | some q =>
    modFw u (fun f => { f with session := none })
      (modSlot u q.slot (fun k => if k.state = 1 then { k with state := 2 } else k) s)

/-! ## FW.VERIFY_IMAGE and FW.SELECT_SLOT (R464, R465, R468) -/

/-- An image is compatible with the firmware that its unit works beside: the first and the second of Table 16.6. -/
def imageCompat (u : UnitId) (slot : Nat) (s : State) : Bool × Bool :=
  let img := runImage slot false (unitSlot u slot s) (unitFw u s)
  let (o1, o2) := againstFw u s
  (compatible img o1, compatible img o2)

/-- A slot verified: STATE and REASON set, a session on it closed. -/
def verifySlot (u : UnitId) (slot : Nat) (s : State) : State :=
  let f := unitFw u s
  let r := verifyReason u s.part (unitStep u s) f (unitSlot u slot s)
  let s1 := modSlot u slot (fun q => { q with state := if r = 0 then 3 else 4, reason := r }) s
  match f.session with
  | some q => if q.slot = slot then modFw u (fun g => { g with session := none }) s1 else s1
  | none => s1

/-- FW.VERIFY_IMAGE: OK with STATE VERIFIED, ERR_AUTH with STATE REFUSED. -/
def fwVerifyImageSpec : CmdSpec :=
  fwSpec 0x0F03 false (lenIs 1) (fun ps => zeroBits ps 0 31 1) neverRange
    (fun c ps s =>
      let q := unitSlot c.unit (slotOf ps) s
      let foreign : Bool := match sessionOn c.unit (slotOf ps) s with
        | some (v, _) => v != c.unit
        | none => false
      statusIf (q.state == 0 || (q.state == 1 && foreign)) .state)
    (fun c ps s =>
      let s1 := verifySlot c.unit (slotOf ps) s
      let q := unitSlot c.unit (slotOf ps) s1
      let (k1, k2) := imageCompat c.unit (slotOf ps) s1
      { state := s1, body := slotInfo q (2 * bit k1 + bit k2), await := none, status := if q.state = 3 then .ok else .auth })

/-- FALLBACK as Table 16.6 gives it. -/
def fallbackNow (f : FwUnit) : Bool :=
  match f.running with
  | some r => r != f.primary && !f.trialRun
  | none => false

/-- FW.SELECT_SLOT on the boot record. -/
def selectSlot (ps : List Word) (f : FwUnit) : FwUnit :=
  if flag (par ps 0) 29 then { f with trial := some (slotOf ps) }
  else
    let g := { f with primary := slotOf ps, trial := none, trialRun := f.trialRun && f.running != some (slotOf ps) }
    { g with fallback := fallbackNow g }

/-- The fuses to be burned by an advance (R461): the target of SVN_FUSE and the keys to be revoked. -/
def advanceOf (f : FwUnit) : Nat × BitVec 4 :=
  (max f.svnFuse f.runSvn, f.runRevoke &&& ~~~(1#4 <<< f.runKey.toNat))

/-- FW.SELECT_SLOT (R461, R465). -/
def fwSelectSlotSpec : CmdSpec :=
  let adv (ps : List Word) : Bool := flag (par ps 0) 31
  { fwSpec 0x0F04 false (lenIs 1) (fun ps => zeroBits ps 0 28 1) (fun _ ps _ => rangeIf (adv ps && flag (par ps 0) 29)) neverJudge
      (fun c ps s =>
        let s1 := modFw c.unit (selectSlot ps) s
        if adv ps then
          { state := modFw c.unit (fun f => { f with burn := some (advanceOf f) }) s1, body := [], await := some .fuseBurn }
        else .now s1 []) with
    judge := fun c ps s =>
      let f := unitFw c.unit s
      let (k1, k2) := imageCompat c.unit (slotOf ps) s
      firstOf [statusIf ((unitSlot c.unit (slotOf ps) s).state != 3) .state,
               statusIf (adv ps && (f.running != some (slotOf ps) || f.trialRun || f.fallback)) .state,
               burning c s, statusIf (!flag (par ps 0) 30 && !(k1 && k2)) .version] }

/-- The burn of a unit is done (R461): SVN_FUSE and the revoke bits at their new values. -/
def burnDone (u : UnitId) (s : State) : State :=
  match (unitFw u s).burn with
  | none => s
  | some (svn, keys) =>
    let s1 := modFw u (fun f => { f with svnFuse := svn, revoked := f.revoked ||| keys, burn := none }) s
    match u with
    | .eng e => complete e .fuseBurn .ok (fun _ _ => []) s1
    | .sup => completeSup .fuseBurn .ok [] s1

/-! ## FW.RESTART (R466, R467) -/

/-- FW.RESTART: the session is abandoned at once, the restart comes 1 ms after the reply. -/
def fwRestartSpec : CmdSpec :=
  fwSpec 0x0F05 false (lenIs 1) (fun ps => zeroBits ps 0 29 0) neverRange
    (fun c ps s =>
      match c.unit with
      | .sup => none
      | .eng e =>
        let x := s.eng e
        firstOf [statusIf (x.core.role == 1 && hasEligible s) .role,
                 statusIf (x.core.role == 1 && !flag (par ps 0) 31) .state,
                 statusIf (x.core.role == 2 && x.twin.swapPending) .busy])
    (fun c ps s => .now (modFw c.unit (fun f => { f with restart := some (flag (par ps 0) 30) }) (abandonUnit c.unit s)) [])

/-- A restart of the supervisor (R35, R467): it announces it over each sideband and stops; roles and latches hold. What stood
in its channel is lost (R428). -/
def restartSup (s : State) : State :=
  let s1 := abandonUnit .sup s
  let p := s1.sup
  let tell (x : Engine) : Engine := if x.running then { x with core := { x.core with supRestart := true } } else x
  ({ s1 with sup := { p with
      running := false, restarting := true, waiting := [], fw := { runNothing p.fw with session := none, restart := none },
      spi := { spiReset with badFraming := p.spi.badFraming, tagDup := p.spi.tagDup, crcErr := p.spi.crcErr } } } : State).modBoth tell

/-- A commanded restart of an engine (R466): an engine reset, with MAINT into maintenance mode with cause 3; it starts from
step 5 of Table 16.1. -/
def restartEngine (e : EngId) (maint : Bool) (s : State) : State :=
  let s1 := resetEngine e s
  leaveReset e (if maint then s1.modEng e fun x => { x with fw := { x.fw with maintCause := 3 } } else s1)

/-- FW_RESTART_EXECUTE (R466): the restart that a reply announced. -/
def restartUnit (u : UnitId) (s : State) : State :=
  match (unitFw u s).restart, u with
  | none, _ => s
  | some m, .eng e => restartEngine e m s
  | some _, .sup => restartSup s

/-! ## The rows -/

/-- An event inside a unit: refused where the part has no such engine (Table 0.1). -/
def onUnit (u : UnitId) (s : State) (f : State → State) : Host.Outcome State Fault Refusal :=
  match u with
  | .sup => .next (f s)
  | .eng e => if engFitted s.part e then .next (f s) else .refused .noSuchUnit

/-- FW_SESSION_TIMEOUT (R463). -/
def execFwSessionTimeout (u : UnitId) (s : State) : Host.Outcome State Fault Refusal := onUnit u s (abandonUnit u)

/-- FW_RESTART_EXECUTE. -/
def rowFwRestartExecute (u : UnitId) (s : State) : Host.Outcome State Fault Refusal := onUnit u s (restartUnit u)

end Sys2Proof.Machine
end

