-- ==== Sys2Proof/Machine/Twin.lean ====
section
/-! DEFINITION. The twin engines: registers, the conditions of a planned swap, SYNC, the Fofaene link, the state copy, and
the TWIN commands (R325-R351). What needs the table of opcodes, the switchover above all, is in Failover.lean. -/

namespace Sys2Proof.Machine

/-! ## Conditions of a planned swap (R344) -/

/-- Every condition of R344 but pending work holds. -/
def swapReady (s : State) : Bool :=
  match s.active, s.standby with
  | some a, some d =>
    let x := s.eng a
    let y := s.eng d
    eligible s d && y.twin.copy == 2 && y.twin.sync == 2 && x.twin.mismatchRun == 0 && y.twin.mismatchRun == 0
      && !x.twin.selfFaulty && !y.twin.selfFaulty && s.fof.up && s.sup.sound
  | _, _ => false

/-- An engine has pending work of R344. -/
def pendingOn (x : Engine) : Bool :=
  x.time.step.isSome || x.time.slew.isSome || x.rules.flip.isSome || x.rules.drain.isSome
    || x.egress.ports.toList.any (fun g => g.commit.isSome) || x.net.switch.isSome || x.net.cal.isSome
    || !noneOwed 0x0102 x || x.twin.scrubRunning

/-- Pending work of R344 on either engine. -/
def pendingWork (s : State) : Bool := pendingOn s.engA || pendingOn s.engB

/-- The status that acceptance of a swap would give for the conditions of R344, if one fails. -/
def swapRefusal (s : State) : Option Status :=
  if !swapReady s then some .state else if pendingWork s then some .busy else none

/-! ## Registers (Table 11.9) -/

/-- TWIN_STATUS, 0x0B00. -/
def twinStatus (s : State) (e : EngId) : Word :=
  let x := s.eng e
  let t := x.twin
  pack [(if x.core.role = 2 then t.sync else 0, 30), (t.copy, 27), (bit (swapReady s), 26), (bit t.selfFaulty, 25),
        (bit t.peerFenced, 24), (bit t.swapPending, 23), (bit t.scrubRunning, 22), (min t.mismatchRun 3, 20), (x.core.peerRole, 8),
        (t.switches % 256, 0)]

/-- TB_PHASE_ERR, 0x0B0C: 0 on the active and while SYNC is FREE. -/
def phaseWord (x : Engine) : Word := if x.core.role = 2 ∧ x.twin.sync ≠ 0 then wordI (sat32 x.twin.tbPhaseErr) else 0

/-- LAST_SWITCH, 0x0B10. -/
def lastWord (k : LastSwitch) : Word :=
  pack [(k.cause, 28), (k.newOwner, 26), (bit k.stale, 24), (satN 0xFFFFFF k.lost, 0)]

/-- The twin registers of an engine. Single-engine parts have none of them. -/
def twinReg (s : State) (e : EngId) (off : Nat) : Option Word :=
  let x := s.eng e
  let on (w : Word) : Option Word := some (if twinPart s.part then w else 0)
  match off with
  | 0x0B00 => on (twinStatus s e)
  | 0x0B04 => on (word x.host.cfgGen)
  | 0x0B08 => on (word x.twin.cfgGenSeen)
  | 0x0B0C => on (phaseWord x)
  | 0x0B10 => on (lastWord x.twin.last)
  | 0x0B14 => on (word x.twin.digestWindow)
  | _ => none

/-! ## SYNC (R333, Table 11.4) -/

/-- The standby stops following: SYNC reads FREE, TB_UNSYNCED when it had been SYNCED. -/
def freeSync (x : Engine) : Engine :=
  let y := { x with twin := { x.twin with sync := 0, tbPhaseErr := 0, setDue := false } }
  if x.twin.sync = 2 then y.raise 0x0C 0x01 1 0 else y

/-- SYNC of the standby judged by the conditions of R333; while a switch runs the roles decide it (R345). -/
def judgeSync (s : State) : State :=
  match s.standby with
  | some d => if followsActive s || (s.eng d).twin.sync == 0 || s.sup.switch.isSome then s else s.modEng d freeSync
  | none => s

/-- The split step by which a standby takes the device time of its active (R72, R333): J at once, the remainder slewed at
1,000,000 ps/s, STEP_COUNT and TB_SET as the active has them. -/
def adoptTime (a : TimeState) (x : Engine) : Engine :=
  let delta : Int := (a.now16 : Int) - (x.time.now16 : Int)
  let j := stepJump delta
  let t := { moveDev j x.time with stepCount := a.stepCount, tbSet := a.tbSet, jumpSum := x.time.jumpSum + j,
                                   slew := startSlew (delta - j) 1000000 }
  timeJumped j { x with time := t, twin := { x.twin with sync := 1, setDue := false } }

/-- TIME_WORD_SYNC (R333): the active's time word reaches the standby. -/
def timeWord (s : State) : State :=
  match s.active, s.standby with
  | some a, some d =>
    if !followsActive s then judgeSync s
    else if (s.eng d).twin.sync = 0 ∨ (s.eng d).twin.setDue then s.modEng d (adoptTime (s.eng a).time)
    else s
  | _, _ => judgeSync s

/-- The standby's counter, held to the active's (R71): it stands from it by what the measurement gives, in ps. -/
def heldTo (a : TimeState) (err : Int) (t : TimeState) : TimeState :=
  { t with dev := (((a.dev : Int) + err * 2 ^ 32 / 1000) % devMod).toNat, subUnit := a.subUnit }

/-- A phase measurement at the standby, in ps; `heldUs` is how long its present range has held without a break. With the offset set of a
Fofaene lane failed, SYNC does not leave SYNCING (Table 11.4, R391). -/
def phaseMeasured (err : Int) (heldUs : Nat) (a : TimeState) (x : Engine) : Engine :=
  let held := a.stepCount = x.time.stepCount ∧ x.twin.setDue = false ∧ a.slew = x.time.slew
  let y := { x with twin := { x.twin with tbPhaseErr := err }, time := if held then heldTo a err x.time else x.time }
  let sound := !(List.range 4).any x.fofDefault
  if x.twin.sync = 1 ∧ err.natAbs ≤ 20 ∧ heldUs ≥ 1000000 ∧ a.stepCount = x.time.stepCount ∧ x.time.slew = none ∧ x.twin.setDue = false ∧
      sound = true then
    { y with twin := { y.twin with sync := 2 } }
  else if x.twin.sync = 2 ∧ err.natAbs > 50 ∧ heldUs ≥ 10000 then
    ({ y with twin := { y.twin with sync := 1, setDue := true } } : Engine).raise 0x0C 0x01 1 0
  else y

/-- TIME_WORD_SYNC. -/
def execTimeWordSync (s : State) : Host.Outcome State Fault Refusal := onTwin s timeWord

/-- TB_PHASE_MEASUREMENT (Table 11.4). -/
def execTbPhaseMeasurement (err : Int) (heldUs : Nat) (s : State) : Host.Outcome State Fault Refusal :=
  onTwin s fun s =>
    match s.active, s.standby with
    | some a, some d =>
      if !followsActive s then judgeSync s
      else if (s.eng d).twin.sync = 0 then s
      else s.modEng d (phaseMeasured err heldUs (s.eng a).time)
    | _, _ => judgeSync s

/-! ## Acknowledgements that no longer come -/

/-- Every command of an engine that awaits an acknowledgement replies at once with MIRRORED clear (R341). -/
def releaseAcks (e : EngId) (s : State) : State := flushWaiting e (s.modEng e clearAcks)

/-- As `releaseAcks`, on the active. -/
def releaseActive (s : State) : State :=
  match s.active with
  | some a => releaseAcks a s
  | none => s

/-! ## The Fofaene link (R347) -/

/-- What the loss of the link does on one engine. -/
def linkLost (x : Engine) : Engine :=
  if x.running then
    let y := ({ x with core := { x.core with fofUp := false } } : Engine).bump 87
    y.raise 0x0C 0x07 2 0
  else x

/-- The Fofaene link goes down. -/
def fofDown (s : State) : State :=
  if !s.fof.up then s
  else
    let s1 := ({ s with fof := { s.fof with up := false, commits := [], acks := [] } } : State).modBoth linkLost
    match s1.standby with
    | none => s1
    | some d =>
      let s2 := { s1 with sup := s1.sup.modView d fun v => { v with fofBeat := .absent } }
      releaseActive (twinEvent d 4 0 d 0 0 0 (setCopy 3 (s2.modEng d freeSync)))

/-- The Fofaene link returns: a suspended copy starts again (R342), unless the levels do not fit (R349). -/
def fofBack (s : State) : State :=
  if s.fof.up then s
  else
    let s1 := { s with fof := { s.fof with up := true, beatLost := false } }
    match s1.active, s1.standby with
    | some a, some d =>
      if (s1.eng d).twin.copy = 3 then
        if compatible (s1.eng d).fw (s1.eng a).fw then
          let g := (s1.eng a).host.cfgGen
          let s2 := { s1 with fof := { s1.fof with announced := g } }
          twinEvent d 5 0 d 0 0 0 (setCopy 1 (s2.modEng d fun y => { y with twin := { y.twin with cfgGenSeen := g } }))
        else refuseCopy d (twinEvent d 5 0 d 0 0 0 s1)
      else s1
    | _, _ => s1

/-- FOF_LINK_UP. -/
def execFofLinkUp (s : State) : Host.Outcome State Fault Refusal := onTwin s fofBack

/-! ## What the state copy carries (R340, R342) -/

/-- The configuration of a port, taken over; a port whose mode differs is set anew (R114). -/
def copyPort (part : Part) (d : EngId) (x : Engine) (y : Engine) (p : Nat) : Engine :=
  let q := x.port p
  let r := y.port p
  let w := pack [(bit q.train, 30), (q.advert.toNat, 16), (q.fecReq, 8), (q.mode, 0)]
  let same := q.mode == r.mode && q.train == r.train && q.advert == r.advert && q.fecReq == r.fecReq
  let z := if same || decide (p ≥ 32) then y else (changeMode part d p w y).2
  z.modPort p fun k => { k with addr := q.addr, holdUs := q.holdUs, debounceUs := q.debounceUs, ahnud := q.ahnud }

/-- Captures up to the last one delivered by the active go (R94). -/
def dropDelivered (q : EvtIn) : EvtIn :=
  match q.delivered with
  | none => q
  | some n => { q with queue := q.queue.filter fun k => decide ((n + 65536 - k.seq) % 65536 ≥ 32768) }

/-- An event input as the active has it: configured, captured and numbered, and delivered (R94, R342). -/
def copyEvtIn (a y : EvtIn) : EvtIn := { a with last := y.last }

/-- Time: delays, inputs, schedules, a step that waits. -/
def copyTime (a y : TimeState) : TimeState :=
  { y with rxBoard := a.rxBoard, txBoard := a.txBoard, twoStep := a.twoStep, step := a.step, evtOut := a.evtOut,
           evtIn := Vector.ofFn fun i => copyEvtIn a.evtIn[i] y.evtIn[i] }

/-- A port's flow control as configured. -/
def copyFc (a y : PortFc) : PortFc :=
  { a with timers := y.timers, storm := y.storm, tripped := y.tripped, pauseOff := y.pauseOff, hrShort := y.hrShort }

/-- Buffers: the configuration. -/
def copyBuf (a y : BufState) : BufState :=
  { y with residueAgeUs := a.residueAgeUs, inMin := a.inMin, egMin := a.egMin, classes := a.classes, headroom := a.headroom,
           ages := a.ages, spillEn := a.spillEn, spillOn := a.spillOn, spillOff := a.spillOff,
           fc := Vector.ofFn fun i => copyFc a.fc[i] y.fc[i] }

/-- Egress of a port: everything but what is being sent. -/
def copyEgPort (a y : Egress) : Egress := { a with tx := y.tx, cut := y.cut, ctl := y.ctl }

/-- Egress: ports, pairs, proxies. -/
def copyEgress (a y : EgressState) : EgressState :=
  { y with pairs := a.pairs, proxies := a.proxies, ports := Vector.ofFn fun i => copyEgPort a.ports[i] y.ports[i] }

/-- A reference as configured; its state and its measurements are the engine's own (R322). -/
def copyRef (a y : RefState) : RefState :=
  { y with enable := a.enable, lockout := a.lockout, assign := a.assign, pulse := a.pulse, falling := a.falling, family := a.family,
           rank := a.rank, freqHz := a.freqHz, soft := a.soft, hard := a.hard, driftMax := a.driftMax, qualS := a.qualS,
           wtrS := a.wtrS, phaseTol := a.phaseTol, inDelay := a.inDelay, input := a.input }

/-- References and outputs as configured. -/
def copyRefs (a y : RefsState) : RefsState :=
  { y with refs := Vector.ofFn (fun i => copyRef a.refs[i] y.refs[i]), syns := a.syns, clks := a.clks, pps := a.pps }

/-- Parser: graph and per-port settings. -/
def copyParser (a y : ParserState) : ParserState := { y with graph := a.graph, staged := a.staged, gen := a.gen, ports := a.ports }

/-- Counters and sampler as configured, and where the sampler's random source stands. -/
def copyStats (a y : StatsState) : StatsState :=
  { y with chained := a.chained, snapPeriodMs := a.snapPeriodMs, smpEnable := a.smpEnable, smpMode := a.smpMode, smpLog2N := a.smpLog2N,
           smpMeanN := a.smpMeanN, smpMask := a.smpMask, smpLfsr := a.smpLfsr }

/-- The exchanges of the active `a` at the standby `z` with what the active knows of them; the standby learns egress stamps by
themselves (R42). -/
def copyExchanges (a : NetState) (z : Engine) : NetState :=
  let y := z.net
  let known (k : Option ReqWait) (own : Option ReqWait) : Option ReqWait := match k with
    | some r => if own.map (fun w => w.seqId) = some r.seqId then own else some { r with sent := none }
    | none => none
  let port (k own : PtpPort) : PtpPort := { k with req := known k.req own.req, preq := known k.preq own.preq, own := false }
  { y with ptp := Vector.ofFn fun d => Vector.ofFn fun p => port a.ptp[d][p] y.ptp[d][p], ports := a.ports }

/-- Network time of the active `a` at the standby `z`: the exchanges, and the servos in shadow (R286); the standby keeps its own history
and holdover (R322). -/
def copyNet (a : NetState) (z : Engine) : NetState := shadowSlots a { z with net := copyExchanges a z }

/-- D0_SRC of the active `x` at the standby `y` (R314), whose D0 moves to OSC_IN only while its own OSC_QUAL reads 1 (R50). -/
def copySource (x y : Engine) : Engine :=
  if d0Osc x then (if oscQual y then d0External y else y) else d0Tcxo y

/-- The state of the active `x` copied whole to the standby `y` (R342). -/
def copyEngine (part : Part) (d : EngId) (x y0 : Engine) : Engine :=
  let y := (List.range 34).foldl (fun y p => copyPort part d x y p) (setPace x.pace.pace (copySource x y0))
  { y with
      time := copyTime x.time y.time, parser := copyParser x.parser y.parser, rules := { x.rules with changed := [] },
      buf := copyBuf x.buf y.buf, egress := copyEgress x.egress y.egress, net := { copyNet x.net y with cal := none },
      refs := copyRefs x.refs y.refs, stats := copyStats x.stats y.stats,
      ports := { y.ports with etype := x.ports.etype, ctIn := x.ports.ctIn, ctOut := x.ports.ctOut },
      cal := { y.cal with enable := x.cal.enable, starveS := x.cal.starveS },
      fault := { y.fault with winF2Us := x.fault.winF2Us, winF3Us := x.fault.winF3Us, enables := x.fault.enables },
      host := { y.host with cfgGen := x.host.cfgGen },
      twin := { y.twin with journal := x.twin.journal, cfgGenSeen := x.host.cfgGen } }

/-! ## Running commits (R340, R262, R286, R94, R123) -/

/-- A change of the active's table made in the standby's: a static entry stays. -/
def applyChange (t : List (Nat × FdbEntry)) (c : Nat × Option FdbEntry) : List (Nat × FdbEntry) :=
  let own := findAt c.1 t
  match c.2, own with
  | _, some f => if f.static then t else (match c.2 with
    | some v => insertAt c.1 v t
    | none => eraseAt c.1 t)
  | some v, none => insertAt c.1 v t
  | none, none => t

/-- The sequence numbers of redundancy: proxies and the counters of the pairs (R262). -/
def copySeqs (a y : EgressState) : EgressState :=
  { y with proxies := a.proxies, pairs := Vector.ofFn fun i => { y.pairs[i] with seq := a.pairs[i].seq } }

/-- A running commit of the active `x` applied to the standby `y`. The selections and the servos in shadow come with it while the
standby follows the active (R322, R333). -/
def runningCommit (follow : Bool) (x y : Engine) : Engine :=
  let eg : EgressState := copySeqs x.egress y.egress
  let pre (i : Fin 34) : Egress :=
    let a := x.egress.ports[i].preempt
    { eg.ports[i] with preempt := { eg.ports[i].preempt with state := a.state, tries := a.tries } }
  let port (i : Fin 34) : PortState := { y.ports.ports[i] with ahnud := x.ports.ports[i].ahnud }
  { y with
      rules := { y.rules with fdb := x.rules.changed.foldl applyChange y.rules.fdb },
      net := if follow then copyNet x.net y else copyExchanges x.net y,
      egress := { eg with ports := Vector.ofFn pre },
      ports := { y.ports with ports := Vector.ofFn port },
      time := { y.time with evtIn := Vector.ofFn fun i => dropDelivered { y.time.evtIn[i] with delivered := x.time.evtIn[i].delivered } } }

/-- The active sends its running state to a standby that is current. -/
def toStandby (f : EngId → EngId → State → State) (s : State) : State :=
  match s.active, s.standby with
  | some a, some d => if s.fof.up && (s.eng d).twin.copy == 2 && (s.eng a).serving then f a d s else s
  | _, _ => s

/-- RUNNING_COMMIT. -/
def execRunningCommit (s : State) : Host.Outcome State Fault Refusal :=
  onTwin s (toStandby fun a d s =>
    (s.modEng d (runningCommit (followsActive s) (s.eng a))).modEng a fun x => { x with rules := { x.rules with changed := [] } })

/-- PROXY_MIRROR (R262). -/
def execProxyMirror (s : State) : Host.Outcome State Fault Refusal :=
  onTwin s (toStandby fun a d s => s.modEng d fun y => { y with egress := copySeqs (s.eng a).egress y.egress })

/-! ## Occupancies (R332) -/

/-- The copies an engine holds for its queues: queued, in residue, cut through or being sent, and those stored for a tail
that is still to come. -/
def heldCopies (x : Engine) : List Copy :=
  let out (g : Egress) : List Copy := (g.tx.toList ++ g.cut.toList).filterMap fun t => t.copy
  x.egress.queues.flatMap (fun q => q.2) ++ x.buf.residue ++ x.buf.waiting ++ x.egress.ports.toList.flatMap out
    ++ x.buf.arriving.flatMap fun a => a.2.copies

/-- The frames held for each egress queue whose ingress stamp is at or before `rt`. -/
def occupancies (rt : Nat) (x : Engine) : List (Nat × Nat) :=
  (heldCopies x).foldl (fun m c =>
    match x.frame c.frame with
    | some f =>
      let k := 10 * c.port + c.queue
      if f.ingress ≠ 63 ∧ f.stamp.t ≤ rt then put 0 k (look 0 k m + 1) m else m
    | none => m) []

/-- Ten microseconds in units of 2^-16 ns. -/
def beat16 : Nat := 655360000

/-- OCCUPANCY_REPORT: at the next device time that is a whole multiple of 10 us, which it carries as R_T. -/
def execOccupancyReport (s : State) : Host.Outcome State Fault Refusal :=
  onTwin s fun s =>
    match s.active, s.standby with
    | some a, some d =>
      let now := (s.eng a).time.now16
      let rt := (now + beat16 - 1) / beat16 * beat16
      let s1 := passTo a rt s
      if s1.fof.up then
        let occ := occupancies rt (s1.eng a)
        s1.modEng d fun y => { y with twin := { y.twin with
          shadowOcc := occ, shadowTime := rt, shadowDecided := y.twin.shadowDecided.filter fun k => decide (k.2 > rt) } }
      else s1
    | _, _ => s

/-! ## Decision digests (R337-R339) -/

/-- 64 ps and 128 ps in units of 2^-16 ns. -/
def edge64 : Nat := 4194
/-- 128 ps in units of 2^-16 ns. -/
def edge128 : Nat := 8388

/-- The frames of an engine that a window counts: stamped after the boundary `lo`, at or before `hi`, and not within 64 ps of
either. -/
def windowFrames (lo hi : Nat) (x : Engine) : List (Nat × BitVec 64) :=
  x.twin.digestFrames.filter fun k => decide (k.1 > lo + edge64) && decide (k.1 + edge64 < hi)

/-- The active's frames counted since its last boundary, in the order decided. -/
def countedFrames (x : Engine) : List (Nat × BitVec 64) :=
  x.twin.digestFrames.filter fun k => decide (k.1 > x.twin.digestBoundary + edge64)

/-- A window of the active closed at a boundary. -/
def closeDigest (b : Nat) (x : Engine) : Engine :=
  let n := (x.twin.digestNumber + 1) % 2 ^ 32
  { x with twin := { x.twin with digestNumber := n, digestBoundary := b,
                                 digestClosed := x.twin.digestClosed ++ [{ number := n, boundary := b }] } }

/-- DIGEST_WINDOW_CLOSE (R337): at the 4,096th frame counted, or 1 s after the previous boundary. -/
def execDigestWindowClose (s : State) : Host.Outcome State Fault Refusal :=
  onTwin s fun s =>
    match s.active with
    | none => s
    | some a =>
      match (countedFrames (s.eng a))[4095]? with
      | some k => s.modEng a (closeDigest (k.1 + edge128))
      | none =>
        let b := (s.eng a).twin.digestBoundary + s16
        (passTo a b s).modEng a (closeDigest b)

/-- The sum of the hashes of a window. -/
def digestSum (l : List (Nat × BitVec 64)) : BitVec 64 := l.foldl (fun a k => a + k.2) 0

/-- What a comparison leaves on an engine: the frames up to the boundary are gone, and the counts of the window. -/
def compared (number : Nat) (boundary : Nat) (ok : Option Bool) (x : Engine) : Engine :=
  let y := { x with twin := { x.twin with digestFrames := x.twin.digestFrames.filter fun k => decide (k.1 > boundary) } }
  match ok with
  | none => y
  | some b =>
    let z := y.bump 83
    let w := if b then z else z.bump 84
    let run := if b then 0 else w.twin.mismatchRun + 1
    { w with twin := { w.twin with digestWindow := number, mismatchRun := run, scrubRunning := w.twin.scrubRunning || decide (run ≥ 3) } }

/-- DIGEST_COMPARE (R337, R338), 100 us after a boundary. Nothing is compared with the link down (R347) or during a scrub. -/
def execDigestCompare (s : State) : Host.Outcome State Fault Refusal :=
  onTwin s fun s0 =>
    match s0.active with
    | none => s0
    | some a =>
      match (s0.eng a).twin.digestClosed with
      | [] => s0
      | w :: rest =>
        let s := passTo a (w.boundary + 100 * us16) s0
        let x := s.eng a
        let from_ := x.twin.digestFrom
        let s1 := s.setEng a { x with twin := { x.twin with digestClosed := rest, digestFrom := w.boundary } }
        match s1.standby with
        | none => s1.modEng a (compared w.number w.boundary none)
        | some d =>
          let fa := windowFrames from_ w.boundary x
          let fd := windowFrames from_ w.boundary (s1.eng d)
          let on := s1.fof.up && !x.twin.scrubRunning && !(fa.isEmpty && fd.isEmpty)
          let ok := if on then some (fa.length == fd.length && digestSum fa == digestSum fd) else none
          s1.modBoth (compared w.number w.boundary ok)

/-- The buckets in which the dynamic entries of two tables differ. The hit bits are the engines' own. -/
def differing (t u : List (Nat × FdbEntry)) : List Nat :=
  let plain (l : List (Nat × FdbEntry)) : List (Nat × Nat × Nat) :=
    (l.filter fun k => !k.2.static).map fun k => (k.1, k.2.kind, k.2.dest)
  let a := plain t
  let b := plain u
  (((a.filter fun k => !b.contains k) ++ (b.filter fun k => !a.contains k)).map fun k => fdbBucket k.1).eraseDups

/-- The dynamic entries of the buckets named replaced by the active's (R338). -/
def resyncFdb (bs : List Nat) (a y : List (Nat × FdbEntry)) : List (Nat × FdbEntry) :=
  let kept := y.filter fun k => k.2.static || !bs.contains (fdbBucket k.1)
  (a.filter fun k => !k.2.static && bs.contains (fdbBucket k.1)).foldl (fun t k => insertAt k.1 k.2 t) kept

/-- The scrub of both engines is over. -/
def scrubOver (x : Engine) : Engine := { x with twin := { x.twin with scrubRunning := false, mismatchRun := 0 } }

/-- SELF_FAULTY of an engine. -/
def markFaulty (x : Engine) : Engine := { x with twin := { x.twin with selfFaulty := true } }

/-- A scrub that has failed on an engine (R339): the words rewritten are its address. -/
def scrubFailed (cls : Nat) (words : Nat) (x : Engine) : Engine :=
  (markFaulty x).raise 0x0C 0x08 cls (word (satN (2 ^ 32 - 1) words))

/-- FAST_SCRUB_END (R338, R339, Table 11.6): `activeWords` and `standbyWords` are the words that differed from their golden
copies and have been rewritten. -/
def execFastScrubEnd (activeWords standbyWords : Nat) (s : State) : Host.Outcome State Fault Refusal :=
  onTwin s fun s =>
    match s.active, s.standby with
    | some a, some d =>
      if !(s.eng a).twin.scrubRunning then s
      else
        let bs := differing (s.eng a).rules.fdb (s.eng d).rules.fdb
        let s1 := (s.modBoth scrubOver).modEng d fun y => y.modFdb (resyncFdb bs (s.eng a).rules.fdb)
        let s2 := s1.modBoth fun x => x.bumpN 86 bs.length
        let fa := decide (activeWords > 0)
        let fd := decide (standbyWords > 0)
        let s3 := if fa then s2.modEng a (scrubFailed (if fd then 2 else 3) activeWords) else s2
        let s4 := if fd then s3.modEng d (if fa then markFaulty else scrubFailed 3 standbyWords) else s3
        let s5 := if fa || fd then s4 else s4.modEng a fun x => (x.bump 85).raise 0x0C 0x02 1 (word x.twin.digestWindow)
        let s6 := twinEvent a 7 0 a (2 * bit fa + bit fd) 0 0 s5
        if fa && fd then giveUp d s6 else s6
    | some a, none =>
      if !(s.eng a).twin.scrubRunning then s.modBoth scrubOver
      else
        let s1 := s.modBoth scrubOver
        let fa := decide (activeWords > 0)
        let s2 := if fa then s1.modEng a (scrubFailed 3 activeWords) else s1
        twinEvent a 7 0 a (2 * bit fa) 0 0 s2
    | none, _ => s.modBoth scrubOver

/-! ## The TWIN commands (R350, Tables 11.7 and 11.8) -/

/-- The stated checks of a TWIN command. -/
def twinSpec (op : BitVec 16) (n : Nat) (rsvd : List Word → Bool) (range : Ctx → List Word → State → Option (List Word))
    (judge : Ctx → List Word → State → Option (Status × List Word)) (apply : Ctx → List Word → State → Applied) : CmdSpec :=
  { opcode := op, onActive := true, onStandby := false, onSup := true, mirrored := false, inMaint := false, inCul := false,
    needsSup := true, lenOk := lenIs n, rsvdOk := rsvd, absent := fun p _ => !twinPart p, rangeErr := range,
    judge := fun c ps s => firstOf [judge c ps s, busySwitching s], apply := apply }

/-- NEXT_SWAP: the next attempt of a scheduled swap (R346). -/
def nextSwap (p : SupState) : Stamp :=
  match p.swapNext with
  | some t => { t := t + p.swapRetries * 60 * s16, qual := 0x8000#16 }
  | none => stampZero

/-- TWIN.GET_STATE. -/
def twinGetStateSpec : CmdSpec :=
  { twinSpec 0x0B01 0 (fun _ => true) neverRange neverJudge (fun c _ s =>
      let x := s.eng c.eng
      .now s ([twinStatus s c.eng, word x.host.cfgGen, word x.twin.cfgGenSeen, phaseWord x] ++ stampWords (nextSwap s.sup)
        ++ [lastWord x.twin.last, word x.twin.digestWindow])) with
    onStandby := true, onSup := false, inCul := true }

/-- The device time of the active, or of the steering owner where none is active. -/
def ownerNow (s : State) : Nat := (s.eng (s.active.getD s.power.steer)).time.now16

/-- ASAP of TWIN.SWAP_ROLES. -/
def swapAsap (ps : List Word) : Bool := flag (par ps 0) 31

/-- SW_AT of TWIN.SWAP_ROLES (R350): with ASAP, acceptance plus PREP_US plus 100 us. -/
def swapInstant (ps : List Word) (s : State) : Nat :=
  if swapAsap ps then ownerNow s + (field (par ps 0) 15 0 + 100) * us16 else parTime ps 1

/-- TWIN.SWAP_ROLES (R344, R345). -/
def twinSwapRolesSpec : CmdSpec :=
  twinSpec 0x0B02 5 (fun ps => zeroBits ps 0 30 16 && !badQual ps 1 && (!swapAsap ps || (ps.drop 1).all fun w => w == 0))
    (fun _ ps s =>
      let prep := field (par ps 0) 15 0
      let now := ownerNow s
      let early := decide (swapInstant ps s < now + (prep + 100) * us16) || decide (swapInstant ps s > now + s16)
      rangeIf (decide (prep > 10000) || (!swapAsap ps && (badNsec ps 1 || early))))
    (fun _ _ s => firstOf [statusIf (!swapReady s) .state, statusIf (pendingWork s || s.sup.swap.isSome) .busy])
    (fun _ ps s =>
      let plan : SwapPlan := { swAt := swapInstant ps s, prepUs := field (par ps 0) 15 0, commanded := true, prepared := false }
      { state := { s with sup := { s.sup with swap := some plan } }, body := [], await := some .swap })

/-- TWIN.SET_SWAP (R346, R350): the next scheduled swap falls one period after the reply; 0 cancels it. -/
def twinSetSwapSpec : CmdSpec :=
  twinSpec 0x0B03 2 (fun ps => zeroBits ps 1 31 16)
    (fun _ ps _ =>
      let n := (par ps 0).toNat
      rangeIf ((n != 0 && (decide (n < 3600) || decide (n > 2592000))) || decide (field (par ps 1) 15 0 > 10000)))
    neverJudge
    (fun _ ps s =>
      let n := (par ps 0).toNat
      let next := if n = 0 then none else some (ownerNow s + n * s16)
      .now { s with sup := { s.sup with swapPeriodS := n, swapPrepUs := field (par ps 1) 15 0, swapNext := next, swapRetries := 0 } } [])

/-- TWIN.REJOIN (R348): a fenced engine leaves reset. -/
def twinRejoinSpec : CmdSpec :=
  twinSpec 0x0B04 1 (fun ps => zeroBits ps 0 31 2) (fun _ ps _ => rangeIf (engineFieldBad ps))
    (fun _ ps s => statusIf (!(s.sup.view (engineField ps)).fenced) .state)
    (fun _ ps s =>
      let e := engineField ps
      let s1 := { s with sup := s.sup.modView e fun v => { v with fenced := false } }
      .now (leaveReset e (s1.modEng (other e) fun x => { x with twin := { x.twin with peerFenced := false } })) [])

/-- TWIN.FENCE (R348): the standby is held in reset. An engine that is neither active nor standby is refused with ERR_STATE
(DESIGN CHOICE, log 33). -/
def twinFenceSpec : CmdSpec :=
  twinSpec 0x0B05 1 (fun ps => zeroBits ps 0 31 2) (fun _ ps _ => rangeIf (engineFieldBad ps))
    (fun _ ps s =>
      firstOf [statusIf (s.active == some (engineField ps)) .role, statusIf (s.standby != some (engineField ps)) .state])
    (fun _ ps s => .now (releaseActive (setCopy 0 (fenceEngine (engineField ps) s))) [])

end Sys2Proof.Machine
end

