-- ==== Sys2Proof/Machine/Host.lean ====
section
/-! DEFINITION. The host side of an engine: its whole register window, the mailbox, the interrupt block, and the SYS
commands (R4-R9, R36, R437, R438, R443-R449). What takes packets from the channels is in Channels.lean. -/

namespace Sys2Proof.Machine

/-! ## CAP0, CAP1, ROLE_STATUS (Tables 0.2, 0.3, 1.2) -/

/-- CAP0 of a unit (R4, R8). -/
def capZero (part : Part) (u : UnitId) (step : Byte) : Word :=
  pack [(partCode part, 24), (step.toNat, 16), (bit (twinPart part), 7), (bit (twinPart part), 6), (bit (underpassPart part), 5),
        (bit (twinPart part), 4), (unitCode u, 2)]

/-- CAP1 with a value of OSC_QUAL (R4, R8). -/
def capOne (part : Part) (osc : Bool) : Word :=
  pack [(bit osc, 31), (if underpassPart part then 0x80 else 0, 16), (if underpassPart part then 0xFF else 0x03, 8), (lanesOf part - 1, 0)]

/-- ROLE_STATUS (R36). -/
def roleStatus (s : State) (e : EngId) : Word :=
  let c := (s.eng e).core
  pack [(c.role, 24), (bit c.supOk, 15), (bit (twinPart s.part && s.fof.up && c.fofUp), 14),
        (if twinPart s.part then engCode s.power.steer else 0, 8)]

/-- The first registers of an engine's window. -/
def coreReg (s : State) (e : EngId) (off : Nat) : Option Word :=
  let x := s.eng e
  match off with
  | 0x0000 => some (capZero s.part (.eng e) x.core.dieStep)
  | 0x0004 => some (capOne s.part (oscQual x))
  | 0x0008 => some (roleStatus s e)
  | _ => none

/-! ## Interrupts (R444-R446) -/

/-- The bits of IRQ_STATUS that only mirror their source (Table 15.16). -/
def irqLevels (x : Engine) : BitVec 16 :=
  BitVec.ofNat 16 (bit (linkIrqLevel x) * 64 + bit (x.clk.loss != 0) * 128 + bit x.pace.paceDropped * 256 + bit (refIrqLevel x) * 512
    + bit (edgeIrqLevel x.time) * 1024 + bit (x.buf.fc.toList.any fun q => q.storm != 0) * 2048 + bit (faultIrqLevel x.fault) * 4096)

/-- The W1C bits of IRQ_STATUS. -/
def irqW1c : BitVec 16 := 0xE03F

/-- IRQ_STATUS. -/
def irqStatus (x : Engine) : BitVec 16 := (x.host.irq.status &&& irqW1c) ||| irqLevels x

/-- The engine's interrupt pin (R445): high while an enabled bit is set whose signal is not held back. -/
def irqPin (x : Engine) : Bool :=
  let q := x.host.irq
  x.awake && q.pin && (irqStatus x &&& q.enable &&& ~~~(q.held.setWidth 16)) != 0

/-- IRQ_A or IRQ_B as Table 17.10 gives it: high impedance where the part has no such engine (R496), else low or, while the engine's
interrupt is signalled, driven high. -/
def irqBall (s : State) (e : EngId) : PinState :=
  if !engFitted s.part e then .highZ else if s.power.supplyValid && irqPin (s.eng e) then .driven else .low

/-- SPI_MISO: driven while the chip select is low and the port answers, from step 2 of Table 16.1 on (R442, R492, Table 17.10). -/
def misoBall (s : State) (csLow : Bool) : PinState :=
  if s.power.supplyValid && decide (s.power.startStep ≥ 2) && csLow then .driven else .highZ

/-- The PCIe and SGMII transmitters of an engine (Table 17.10, R496): idle until the engine leaves reset. -/
def hostLinkBall (s : State) (e : EngId) : PinState :=
  if !engFitted s.part e then .highZ
  else if !s.power.supplyValid then (if s.power.brownOut then .idle else .highZ)
  else if (s.eng e).awake then .driven else .idle

/-- W1C bits of IRQ_STATUS written 1 (R444): a signal held back for a cleared bit is no longer due. -/
def clearIrq (mask : Word) (q : IrqState) : IrqState :=
  let m := mask.setWidth 16 &&& irqW1c
  { q with status := q.status &&& ~~~m, held := q.held &&& ~~~(m.setWidth 6) }

/-- IRQ_STATUS_CLEAR. -/
def execIrqStatusClear (e : EngId) (mask : Word) (s : State) : Host.Outcome State Fault Refusal :=
  onEngine e s fun s => s.modEng e fun x => { x with host := { x.host with irq := clearIrq mask x.host.irq } }

/-- The moderation time of a bit has passed (R445): a signal held back is given now, if its bit is enabled, and the time runs anew. -/
def endModeration (b : Nat) (q : IrqState) : IrqState :=
  let one : BitVec 6 := 1#6 <<< b
  if (q.held &&& one) != 0 && q.enable.getLsbD b then
    { q with held := q.held &&& ~~~one, sent := if q.msi then q.sent ++ [b] else q.sent }
  else { q with running := q.running &&& ~~~one, held := q.held &&& ~~~one }

/-- IRQ_MODERATION_EXPIRY; nothing where the bit's time does not run. -/
def execIrqModerationExpiry (e : EngId) (bit : Fin 6) (s : State) : Host.Outcome State Fault Refusal :=
  onEngine e s fun s => s.modEng e fun x =>
    if x.host.irq.running.getLsbD bit.val then { x with host := { x.host with irq := endModeration bit.val x.host.irq } } else x

/-! ## Rings, channels, mailbox (Table 15.15) -/

/-- The word of a ring at 0x0F0C + 0x10r. -/
def ringStat (q : Ring) : Word :=
  pack [(bit q.enabled, 31), (bit q.stopped, 30), (q.err.toNat, 26), (if q.enabled then q.sizeLog2 else 0, 22), (satN 0xFFFF q.drops, 0)]

/-- One of the four words of a ring. -/
def ringReg (q : Ring) (k : Nat) : Word :=
  match k with
  | 1 => q.hostIdx
  | 2 => q.engineIdx
  | 3 => ringStat q
  | _ => 0

/-- The word of a channel at 0x0F80 + 4c. -/
def chanReg (x : Engine) (c : Nat) : Word :=
  let out := (x.host.outstanding.filter fun q => decide (chanIdx q.1 = c)).length
  let st := vget x.host.stats { badFraming := 0, tagDup := 0, crcErr := 0 } c
  let en := if c = 2 then x.host.mgmt.cmdEn else true
  pack [(bit en, 31), (out, 24), (st.badFraming, 16), (st.tagDup, 8), (st.crcErr, 0)]

/-- The word of the SPI channel at 0x0F8C: the supervisor's port counts, and either engine's window shows its counts (DESIGN CHOICE, log
34). -/
def spiReg (p : SpiState) : Word :=
  pack [(1, 31), (p.outstanding.length, 24), (p.badFraming, 16), (p.tagDup, 8), (p.crcErr, 0)]

/-- A word of MBOX_REPLY: the packet's bytes stand in it in their own order, most significant byte of each packet word first, and
a register read of the window is little-endian (R16; DEDUCED, log 118). -/
def mboxReplyWord (m : Mailbox) (off : Nat) : Word := word (beNat ((List.range 4).map fun i => m.reply.getD (off + 3 - i) 0))

/-- The host registers (Table 15.15, R437). MBOX_CMD and the doorbells read 0. -/
def hostReg (x : Engine) (off : Nat) : Option Word :=
  let h := x.host
  if off ≥ 0x0F00 ∧ off < 0x0F80 ∧ off % 4 = 0 then some (ringReg (x.ring ((off - 0x0F00) / 16)) (off % 16 / 4))
  else if off ≥ 0x0F80 ∧ off < 0x0F90 ∧ off % 4 = 0 then some (chanReg x ((off - 0x0F80) / 4))
  else if off = 0x0F90 then some (word (h.mgmt.addr.toNat / 2 ^ 32))
  else if off = 0x0F94 then some (word h.mgmt.addr.toNat)
  else if off = 0x0FA0 then some ((irqStatus x).setWidth 32)
  else if off = 0x0FA4 then some (pack [(bit h.irq.msi, 17), (bit h.irq.pin, 16), (h.irq.enable.toNat, 0)])
  else if off = 0x0FC4 then some (pack [(bit h.mbox.busy, 31), (bit h.mbox.ready, 30), (h.mbox.replyLen, 0)])
  else if off ≥ 0x1400 ∧ off < 0x1800 ∧ off % 4 = 0 then some (mboxReplyWord h.mbox (off - 0x1400))
  else none

/-! ## The whole window (R443) -/

/-- The first register block that defines an offset. -/
def firstReg : List (Option Word) → Word
  | [] => 0
  | some w :: _ => w
  | none :: rest => firstReg rest

/-- A register of an engine's window as it reads now, with a time latch for the time block. Offsets of no table read 0. -/
def regWord (l : LatchId) (s : State) (e : EngId) (off : Nat) : Word :=
  let x := s.eng e
  if off = 0x0F8C then spiReg s.sup.spi
  else firstReg [coreReg s e off, clockReg s.part x off, timeReg l x off, portsReg s.part x off, parserReg x off, ruleReg x off,
            crossReg x off, bufReg s.part x off, egressReg x off, netReg s.part x off, refReg s.part x off, twinReg s e off,
            faultReg x.fault off, calReg s.part x off, statsReg x off, hostReg x off]

/-- DROPS of a ring cleared. -/
def clearDrops (r : Nat) (x : Engine) : Engine := x.modRing r fun q => { q with drops := 0 }

/-- The counts of a channel cleared. -/
def clearChan (c : Nat) (x : Engine) : Engine :=
  { x with host := { x.host with stats := vmodN x.host.stats c fun _ => { badFraming := 0, tagDup := 0, crcErr := 0 } } }

/-- What a read of a register leaves behind: the time latch of R79, the RC fields of R18. -/
def readEffect (l : LatchId) (off : Nat) (x : Engine) : Engine :=
  if off = 0x0100 then latchTime l x
  else if off ≥ 0x0510 ∧ off < 0x0510 + 4 * 12 ∧ off % 4 = 0 then readMonitor ((off - 0x0510) / 4) x
  else if off ≥ 0x0F00 ∧ off < 0x0F80 ∧ off % 16 = 12 then clearDrops ((off - 0x0F00) / 16) x
  else if off ≥ 0x0F80 ∧ off < 0x0F90 ∧ off % 4 = 0 then clearChan ((off - 0x0F80) / 4) x
  else x

/-- The counts of the SPI channel cleared. -/
def clearSpi (p : SpiState) : SpiState := { p with badFraming := 0, tagDup := 0, crcErr := 0 }

/-- What a read of a register of an engine's window leaves behind in the module. -/
def readLeaves (l : LatchId) (e : EngId) (off : Nat) (s : State) : State :=
  if off = 0x0F8C then { s with sup := { s.sup with spi := clearSpi s.sup.spi } } else s.modEng e (readEffect l off)

/-- `n` registers read in rising order from an offset: their words, and the state afterwards (R9, R447). -/
def readRegs (l : LatchId) (e : EngId) : Nat → Nat → State → List Word × State
  | 0, _, s => ([], s)
  | n + 1, off, s =>
    let r := readRegs l e n (off + 4) (readLeaves l e off s)
    (regWord l s e off :: r.1, r.2)

/-- RING_STAT_READ (R18): DROPS is returned and cleared. -/
def execRingStatRead (e : EngId) (ring : Fin 8) (s : State) : Host.Outcome State Fault Refusal :=
  onEngine e s fun s => s.modEng e (clearDrops ring.val)

/-- CHANNEL_STAT_READ (R18): the counts are returned and cleared. -/
def execChannelStatRead (e : EngId) (ch : Fin 4) (s : State) : Host.Outcome State Fault Refusal :=
  onEngine e s fun s => readLeaves .bar0 e (0x0F80 + 4 * ch.val) s

/-- REGISTER_WRITE_IGNORED (R17): a write to a field without behaviour of its own changes nothing. -/
def execRegisterWriteIgnored (_ : EngId) (_ : Nat) (_ : Word) (s : State) : Host.Outcome State Fault Refusal := .next s

/-! ## The mailbox window (R437) -/

/-- MBOX_CMD_WRITE: bytes written into MBOX_CMD; bytes past its end go nowhere. -/
def execMboxCmdWrite (e : EngId) (offset : Nat) (bytes : List Byte) (s : State) : Host.Outcome State Fault Refusal :=
  onEngine e s fun s => s.modEng e fun x =>
    { x with host := { x.host with mbox := { x.host.mbox with cmd := Memory.writes x.host.mbox.cmd offset (bytes.take (1024 - offset)) } } }

/-- MBOX_READY_CLEAR: the mailbox is released. -/
def execMboxReadyClear (e : EngId) (s : State) : Host.Outcome State Fault Refusal :=
  onEngine e s fun s => s.modEng e fun x =>
    { x with host := { x.host with mbox := { x.host.mbox with ready := false } } }

/-! ## SYS commands (R438, R446-R449) -/

/-- The supervisor's window (Table 15.17). -/
def supReg (s : State) (off : Nat) : Word :=
  match off with
  | 0x0000 => capZero s.part .sup (unitStep .sup s)
  | 0x0004 => capOne s.part false
  | 0x0008 =>
    pack [(s.engA.core.role, 28), (if twinPart s.part then s.engB.core.role else 0, 24),
          (if twinPart s.part then engCode s.power.steer else 0, 22), (bit s.sup.viewA.fenced, 21), (bit s.sup.viewB.fenced, 20),
          (s.sup.log.length, 0)]
  | _ => 0

/-- SYS.READ_REG (R447). -/
def sysReadRegSpec : CmdSpec :=
  { opcode := 0x0101, onActive := true, onStandby := true, onSup := true, mirrored := false, inMaint := true, inCul := true,
    needsSup := false, lenOk := lenIs 1, rsvdOk := fun ps => zeroBits ps 0 15 5, absent := neverAbsent,
    rangeErr := fun _ ps _ =>
      let off := field (par ps 0) 31 16
      let n := field (par ps 0) 4 0
      rangeIf (off % 4 != 0 || decide (n > 16) || decide (off + 4 * n > 0x10000)),
    judge := neverJudge,
    apply := fun c ps s =>
      let off := field (par ps 0) 31 16
      let n := field (par ps 0) 4 0
      match c.unit with
      | .sup => .now s ((List.range n).map fun i => supReg s (off + 4 * i))
      | .eng e =>
        let r := readRegs (chanLatch c.arrival.chan) e n off s
        .now r.2 r.1 }

/-- SYS.NOP (R448): every unit, every mode; the reply repeats the parameters. -/
def sysNopSpec : CmdSpec :=
  { opcode := 0x0105, onActive := true, onStandby := true, onSup := true, mirrored := false, inMaint := true, inCul := true,
    needsSup := false, lenOk := fun _ _ ps => decide (ps.length ≤ 1015), rsvdOk := fun _ => true, absent := neverAbsent,
    rangeErr := neverRange, judge := neverJudge, apply := fun _ ps s => .now s ps }

/-- The boot ROM of an engine in maintenance mode of cause 1 serves no rings (R470). -/
def romServes (c : Ctx) (s : State) : Bool := decide ((s.eng c.eng).core.role = 3 ∧ (s.eng c.eng).fw.maintCause = 1)

/-- The stated checks of a command of the host-channel setup (R419): not mirrored, executed by every engine but in
Cul-de-sac. -/
def setupSpec (op : BitVec 16) (len : Ctx → State → List Word → Bool) (rsvd : List Word → Bool)
    (range : Ctx → List Word → State → Option (List Word)) (judge : Ctx → List Word → State → Option (Status × List Word))
    (apply : Ctx → List Word → State → Applied) : CmdSpec :=
  { opcode := op, onActive := true, onStandby := true, onSup := false, mirrored := false, inMaint := true, inCul := false,
    needsSup := false, lenOk := len, rsvdOk := rsvd, absent := neverAbsent, rangeErr := range, judge := judge, apply := apply }

/-- A ring enabled or disabled (R449). -/
def setRing (ps : List Word) (q : Ring) : Ring :=
  if flag (par ps 0) 31 then
    { q with enabled := true, stopped := false, err := 0, sizeLog2 := field (par ps 0) 11 8, base := par ps 1 ++ par ps 2,
             hostIdx := 0, engineIdx := 0, seq := 0, posted := [] }
  else { q with enabled := false, posted := [] }

/-- SYS.SET_RING (R449). -/
def sysSetRingSpec : CmdSpec :=
  setupSpec 0x0103 (lenIs 3)
    (fun ps => zeroBits ps 0 30 12 && zeroBits ps 0 7 3
      && (flag (par ps 0) 31 || (zeroBits ps 0 11 8 && par ps 1 == 0)))
    (fun _ ps _ =>
      let size := field (par ps 0) 11 8
      rangeIf ((flag (par ps 0) 31 && decide (size < 6)) || !zeroBits ps 2 5 0))
    (fun c ps s =>
      let r := field (par ps 0) 2 0
      let q := (s.eng c.eng).ring r
      let own := decide (c.arrival.chan = .ring) && decide (c.arrival.via = c.unit)
      firstOf [statusIf (romServes c s) .state,
               statusIf (!flag (par ps 0) 31 && decide (r ≤ 1) && own) .state,
               statusIf (flag (par ps 0) 31 && q.enabled && !q.stopped) .state])
    (fun c ps s => .now (judgeH0 c.eng (s.modEng c.eng fun x => x.modRing (field (par ps 0) 2 0) (setRing ps))) [])

/-- The interrupt block as SYS.SET_IRQ sets it (R446): a signal held back for a bit that is disabled now is not due any more, and with
MOD_US 0 nothing is held back, so that those that are due are given. -/
def setIrq (ps : List Word) (q0 : IrqState) : IrqState :=
  let q := { q0 with enable := (par ps 0).setWidth 16, msi := flag (par ps 1) 1, pin := flag (par ps 1) 0, modUs := (par ps 2).toNat,
                     held := q0.held &&& (par ps 0).setWidth 6 }
  if q.modUs = 0 then
    let due := (List.range 6).filter fun b => q.held.getLsbD b
    { q with running := 0, held := 0, sent := if q.msi then q.sent ++ due else q.sent }
  else q

/-- SYS.SET_IRQ (R446). -/
def sysSetIrqSpec : CmdSpec :=
  setupSpec 0x0104 (lenIs 3)
    (fun ps => zeroBits ps 0 31 16 && zeroBits ps 1 31 2)
    (fun _ ps _ => rangeIf (decide ((par ps 2).toNat > 1000)))
    (fun c _ s => statusIf (romServes c s) .state)
    (fun c ps s => onSelf c (fun x => { x with host := { x.host with irq := setIrq ps x.host.irq } }) s)

/-- A MAC address in two words, high 16 bits first (Table 15.12). -/
def macOf (hi lo : Word) : BitVec 48 := (hi ++ lo).setWidth 48

/-- The group bit of a MAC address. -/
def groupAddr (m : BitVec 48) : Bool := m.getLsbD 40

/-- The command service as SYS.SET_MGMT sets it. -/
def setMgmt (e : EngId) (ps : List Word) (g : MgmtService) : MgmtService :=
  let n := field (par ps 0) 2 0
  let addr := macOf (par ps 1) (par ps 2)
  { g with cmdEn := flag (par ps 0) 31, allowAny := flag (par ps 0) 30,
           allowed := (List.range n).map fun k => macOf (par ps (3 + 2 * k)) (par ps (4 + 2 * k)),
           addr := if addr = 0 then fusedAddr e else addr }

/-- SYS.SET_MGMT (R438). -/
def sysSetMgmtSpec : CmdSpec :=
  setupSpec 0x0106 (fun _ _ ps => decide (ps.length = 3 + 2 * field (par ps 0) 2 0))
    (fun ps =>
      let n := field (par ps 0) 2 0
      zeroBits ps 0 29 3 && zeroBits ps 1 31 16 && (!flag (par ps 0) 30 || n == 0)
        && (List.range n).all fun k => zeroBits ps (3 + 2 * k) 31 16)
    (fun _ ps _ =>
      let n := field (par ps 0) 2 0
      rangeIf (decide (n > 4) || groupAddr (macOf (par ps 1) (par ps 2))
        || (List.range n).any fun k => groupAddr (macOf (par ps (3 + 2 * k)) (par ps (4 + 2 * k)))))
    neverJudge
    (fun c ps s => onSelf c (fun x => { x with host := { x.host with mgmt := setMgmt c.eng ps x.host.mgmt } }) s)

end Sys2Proof.Machine
end

