-- ==== Sys2Proof/Machine/Commands.lean ====
section
/-! DEFINITION. The table of opcodes (Table 15.6, R450): every command packet the module recognises. -/

namespace Sys2Proof.Machine

/-- The SYS group. -/
def sysSpecs : List CmdSpec :=
  [sysReadRegSpec, sysSetPaceSpec, sysSetRingSpec, sysSetIrqSpec, sysNopSpec, sysSetMgmtSpec]

/-- The PORT group. -/
def portSpecs : List CmdSpec :=
  [portSetModeSpec, portSetLinkTimersSpec, portSetTimeLevelsSpec, portSetAhnudEtypeSpec, portSetCutThroughSpec]

/-- The PARSE group. -/
def parseSpecs : List CmdSpec :=
  [parseSetPortSpec, parseWriteNodeSpec, parseReadNodeSpec, parseCommitSpec, parseLoadDefaultsSpec]

/-- The RULE group. -/
def ruleSpecs : List CmdSpec :=
  [ruleWriteEntrySpec, ruleReadEntrySpec, ruleWriteProfileSpec, ruleClearBankSpec, ruleFlipBankSpec, ruleSetOrgSpec, 
   ruleLoadDefaultsSpec, ruleSetPortSpec, ruleWriteRewriteSpec, ruleWriteMeterSpec, ruleSetMirrorSpec]

/-- The FWD group. -/
def fwdSpecs : List CmdSpec :=
  [fwdAddSpec, fwdDeleteSpec, fwdLookupSpec, fwdFlushSpec, fwdSetLearnSpec, fwdSetAgeingSpec, fwdSetVlanSpec, 
   fwdWriteMcastSpec, fwdSetSpreadSpec, fwdWriteIndirectSpec, fwdSetMcResidueSpec]

/-- The QUEUE group. -/
def queueSpecs : List CmdSpec :=
  [queueSetClassSpec, queueSetPortFcSpec, queueSetMinSpec, queueSetAgeSpec, queueSetBufferModeSpec, 
   queueGetOccupancySpec]

/-- The SCHED group. -/
def schedSpecs : List CmdSpec :=
  [schedSetClassSpec, schedSetPortShaperSpec, schedWriteGclSpec, schedCommitGclSpec, schedSetPreemptSpec, 
   schedSetLaunchSpec, schedSetRedundancySpec]

/-- The TIME group. -/
def timeSpecs : List CmdSpec :=
  [timeGetSpec, timeSetSpec, timeStepSpec, timeSetBoardDelaySpec, timeSetEvtinSpec, timeReadEventsSpec, 
   timeSchedEdgeSpec, timeSetDomainSpec, timeSetPtpPortSpec, timeSetTcSpec, timeSetAsymSpec, timeCalAsymSpec, 
   timeSwitchDomainSpec, timePutSampleSpec, timeAlignOutputsSpec]

/-- The REF group. -/
def refSpecs : List CmdSpec :=
  [refSetInputSpec, refSetSlotSpec, refForceSpec, refGetStatusSpec, refSetOscSpec]

/-- The OUT group. -/
def outSpecs : List CmdSpec :=
  [outSetSynthSpec, outSetClkoutSpec, outSetPpsoutSpec]

/-- The TWIN group. -/
def twinSpecs : List CmdSpec :=
  [twinGetStateSpec, twinSwapRolesSpec, twinSetSwapSpec, twinRejoinSpec, twinFenceSpec]

/-- The FAULT group. -/
def faultSpecs : List CmdSpec :=
  [faultSetWindowsSpec, faultSetEventsSpec, faultGetFirstSpec, faultActNowSpec, faultInjectSpec, faultInjectEccSpec, 
   faultClearInjSpec, faultReleaseSpec, faultReadLogSpec]

/-- The CAL group. -/
def calSpecs : List CmdSpec :=
  [calSetSpec, calGetStatusSpec, calRunSpec, calRepairSpec]

/-- The STATS group. -/
def statsSpecs : List CmdSpec :=
  [statsReadSpec, statsClearSpec, statsSetChainSpec, statsSetSnapshotSpec, statsSnapNowSpec, statsSetSamplerSpec]

/-- The FW group. -/
def fwSpecs : List CmdSpec :=
  [fwGetInfoSpec, fwWriteImageSpec, fwVerifyImageSpec, fwSelectSlotSpec, fwRestartSpec]

/-- Every command of Table 15.6, in opcode order. -/
def allSpecs : List CmdSpec :=
  sysSpecs ++ portSpecs ++ parseSpecs ++ ruleSpecs ++ fwdSpecs ++ queueSpecs ++ schedSpecs ++ timeSpecs ++ refSpecs ++ outSpecs ++ twinSpecs ++ faultSpecs ++ calSpecs ++ statsSpecs ++ fwSpecs

/-- The command of an opcode, if Table 15.6 has it (check 7). -/
def specOf (op : BitVec 16) : Option CmdSpec := allSpecs.find? fun sp => sp.opcode == op

end Sys2Proof.Machine
end

