-- ==== Sys2Proof/Machine/Failover.lean ====
section
/-! DEFINITION. Heartbeats and the supervisor's judgement, the switchover, the planned swap, commits on their way to the
standby, the ends of a copy, and the lock windows (R39-R41, R51, R328-R334, R340-R346, R467, R506). Steps 2 to 5 of Table
11.3 are one event here: the judgement that starts the switchover. -/

namespace Sys2Proof.Machine

/-! ## Commits at the standby (R340, R341) -/

/-- A commit of the active applied on an engine: it carries a command that is mirrored (R419, R340). -/
def applyCommit (d : EngId) (s : State) (c : Commit) : State :=
  match specOf c.opcode with
  | some sp => if sp.mirrored then applyMirror sp d c s else s
  | none => s

/-- Every commit whose marker is on the link, applied by a standby that is current (R340). -/
def applyInFlight (d : EngId) (s : State) : State :=
  let cs := s.fof.commits
  let s1 := { s with fof := { s.fof with commits := [] } }
  if s.fof.up && (s.eng d).twin.copy == 2 && (s.eng d).serving then cs.foldl (applyCommit d) s1 else s1

/-- A commit that changes the parse graph. -/
def graphCommit (c : Commit) : Bool := c.opcode == 0x0301 || c.opcode == 0x0304 || c.opcode == 0x0204

/-- The commits on the link up to the last that changes the parse graph, and those after it. -/
def splitGraph : List Commit → List Commit × List Commit
  | [] => ([], [])
  | c :: rest =>
    let (a, b) := splitGraph rest
    if graphCommit c || !a.isEmpty then (c :: a, b) else ([], c :: rest)

/-- A commit of the parse graph is applied by both engines between the same two frames of each port (R136): a standby that is current
applies it, with the commits before it, in the step in which the active does (DEDUCED, log 139). -/
def tieGraph (s : State) : State :=
  match s.standby with
  | none => s
  | some d =>
    let (now, later) := splitGraph s.fof.commits
    if now.isEmpty || !(s.fof.up && (s.eng d).twin.copy == 2 && (s.eng d).serving) then s
    else
      let acked := now.map fun c => c.gen
      now.foldl (applyCommit d) { s with fof := { s.fof with commits := later, acks := s.fof.acks ++ acked } }

/-- COMMIT_MARKER_RECEIVED (R340): the oldest commit on the link is applied whole and acknowledged. -/
def execCommitMarkerReceived (s : State) : Host.Outcome State Fault Refusal :=
  onTwin s fun s =>
    match s.standby, s.fof.commits with
    | some d, c :: rest =>
      if s.fof.up && (s.eng d).twin.copy == 2 && (s.eng d).serving then
        applyCommit d { s with fof := { s.fof with commits := rest, acks := s.fof.acks ++ [c.gen] } } c
      else s
    | _, _ => s

/-- An acknowledgement of a generation reaches the active. -/
def ackWaiting (g : Nat) (w : Waiting) : Waiting := if w.ackOf = some g then { w with ackOf := none, mirrored := true } else w

/-- COMMIT_ACK_RECEIVED (R341). -/
def commitAck (s : State) : State :=
  match s.active, s.fof.acks with
  | some a, g :: rest =>
    flushWaiting a (({ s with fof := { s.fof with acks := rest } } : State).modEng a fun x =>
      { x with host := { x.host with waiting := x.host.waiting.map (ackWaiting g) } })
  | _, _ => s

/-- The oldest generation whose acknowledgement an engine awaits. -/
def oldestAck (x : Engine) : Option Nat := (x.host.waiting.filterMap fun w => w.ackOf).head?

/-- COPY_TIMEOUT (R341): no acknowledgement 10 ms after a marker, with the standby in its role and the link up. -/
def copyTimeout (s : State) : State :=
  match s.active, s.standby with
  | some a, some _ =>
    match oldestAck (s.eng a) with
    | some g =>
      if s.fof.up then
        let s1 := { s with fof := { s.fof with commits := [], acks := [] } }
        releaseAcks a (setCopy 5 (s1.modEng a fun x => x.raise 0x0C 0x03 1 (word g)))
      else s
    | none => s
  | _, _ => s

/-! ## Copies (R342) -/

/-- The commits of a journal that follow a generation, oldest first; none where the journal no longer holds it. -/
def journalFrom (g : Nat) (j : List Commit) : Option (List Commit) :=
  if j.any fun c => c.gen == g then some (j.takeWhile fun c => c.gen != g).reverse else none

/-- The digest windows begin anew at the active's device time (DESIGN CHOICE, log 32). -/
def restartDigests (now : Nat) (x : Engine) : Engine :=
  { x with twin := { x.twin with digestFrames := [], digestClosed := [], digestBoundary := now, digestFrom := now } }

/-- A copy of the active `a` has reached the standby `d` whole: by the journal, or as a full copy. Scheduled swaps are counted from the
first such moment after the standby's start (R346). A step or an edge committed while the link was down is replayed like any other command
of the journal: it stands pending on the standby although its APPLY_AT or AT may have passed (R74; DESIGN CHOICE, log 160). -/
def endCopyRun (a d : EngId) (s : State) : State :=
  let x := s.eng a
  let y := s.eng d
  let gens := s.fof.commits.map fun c => c.gen
  let s0 := { s with fof := { s.fof with commits := [], acks := s.fof.acks ++ gens } }
  let s1 := match if y.twin.copy = 1 then journalFrom y.host.cfgGen x.twin.journal else none with
    | some cs => cs.foldl (applyCommit d) s0
    | none => (s0.setEng d (copyEngine s.part d x y)).modEng a fun x => { x with rules := { x.rules with changed := [] } }
  let now := x.time.now16
  let s2 := (setCopy 2 s1).modBoth fun z => restartDigests now { z with twin := { z.twin with everCurrent := true } }
  let s3 := if !y.twin.everCurrent && s2.sup.swapPeriodS != 0 then
      ({ s2 with sup := { s2.sup with swapNext := some (now + s2.sup.swapPeriodS * s16), swapRetries := 0 } } : State)
    else s2
  twinEvent a 9 0 d 0 0 0 s3

/-- FULL_COPY_END (R342): a copy that runs ends with the standby current. -/
def execFullCopyEnd (s : State) : Host.Outcome State Fault Refusal :=
  onTwin s fun s =>
    match s.active, s.standby with
    | some a, some d =>
      let c := (s.eng d).twin.copy
      if s.fof.up && (c == 1 || c == 5) && (s.eng a).serving then endCopyRun a d s else s
    | _, _ => s

/-! ## Copies of frames -/

/-- The copies an engine has stored and that pass a test discarded: queued, in residue, and those of frames still
arriving. -/
def dropWhere (part : Part) (e : EngId) (bad : Copy → Bool) (x : Engine) : Engine :=
  let keep (l : List Copy) : List Copy := l.filter fun c => !bad c
  let q := x.egress.queues.flatMap fun k => k.2.filter bad
  let a := x.buf.arriving.flatMap fun k => k.2.copies.filter bad
  let left := (x.egress.queues.map fun k => (k.1, keep k.2)).filter fun k => !k.2.isEmpty
  let (r, x1) := takeResidues bad { x with egress := { x.egress with queues := left } }
  let arr := x1.buf.arriving.map fun k => (k.1, { k.2 with copies := keep k.2.copies })
  let x2 : Engine := x1.modBuf fun b => { b with arriving := arr }
  (q ++ r ++ a).foldl (fun y c => discardCopy part e 11 c y) x2

/-- Every copy an engine has stored discarded. -/
def dropQueues (part : Part) (e : EngId) (x : Engine) : Engine := dropWhere part e (fun _ => true) x

/-- Frames lost in a switch, counted for their egress port on the engine that takes over (R332, R345). -/
def countLost (p n : Nat) (x : Engine) : Engine := x.bumpN (portCtr p 67) n

/-! ## Taking over (Table 11.3 steps 2 to 5) -/

/-- The frames lost in the failed engine, per egress queue, from what the standby kept in Side Street (R332). -/
def shadowLoss (t : TwinState) : List (Nat × Nat) :=
  (t.shadowDecided.filter fun k => decide (k.2 > t.shadowTime)).foldl (fun m k => put 0 k.1 (look 0 k.1 m + 1) m) t.shadowOcc

/-- A MAC control frame with every timer at 0 for the partner of an up port (R228). -/
def releasePartner (x : Engine) (p : Nat) : Engine :=
  let m := (x.fc p).mode
  if (x.port p).up && (m == 1 || m == 2) then
    x.putCtl p { pfc := m == 2, vec := if m = 2 then 0xFF else 0, quanta := 0 }
  else x

/-- Sequence numbers of a new active, moved past every number its predecessor can have sent (R262). -/
def skipSeqs (g : EgressState) : EgressState :=
  { g with pairs := g.pairs.map fun q => { q with seq := (q.seq + 16384) % 65536 },
           proxies := g.proxies.map fun q => { q with seq := (q.seq + 16384) % 65536 } }

/-- The engine that has been granted control: no frame starts before step 8, partners are released, its digest windows go
on from the last one compared. -/
def takeControl (now : Nat) (x : Engine) : Engine :=
  let core := { x.core with mayStart := false }
  let twin := { x.twin with sync := 0, tbPhaseErr := 0, setDue := false, storing := false, shadowOcc := [], shadowDecided := [],
                            digestNumber := x.twin.digestWindow }
  let y : Engine := { x with core := core, twin := twin, egress := skipSeqs x.egress }
  restartDigests now ((List.range 34).foldl releasePartner y)

/-- STATE_STALE (R343): a new active behind the generation it has seen or was told of. -/
def staleTakeover (dst : EngId) (seen : Nat) (s : State) : State :=
  twinEvent dst 3 0 dst 0 0 seen (s.modEng dst fun x => x.raise 0x0C 0x04 1 (word x.host.cfgGen))

/-- No event output waits to be made good (R97). -/
def clearMissed (t : TimeState) : TimeState := { t with evtOut := t.evtOut.map fun q => { q with missed := false } }

/-- The grant (Table 11.3 steps 4 and 5): the standby `dst` becomes the active, and the aligner takes every output. `lost` is
what has been counted so far. -/
def grantControl (cause : Nat) (src dst : EngId) (lost : Nat) (s : State) : State :=
  let y := s.eng dst
  let seen := max y.twin.cfgGenSeen s.fof.announced
  let stale := decide (y.host.cfgGen < seen)
  let s1 := if stale then staleTakeover dst seen s else s
  let s2 := setRole dst 1 s1
  let s3 := s2.modEng dst (takeControl y.time.now16)
  let s4 := s3.modBoth fun x => { x with time := clearMissed x.time }
  let run : SwitchRun := { cause := cause, src := src, dst := dst, step := 5, lost := lost, stale := stale }
  { s4 with sup := { s4.sup with switch := some run }, power := { s4.power with alignerHolds := true },
            fof := { s4.fof with announced := (s4.eng dst).host.cfgGen } }

/-- A switchover starts (R331): the commits that are on the link are applied, the frames lost in the failed engine are
counted, the standby is granted control. -/
def startSwitch (cause : Nat) (src dst : EngId) (s : State) : State :=
  let s1 := applyInFlight dst (endPlan .state (activeStops src s))
  let s2 := s1.modEng dst fun y => freeSync { y with twin := { y.twin with storing := true } }
  let loss := shadowLoss (s2.eng dst).twin
  let s3 := s2.modEng dst fun y => loss.foldl (fun z k => countLost (k.1 / 10) k.2 z) y
  setCopy 0 (grantControl cause src dst ((loss.map fun k => k.2).sum) s3)

/-! ## Heartbeats (R328, Tables 11.1 and 11.2) -/

/-- The engine Table 11.2 is about: the one that has given up, else the active. -/
def watched (s : State) : Option EngId :=
  if s.engA.core.role = 5 then some .a
  else if twinPart s.part && s.engB.core.role == 5 then some .b
  else s.active

/-- The Fofaene beats as the standby sees them: absent while the link is down (R347). -/
def fofSeen (d : EngId) (s : State) : Beat := if s.fof.up then (s.sup.view d).fofBeat else .absent

/-- The supervisor's judgement of the active (Table 11.2). `waited` says that the 30 us of the third row have passed. -/
def judgeActive (waited : Bool) (s : State) : State :=
  if !s.sup.sound || s.sup.switch.isSome then s
  else match watched s, s.standby with
    | some e, some d =>
      if e = d || !eligible s d then s
      else match (s.sup.view e).beat, fofSeen d s with
        | .giveUp, .giveUp => startSwitch 1 e d s
        | .giveUp, .absent => startSwitch 1 e d s
        | .giveUp, _ => if waited then startSwitch 1 e d s else s
        | .absent, .absent => startSwitch 2 e d s
        | _, _ => s
    | _, _ => s

/-- A standby whose sideband beat is absent is made not eligible and is reset (R506). -/
def standbySilent (d : EngId) (s : State) : State :=
  resetOrFence d (releaseActive { s with sup := s.sup.modView d fun v => { v with eligible := false } })

/-- The grant of a planned swap (R345, Table 11.3 step 4), once the supervisor holds the standby's report. -/
def grantSwap (s : State) : State :=
  match s.sup.switch with
  | some r =>
    if r.step = 3 ∧ s.sup.sound = true ∧ (s.eng r.dst).core.role = 2 ∧ (s.eng r.dst).running = true then
      grantControl r.cause r.src r.dst r.lost s
    else s
  | none => s

/-- A beat on the sideband to the supervisor. An engine sends GIVE_UP from ROLE 0x5 alone (R327); the standby's report comes with its
beats (R328). -/
def beatToSup (e : EngId) (giveUp : Bool) (s : State) : State :=
  let code : Beat := if giveUp && (s.eng e).core.role == 5 then .giveUp else .alive
  let s1 := judgeActive false { s with sup := s.sup.modView e fun v => { v with beat := code } }
  if code = .alive ∧ (s1.sup.switch.map fun r => r.dst) = some e then grantSwap s1 else s1

/-- SIDEBAND_BEAT (R38, R328, R467). -/
def rowSidebandBeat (e : EngId) (toSup giveUp : Bool) (s : State) : Host.Outcome State Fault Refusal :=
  onEngine e s fun s =>
    if !s.sup.running || !(s.eng e).running then s
    else if toSup then beatToSup e giveUp s
    else s.modEng e fun x => { x with core := { x.core with supOk := true, supRestart := false } }

/-- A beat on the Fofaene link reaches an engine; GIVE_UP at the standby is step 2 of Table 11.3. -/
def beatOnFof (e : EngId) (giveUp : Bool) (s : State) : State :=
  let code : Beat := if giveUp && (s.eng (other e)).core.role == 5 then .giveUp else .alive
  let s1 := s.modEng e fun x => { x with core := { x.core with fofUp := true } }
  if s1.standby = some e then
    let s2 := { s1 with sup := s1.sup.modView e fun v => { v with fofBeat := code } }
    let s3 := if code = .giveUp then s2.modEng e fun y => freeSync { y with twin := { y.twin with storing := true } } else s2
    judgeActive false s3
  else s1

/-- FOFAENE_BEAT (R38, R328); a beat brings back a link that was down for want of beats (R347). -/
def rowFofaeneBeat (e : EngId) (giveUp : Bool) (s : State) : Host.Outcome State Fault Refusal :=
  onTwin s fun s0 =>
    if (s0.eng e).running && (s0.eng (other e)).running then
      let s := if s0.fof.beatLost then fofBack s0 else s0
      if s.fof.up then beatOnFof e giveUp s else s
    else s0

/-- The sideband beat of an engine is absent at the supervisor. -/
def lossAtSup (e : EngId) (s : State) : State :=
  let s1 := { s with sup := s.sup.modView e fun v => { v with beat := .absent } }
  if s1.standby = some e then (if s1.sup.sound then standbySilent e s1 else s1) else judgeActive false s1

/-- SUP_FAULT reported by an engine that runs. -/
def supFault (x : Engine) : Engine := if x.running then x.raise 0x0E 0x01 2 0 else x

/-- The supervisor's beat is absent at an engine: a supervisor fault, which every running engine reports when it begins (R39), but
for an announced restart (R467). -/
def lossAtEngine (e : EngId) (s : State) : State :=
  let s1 := s.modEng e fun x => { x with core := { x.core with supOk := false } }
  if (s.eng e).core.supRestart || s.sup.faulty then s1
  else ({ s1 with sup := { s1.sup with faulty := true } } : State).modBoth supFault

/-- The Fofaene beats are absent at an engine. Where the other engine holds its role and is ALIVE on its sideband, that is the loss of the
link (Table 11.2, R347). -/
def lossOnFof (e : EngId) (s : State) : State :=
  let s1 := s.modEng e fun x => { x with core := { x.core with fofUp := false } }
  let s2 := if s1.standby = some e then judgeActive false { s1 with sup := s1.sup.modView e fun v => { v with fofBeat := .absent } } else s1
  let o := s2.eng (other e)
  let alive := (s2.sup.view (other e)).beat == .alive && o.running && (o.core.role == 1 || o.core.role == 2)
  if s2.fof.up && s2.active.isSome && s2.standby.isSome && s2.sup.switch.isNone && alive then
    let s3 := fofDown s2
    { s3 with fof := { s3.fof with beatLost := true } }
  else s2

/-- HEARTBEAT_LOSS (R38): three beats missed on a path. -/
def rowHeartbeatLoss (p : BeatPath) (s : State) : Host.Outcome State Fault Refusal :=
  match p with
  | .toSup e => onEngine e s fun s => if s.sup.running then lossAtSup e s else s
  | .toEng e => onEngine e s fun s => if (s.eng e).running then lossAtEngine e s else s
  | .fof e => onTwin s fun s => if (s.eng e).running then lossOnFof e s else s

/-- GIVE_UP_WAIT_EXPIRY (Table 11.2). -/
def rowGiveUpWaitExpiry (s : State) : Host.Outcome State Fault Refusal := onTwin s (judgeActive true)

/-! ## The supervisor's own faults (R39-R41, R467) -/

/-- SUPERVISOR_FAULT (R39): a comparator mismatch or a watchdog expiry. -/
def execSupervisorFault (_ : SupFaultCause) (s : State) : Host.Outcome State Fault Refusal :=
  .next (if s.sup.running && !s.sup.faulty then
    ({ s with sup := { s.sup with faulty := true } } : State).modBoth supFault else s)

/-- A given-up engine, or one whose reset has waited, that the steering is not on (R348). -/
def resetWaiting (e : EngId) (s : State) : State :=
  let due := (s.eng e).core.role == 5 || (s.sup.view e).resetPending
  if due && s.power.steer != e then resetOrFence e s else s

/-- A standby found silent when the supervisor recovers. -/
def recoverStandby (s : State) : State :=
  match s.standby with
  | some d => if (s.sup.view d).beat = .absent then standbySilent d s else s
  | none => s

/-- The owner of the front found in Cul-de-sac after an F3, given up, or silent on both paths (Table 11.2), when the supervisor recovers
(R41). -/
def recoverOwner (s : State) : State :=
  let e := s.power.steer
  let x := s.eng e
  let silent := (s.sup.view e).beat == .absent
  match s.standby with
  | some d =>
    if e ≠ d && eligible s d && s.sup.switch.isNone
        && ((x.core.role == 4 && !s.power.f4Held) || x.core.role == 5
          || (x.core.role == 1 && silent && fofSeen d s == .absent)) then
      startSwitch (if silent then 2 else 1) e d s
    else s
  | none => s

/-- SUPERVISOR_RECOVERY (R40, R41). -/
def recoverSup (s : State) : State :=
  let s1 := { s with sup := { s.sup with faulty := false } }
  let s2 := judgeStarted .b (judgeStarted .a (reportRoles s1))
  if twinPart s1.part then judgeGrants (recoverOwner (recoverStandby (resetWaiting .b (resetWaiting .a s2)))) else judgeGrants s2

/-- SUPERVISOR_RECOVERY. -/
def rowSupervisorRecovery (s : State) : Host.Outcome State Fault Refusal :=
  .next (if s.sup.running && s.sup.faulty then recoverSup s else s)

/-- SUPERVISOR_RESTART_TIMEOUT (R467): 500 ms after a restart's announcement R39 applies. -/
def execSupervisorRestartTimeout (s : State) : Host.Outcome State Fault Refusal :=
  .next (if s.engA.core.supRestart || s.engB.core.supRestart then
    let due (x : Engine) : Engine :=
      if x.core.supRestart then supFault { x with core := { x.core with supRestart := false, supOk := false } } else x
    ({ s with sup := { s.sup with faulty := true } } : State).modBoth due
  else s)

/-- FOF_LINK_DOWN (R347). -/
def linkDown (s : State) : State :=
  let s1 := fofDown s
  judgeActive false { s1 with fof := { s1.fof with beatLost := false } }

/-! ## The rest of Table 11.3 -/

/-- A run whose new active still holds its role: ROLE 0x2 until the grant of a planned swap. -/
def runHolds (r : SwitchRun) (s : State) : Bool := (s.eng r.dst).core.role == (if r.step = 3 then 2 else 1) && (s.eng r.dst).running

/-- A switch whose new active is lost ends. -/
def endRun (s : State) : State :=
  { s with sup := { s.sup with switch := none }, power := { s.power with alignerHolds := false } }

/-- The frames of an engine whose head has left on a front lane, by egress port: those cut off when steering moves. -/
def leaving (x : Engine) : List Nat :=
  (List.range 32).flatMap fun p =>
    let g := x.eg p
    (g.tx.toList ++ g.cut.toList).filterMap fun t =>
      match t.copy with
      | some c => if t.begun && decide ((x.frame c.frame).map (fun f => f.ingress) ≠ some 63) then some p else none
      | none => none

/-- A transmission that ends where the steering has moved: no port has gone down, so neither counter of R198 advances. -/
def cutAway (part : Part) (e : EngId) (p : Nat) (x : Engine) : Engine :=
  let g := x.eg p
  (g.tx.toList ++ g.cut.toList).foldl (fun y t => match t.copy with
      | some c => if t.begun then endCopy part e p t c 4 y else discardCopy part e 11 c y
      | none => y)
    (x.modEgPort p fun g => { g with tx := none, cut := none, ctl := [] })

/-- The old engine when the steering leaves it: frames on the lanes are cut off (R198), its queues are discarded. -/
def steeredAway (part : Part) (e : EngId) (x : Engine) : Engine :=
  dropQueues part e ((List.range 32).foldl (fun y p => cutAway part e p y) x)

/-- A port whose negotiation or training runs is restarted by the new active (R110). -/
def restartPort (x : Engine) (p : Nat) : Engine :=
  let q := x.port p
  if !q.up && (q.anState == 1 || (q.anState == 2 && q.cause == 7)) then restartAn p x else x

/-- The steering moves (Table 11.3 step 6). In a swap, frames cut off are lost (R345). -/
def moveSteering (r : SwitchRun) (s : State) : State :=
  let x := s.eng r.src
  let cut := if r.cause = 3 ∨ r.cause = 4 then leaving x else []
  let s1 := s.modEng r.src (steeredAway s.part r.src)
  let s2 := setSteer r.dst s1
  let s3 := s2.modEng r.dst fun y => (List.range 32).foldl restartPort (cut.foldl (fun z p => countLost p 1 z) y)
  let run : SwitchRun := { r with step := 6, lost := r.lost + cut.length }
  let s4 := { s3 with sup := { s3.sup with switch := some run } }
  if x.core.role = 5 ∨ x.core.role = 1 ∨ (s.sup.view r.src).resetPending = true then resetOrFence r.src s4 else s4

/-- STEERING_MOVE_DONE (R33, R331, R348): the steering of a planned swap not granted yet follows its grant; while the
supervisor is faulted or restarting the switches hold their position (R39,
R40). -/
def rowSteeringMoveDone (s : State) : Host.Outcome State Fault Refusal :=
  onTwin s fun s0 =>
    let s := grantSwap s0
    match s.sup.switch with
    | none => s
    | some r => if !runHolds r s then endRun s else if r.step = 5 && s.sup.sound then moveSteering r s else s

/-- What the aligner's measurement does to one clock output of the new active (R334): a difference above 50 ps leaves it
misaligned. -/
def handClk (diff : Int) (k : ClkOut) : ClkOut :=
  if k.enable && decide (diff.natAbs > 50) then { k with misaligned := true } else k

/-- As `handClk`, for a pulse output: its phase moves by the difference (R320, R334). -/
def handPps (diff : Int) (k : PpsOut) : PpsOut :=
  if k.enable && decide (diff.natAbs > 50) then
    { k with misaligned := true, offset := wrapOffset k.rate (k.offset * 256 + diff * 65536 / 1000) / 256 }
  else k

/-- Every clock and pulse output handed to the new active. `diffs` is the aligner's continuation of each less the new
active's output, in ps: the clock outputs first. -/
def handOutputs (diffs : Vector Int 12) (x0 : Engine) : Engine :=
  let x := alignNow x0
  let clks := Vector.ofFn fun i : Fin 8 => handClk diffs[i.val] x.refs.clks[i]
  let pps := Vector.ofFn fun i : Fin 4 => handPps diffs[8 + i.val] x.refs.pps[i]
  let far := ((List.range 8).filter fun i => (x.refs.clks.toList[i]?.map fun k => k.enable).getD false && decide ((vget diffs 0 i).natAbs > 50)).length
    + ((List.range 4).filter fun i => (x.refs.pps.toList[i]?.map fun k => k.enable).getD false && decide ((vget diffs 0 (8 + i)).natAbs > 50)).length
  ({ x with refs := { x.refs with clks := clks, pps := pps } } : Engine).bumpN 82 far

/-- An event output taken by the new active (R97): an edge that fell in the gap is made now where the ball differs from the
schedule, and a pulse that was over already is made 8 ns wide. -/
def handEdge (dst : EngId) (s : State) (n : Nat) : State :=
  let x := s.eng dst
  let q := vget x.time.evtOut evtOutReset n
  let m := 1#8 <<< n
  let ball := s.power.evtBalls.getLsbD n
  let past := q.missed && !q.level && !ball
  if ball ≠ q.level ∨ past then
    let lvl := q.level || past
    let fall := if past then some (x.time.now16 + 8 * ns16) else q.fall
    let t := { x.time with edgeLate := x.time.edgeLate ||| m }
    let y := (Engine.edge { x with time := t } (edgeIrqLevel x.time) true 10).bump (28 + n)
    let z := modEvtOut n (fun r => { r with level := lvl, fall := fall, missed := false }) y
    { s.setEng dst z with power := { s.power with evtBalls := if lvl then s.power.evtBalls ||| m else s.power.evtBalls &&& ~~~m } }
  else s.setEng dst (modEvtOut n (fun r => { r with missed := false }) x)

/-- The aligner hands every output over (Table 11.3 step 7). -/
def handOver (r : SwitchRun) (diffs : Vector Int 12) (s : State) : State :=
  let run : SwitchRun := { r with step := 7 }
  let s1 := { s with sup := { s.sup with switch := some run }, power := { s.power with alignerHolds := false } }
  (List.range 8).foldl (handEdge r.dst) (s1.modEng r.dst (handOutputs diffs))

/-- OUTPUT_ALIGNER_HANDOVER (R334). -/
def execOutputAlignerHandover (diffs : Vector Int 12) (s : State) : Host.Outcome State Fault Refusal :=
  onTwin s fun s =>
    match s.sup.switch with
    | none => s
    | some r => if !runHolds r s then endRun s else if r.step = 6 then handOver r diffs s else s

/-- The captures of every input that the new active can deliver now (R94). -/
def deliverCaptures (e : EngId) (x : Engine) : Engine :=
  (List.range 8).foldl (fun y n =>
    (List.range (vget y.time.evtIn evtInReset n).queue.length).foldl (fun z _ => deliverCapture e n z) y) x

/-- The engine that completes a takeover: it may start frames, and counts and reports the switch. -/
def completed (swap : Bool) (r : SwitchRun) (x : Engine) : Engine :=
  let last : LastSwitch := { cause := r.cause, newOwner := engCode r.dst, stale := r.stale, lost := r.lost }
  let y : Engine := { x with core := { x.core with mayStart := true }, twin := { x.twin with last := last } }
  deliverCaptures r.dst (y.bump (if swap then 80 else 79))

/-- The reply of TWIN.SWAP_ROLES (Table 11.7). -/
def swapReply (plan : SwapPlan) (r : SwitchRun) (s : State) : List Word :=
  stampWords { t := plan.swAt, qual := (s.eng r.dst).now.qual } ++ [word r.lost, word (engCode r.dst)]

/-- The next scheduled swap is a period away from a swap or switchover (R346). -/
def nextSchedule (r : SwitchRun) (s : State) : State :=
  let next := if s.sup.swapPeriodS = 0 then none else some ((s.eng r.dst).time.now16 + s.sup.swapPeriodS * s16)
  { s with sup := { s.sup with swapNext := next, swapRetries := 0 } }

/-- A swap is over: its command replies. -/
def endSwap (r : SwitchRun) (s : State) : State :=
  match s.sup.swap with
  | none => s
  | some plan =>
    let s1 := ({ s with sup := { s.sup with swap := none } } : State).modBoth fun x =>
      { x with twin := { x.twin with swapPending := false, swapAt := none } }
    let body := swapReply plan r s1
    completeSup .swap .ok body (complete .b .swap .ok (fun _ _ => body) (complete .a .swap .ok (fun _ _ => body) s1))

/-- The gap ends (Table 11.3 step 8). -/
def endSwitch (r : SwitchRun) (s : State) : State :=
  let swap := decide (r.cause = 3 ∨ r.cause = 4)
  let s1 := { s with sup := { s.sup with switch := none } }
  let s2 := s1.modBoth fun x => { x with twin := { x.twin with switches := x.twin.switches + 1 } }
  let s3 := s2.modEng r.dst (completed swap r)
  endSwap r (nextSchedule r (twinEvent r.dst (if swap then 2 else 1) r.cause r.dst 0 0 r.lost s3))

/-- SWITCHOVER_COMPLETE (R331). -/
def switchoverComplete (s : State) : State :=
  match s.sup.switch with
  | none => s
  | some r => if !runHolds r s then endRun s else if r.step = 7 then judgeGrants (endSwitch r s) else s

/-! ## Planned swaps (R344-R346) -/

/-- A scheduled swap that cannot take place now (R346): tried again every 60 s for 1 h, then skipped. -/
def failSchedule (s : State) : State :=
  if s.sup.swapRetries < 60 then { s with sup := { s.sup with swapRetries := s.sup.swapRetries + 1 } }
  else
    let s1 := { s with sup := { s.sup with swapNext := s.sup.swapNext.map fun t => t + s.sup.swapPeriodS * s16, swapRetries := 0 } }
    s1.modEng (s.active.getD s.power.steer) fun x => (x.bump 81).raise 0x0C 0x06 1 0

/-- A planned swap abandoned at a later judgement (R345). -/
def abandonSwap (plan : SwapPlan) (st : Status) (s : State) : State :=
  let s1 := match s.standby with
    | some d =>
      if (s.eng d).twin.swapPending then
        s.modEng d fun y => dropQueues s.part d { y with twin := { y.twin with storing := false } }
      else s
    | none => s
  let s2 := endPlan st s1
  if plan.commanded then s2 else failSchedule s2

/-- When the preparation of a swap begins: PREP_US before SW_AT (R345). -/
def prepareAt (plan : SwapPlan) : Nat := plan.swAt - plan.prepUs * us16

/-- The preparation of a swap begins, after its conditions have been judged again (R345). -/
def prepareFrom (plan : SwapPlan) (s1 : State) : State :=
  match swapRefusal s1, s1.active, s1.standby with
  | none, some a, some d =>
    let ready : SwapPlan := { plan with prepared := true }
    let s2 := ({ s1 with sup := { s1.sup with swap := some ready } } : State).modBoth fun x =>
      { x with twin := { x.twin with swapPending := true } }
    let s3 := s2.modEng d fun y => { y with twin := { y.twin with storing := true } }
    s3.modEng a fun x => { x with twin := { x.twin with swapAt := some plan.swAt } }
  | some st, _, _ => abandonSwap plan st s1
  | none, _, _ => s1

/-- The preparation of a swap at its instant. -/
def prepareSwap (plan : SwapPlan) (s : State) : State := prepareFrom plan (passTo (s.active.getD s.power.steer) (prepareAt plan) s)

/-- SWAP_PREPARE. -/
def swapPrepare (s : State) : State :=
  match s.sup.swap with
  | some plan => if plan.prepared || s.sup.switch.isSome then s else prepareSwap plan s
  | none => s

/-- What tells one stored copy from another on both engines: its port, queue, ingress port and bytes as received. -/
def copyKey (x : Engine) (c : Copy) : Option (Nat × Nat × Nat × List Byte) :=
  match x.frame c.frame with
  | some f => if f.ingress = 63 then none else some (c.port, c.queue, f.ingress, f.orig)
  | none => none

/-- A copy whose head has left. -/
def started (x : Engine) (c : Copy) : Bool :=
  (x.eg c.port).tx.toList.any fun t => t.begun && (t.copy.map fun k => k.frame) == some c.frame

/-- The copies an engine holds and has not started to send. -/
def unsent (x : Engine) : List (Nat × Nat × Nat × List Byte) :=
  ((heldCopies x).filter fun c => !started x c).filterMap (copyKey x)

/-- A copy that S_q covers (R345 step 2): by its ingress stamp, in a launch queue by its launch time. -/
def covered (newest : List (Nat × Nat)) (x : Engine) (c : Copy) : Bool :=
  match findAt (10 * c.port + c.queue) newest, x.frame c.frame with
  | some sq, some f =>
    match c.launch with
    | some t => decide (t ≤ sq)
    | none => decide (f.stamp.t ≤ sq)
  | _, _ => false

/-- SW_AT (R345): the outgoing active `a` reports what it has started and leaves its role, `d` discards what that covers. No engine
holds ROLE 0x1 until the grant, which comes with the next report of `d` on its sideband, or with the steering (log 43). -/
def switchAt (plan : SwapPlan) (a d : EngId) (s0 : State) : State :=
  let s := applyInFlight d s0
  let sq := (s.eng a).egress.newest
  let s1 := s.modEng d fun y => dropWhere s.part d (covered sq y) y
  let lost := (unsent (s1.eng d)).foldl (fun l k => l.erase k) (unsent (s.eng a))
  let s2 := s1.modEng d fun y => lost.foldl (fun z k => countLost k.1 1 z) y
  let s3 := (setRole a 2 s2).modEng a fun x =>
    dropQueues s.part a { x with core := { x.core with mayStart := false }, twin := { x.twin with swapAt := none, sync := 0, tbPhaseErr := 0 } }
  let run : SwitchRun := { cause := if plan.commanded then 4 else 3, src := a, dst := d, step := 3, lost := lost.length, stale := false }
  releaseAcks a { s3 with sup := { s3.sup.modView a fun v => { v with eligible := true } with switch := some run } }

/-- The swap at SW_AT, its conditions judged once more. -/
def performSwap (plan : SwapPlan) (s : State) : State :=
  let o := s.active.getD s.power.steer
  let s1 := passTo o plan.swAt s
  match swapRefusal s1, s1.active, s1.standby with
  | none, some a, some d => switchAt plan a d s1
  | some st, _, _ => abandonSwap plan st s1
  | none, _, _ => s1

/-- SWAP_AT; a swap with no preparation yet is prepared first. -/
def swapAtEvent (s : State) : State :=
  if s.sup.switch.isSome then s
  else
    let s1 := swapPrepare s
    match s1.sup.swap with
    | some plan => if plan.prepared then performSwap plan s1 else s1
    | none => s1

/-- When a scheduled swap is attempted: at the time NEXT_SWAP shows, and every 60 s after it (R346). -/
def attemptAt (t : Nat) (s : State) : Nat := t + s.sup.swapRetries * 60 * s16

/-- An attempt of a scheduled swap (R346). -/
def attemptFrom (s1 : State) : State :=
  if s1.sup.swap.isSome || (swapRefusal s1).isSome || switching s1 then failSchedule s1
  else
    let plan : SwapPlan := { swAt := ownerNow s1 + (s1.sup.swapPrepUs + 100) * us16, prepUs := s1.sup.swapPrepUs, commanded := false,
                             prepared := false }
    { s1 with sup := { s1.sup with swap := some plan } }

/-- The attempt at its instant. -/
def attemptSwap (t : Nat) (s : State) : State := attemptFrom (passTo (s.active.getD s.power.steer) (attemptAt t s) s)

/-- SWAP_SCHEDULE (R346): the first attempt of a period. -/
def execSwapSchedule (s : State) : Host.Outcome State Fault Refusal :=
  onTwin s fun s =>
    match s.sup.swapNext with
    | some t => if s.sup.running && s.sup.swapRetries == 0 then attemptSwap t s else s
    | none => s

/-- SWAP_RETRY (R346): an attempt 60 s after the one before. -/
def execSwapRetry (s : State) : Host.Outcome State Fault Refusal :=
  onTwin s fun s =>
    match s.sup.swapNext with
    | some t => if s.sup.running && s.sup.swapRetries != 0 then attemptSwap t s else s
    | none => s

/-! ## Lock windows (R48, R51) -/

/-- The reaction of Table 1.5 to a loop's loss of lock, but for SYN-T, whose loss SYNT_LOSS describes. -/
def loopLost (e : EngId) (l : Loop) (s : State) : State :=
  match l with
  | .synt => s
  | .txg g => s.modEng e fun x => x.raise 0x08 0x04 2 (word g.val)
  | .synm => (activeStops e s).modEng e fun x => ({ x with core := { x.core with halted := true } } : Engine).raise 0x08 0x05 3 0
  | .host => s.modEng e fun x => pcieDown s.part e (x.raise 0x08 0x06 2 0)
  | .syno k => s.modEng e fun x => x.raise 0x08 0x07 2 (word k.val)
  | .fof => linkDown (s.modEng e fun x => x.raise 0x08 0x08 2 0)

/-- A lock window of a loop ends. -/
def lockWindow (e : EngId) (l : Loop) (w : LockWindow) (dev : Int) (s : State) : State :=
  let x := s.eng e
  if x.clk.suspended || !loopPresent s.part l then s
  else match w with
    | .fine => if l = .synt then s.setEng e (fineWindow dev x) else s
    | .analog =>
      let r := analogWindow l dev x
      let s1 := s.setEng e r.1
      judgeSync (if r.2 = .lost then loopLost e l s1 else s1)

end Sys2Proof.Machine
end

