-- ==== Sys2Proof/Machine/Channels.lean ====
section
/-! DEFINITION. The host channels: packets as they come off the rings, the mailbox, the management Ethernet port and the SPI
port (R414-R442), what follows in the same step when tags come free, and the rows that complete commands. -/

namespace Sys2Proof.Machine

/-! ## A packet (Table 15.2, Table 15.4 checks 1 to 7) -/

/-- A packet that fails one of checks 2 to 5 is answered at once. It changes nothing of a command that holds its tag (R423). -/
def answerEarly (a : Arrival) (op : BitVec 16) (st : Status) (s : State) : State :=
  let r := replyNow a.via a op false st [] s
  if (tagsOf a s).contains a.tag then deliver a { r with kind := .shared } s else deliver a { r with kind := .packet } (takeTag a s)

/-- Whether a channel that counts to 64 has no tag left (R425). -/
def tagsFull (a : Arrival) (s : State) : Bool := decide ((tagsOf a s).length ≥ 64) && (a.chan == .mgmt || a.chan == .spi)

/-- The arrival of a packet, its header read (Table 15.2). -/
def arrivalOfPacket (via : UnitId) (chan : Channel) (src : BitVec 48) (vlan : Option Word) (bs : List Byte) : Arrival :=
  { via := via, chan := chan, tag := BitVec.ofNat 16 (bytesAt bs 6 2), fence := bytesAt bs 3 1 % 2 == 1,
    target := BitVec.ofNat 2 (bytesAt bs 11 1), crc := word (bytesAt bs (16 + 4 * bytesAt bs 8 2) 4), src := src, vlan := vlan }

/-- A packet whose length, CRC and version hold: check 5, then acceptance. -/
def takeHeader (a : Arrival) (bs : List Byte) (s : State) : State :=
  let op := BitVec.ofNat 16 (bytesAt bs 4 2)
  let n := bytesAt bs 8 2
  let rsvd := bytesAt bs 3 1 / 2 % 64 != 0 || bytesAt bs 10 2 / 4 != 0 || bytesAt bs 12 4 != 0
  if rsvd then answerEarly a op .reserved s
  else
    let ps := (List.range n).map fun i => word (bytesAt bs (16 + 4 * i) 4)
    match specOf op with
    | some sp => accept sp a ps s
    | none => intake a (fun _ s1 => deliver a (replyNow a.via a op false .opcode [] s1) s1) s

/-- A packet taken from its channel: checks 1 to 4, then the rest. `largest` is the channel's largest packet; `padded` says
that bytes after the packet are padding (R439). -/
def takePacket (via : UnitId) (chan : Channel) (src : BitVec 48) (vlan : Option Word) (largest : Nat) (padded : Bool) (bytes : List Byte)
    (s : State) : State :=
  let a := arrivalOfPacket via chan src vlan bytes
  let n := bytesAt bytes 8 2
  let need := 20 + 4 * n
  let op := BitVec.ofNat 16 (bytesAt bytes 4 2)
  let size := bytes.length
  if decide (size < 20) || decide (size > largest) || bytesAt bytes 0 2 != 0xA5C3 || decide (bytesAt bytes 3 1 ≥ 128) then countFraming a s
  else if tagsFull a s then countDup a s
  else if decide (n > 1019) || decide (size < need) || (!padded && decide (size > need)) then answerEarly a op .length s
  else if crc32c (bytes.take (16 + 4 * n)) != a.crc then
    let s1 := countCrc a s
    if (tagsOf a s).contains a.tag then s1 else answerEarly a op .crc s1
  else if bytesAt bytes 2 1 != 1 then answerEarly a op .version s
  else takeHeader a (bytes.take need) s

/-! ## What follows in the same step (R425, R426) -/

/-- The first held command whose earlier commands have all been replied to. -/
def readyHeld (l : List HeldCmd) : Option HeldCmd := l.find? fun k => k.behind.isEmpty

/-- A held command is accepted: its target is as it was when the packet was taken; its path may have gone down since
(R420). -/
def releaseHeld (k : HeldCmd) (s : State) : State :=
  match specOf k.opcode with
  | some sp =>
    if pathUp k.arrival.via k.unit s then execute sp k.unit k.arrival k.forwarded k.params s
    else deliver k.arrival (replyNow k.arrival.via k.arrival k.opcode false .state [] s) s
  | none => s

/-- The next held command of an engine that can go on. -/
def releaseOn (e : EngId) (s : State) : Option State :=
  match readyHeld (s.eng e).host.held with
  | some k => some (releaseHeld k (s.modEng e fun x => { x with host := { x.host with held := x.host.held.erase k } }))
  | none => none

/-- The next held command of the supervisor that can go on. -/
def releaseSup (s : State) : Option State :=
  match readyHeld s.sup.spi.held with
  | some k =>
    let spi := { s.sup.spi with held := s.sup.spi.held.erase k }
    some (releaseHeld k { s with sup := { s.sup with spi := spi } })
  | none => none

/-- Whether the command ring is fetched now (R425, R429, Table 12.7). -/
def ringFetches (x : Engine) : Bool :=
  let q := x.ring 0
  let tags := x.host.outstanding.filter fun k => decide (k.1 = .ring)
  x.serving && q.enabled && !q.stopped && (x.ring 1).enabled && x.host.pcieUp && x.core.role != 4 && decide (tags.length < 64)
    && !q.posted.isEmpty

/-- The next descriptor of an engine's command ring (R431). -/
def fetchOn (e : EngId) (s : State) : Option State :=
  let x := s.eng e
  if !engFitted s.part e || !ringFetches x then none
  else match (x.ring 0).posted with
    | [] => none
    | d :: rest =>
      if descBad d then some (s.setEng e (stopRing 0 2 x))
      else if !d.pcieOk then some (s.setEng e (stopRing 0 3 x))
      else
        let y := x.modRing 0 fun q => { q with posted := rest, engineIdx := q.engineIdx + 1 }
        if descLen d = 0 then some (s.setEng e (y.bump 96))
        else
          let bs := (List.range (descLen d)).map fun i => d.data.getD i 0
          some (takePacket (.eng e) .ring 0 none 4096 false bs (s.setEng e y))

/-- The first of several states. -/
def firstState : List (Option State) → Option State
  | [] => none
  | some t :: _ => some t
  | none :: rest => firstState rest

/-- The next thing a channel can do by itself: a held command, or a fetch from a command ring; engine A before engine B. -/
def channelStep (s : State) : Option State := firstState [releaseOn .a s, releaseOn .b s, releaseSup s, fetchOn .a s, fetchOn .b s]

/-- Commands that are done reply: those that wait for the pace first (R62). A commit of the parse graph reaches the standby before
(R136). -/
def flushAll (s0 : State) : State :=
  let s := tieGraph s0
  flushSup (flushWaiting .b (flushWaiting .a (if allSettled s then finishPace s else s)))

/-- What the channels do by themselves, until nothing is left. -/
def channelRun : Nat → State → State
  | 0, s => s
  | n + 1, s =>
    match channelStep s with
    | some t => channelRun n (flushAll t)
    | none => s

/-- The most steps the channels can take by themselves: every descriptor posted can bring a command that is held. -/
def channelFuel (s : State) : Nat :=
  2 * (((s.engA.ring 0).posted.length) + ((s.engB.ring 0).posted.length)) + s.engA.host.held.length + s.engB.host.held.length
    + s.sup.spi.held.length

/-- A state brought to rest: replies that are due have gone, held commands that can go on have been executed, and the command
rings have been fetched. -/
def settled (s : State) : State :=
  let t := flushAll s
  channelRun (channelFuel t) t

/-- An outcome brought to rest. -/
def settledOut : Host.Outcome State Fault Refusal → Host.Outcome State Fault Refusal
  | .next s => .next (settled s)
  | o => o

/-! ## Rings -/

/-- A doorbell of a ring (R431). -/
def doorbell (r : Nat) (idx : Word) (descs : List Desc) (x : Engine) : Engine :=
  let q := x.ring r
  if !q.enabled || !x.host.pcieUp then x
  else
    let n := (idx - q.engineIdx).toNat
    let y := x.modRing r fun k => { k with hostIdx := idx }
    if q.stopped then y
    else if n > 2 ^ q.sizeLog2 then stopRing r 1 y else y.modRing r fun k => { k with posted := (k.posted ++ descs).take n }

/-- RING_DOORBELL_WRITE (R431). -/
def execRingDoorbellWrite (e : EngId) (ring : Fin 8) (idx : Word) (descs : List Desc) (s : State) : Host.Outcome State Fault Refusal :=
  settledOut (onEngine e s fun s => judgeH0 e (s.modEng e (doorbell ring.val idx descs)))

/-- The oldest waiting record of a ring written, if it has room (R433); a reply's tag is free then. -/
def deliverRecord (e : EngId) (r : Nat) (x : Engine) : Engine :=
  let q := x.ring r
  match q.waiting with
  | [] => if r = 2 then deliverCaptures e x else x
  | rec_ :: rest =>
    let (ok, z) := takesRecord r (4 + rec_.body.length) x
    if ok then
      let y := writeRecord e r rec_ (z.modRing r fun k => { k with waiting := rest })
      if r = 1 then { y with host := freeWaiting rec_ y.host } else y
    else z

/-- RING_RECORD_DELIVERY (R433, R94). -/
def execRingRecordDelivery (e : EngId) (ring : Fin 8) (s : State) : Host.Outcome State Fault Refusal :=
  settledOut (onEngine e s fun s => judgeH0 e (s.modEng e (deliverRecord e ring.val)))

/-! ## The mailbox (R437) -/

/-- A doorbell of the mailbox: ignored and counted while BUSY or READY reads 1. -/
def mboxDoorbell (e : EngId) (len : Word) (s : State) : State :=
  let x := s.eng e
  let n := field len 12 0
  let a := arrivalOfPacket (.eng e) .mailbox 0 none []
  if !x.serving || !x.host.pcieUp then s
  else if x.host.mbox.busy || x.host.mbox.ready then countFraming a s
  else takePacket (.eng e) .mailbox 0 none 1024 false (Memory.reads x.host.mbox.cmd 0 n) s

/-- MBOX_DOORBELL_WRITE. -/
def execMboxDoorbellWrite (e : EngId) (len : Word) (s : State) : Host.Outcome State Fault Refusal :=
  settledOut (onEngine e s (mboxDoorbell e len))

/-! ## Management Ethernet (R438-R440) -/

/-- What a frame of the management port is (R439): where its packet begins, and its VLAN tag. -/
def mgmtLayout (bs : List Byte) : Option (Nat × Option Word) :=
  if bytesAt bs 12 2 = 0x88B5 then some (14, none)
  else if bytesAt bs 12 2 = 0x8100 ∧ bytesAt bs 16 2 = 0x88B5 then some (18, some (word (bytesAt bs 12 4)))
  else none

/-- A frame passed to H1 as an ordinary frame. -/
def mgmtPassed (e : EngId) (bs : List Byte) (fcs : Word) (s : State) : State := frameTail e 33 fcs (frameHead e 33 0 bs s)

/-- A frame received on the management port (R439); like every frame it is stamped at ingress (R83). -/
def mgmtFrame (e : EngId) (bs : List Byte) (fcs : Word) (s : State) : State :=
  let x := s.eng e
  let g := x.host.mgmt
  let dst := BitVec.ofNat 48 (bytesAt bs 0 6)
  let src := BitVec.ofNat 48 (bytesAt bs 6 6)
  match mgmtLayout bs with
  | none => mgmtPassed e bs fcs s
  | some (off, vlan) =>
    let pkt := bs.drop off
    let forUs := dst == g.addr || (dst == 0xFFFFFFFFFFFF#48 && bytesAt pkt 4 2 == 0x0105)
    if !x.serving || !(x.port 33).up || fcsOf bs fcs != .good || !forUs || !g.cmdEn then mgmtPassed e bs fcs s
    else
      let s1 := s.setEng e (countDegraded (x.portStamp 33 0 0) (rxCount 33 (bs.length + 4) x))
      if g.allowAny || g.allowed.contains src then takePacket (.eng e) .mgmt src vlan 4096 true pkt s1
      else countFraming (arrivalOfPacket (.eng e) .mgmt src vlan []) s1

/-- MGMT_FRAME_RECEIVED. `bytes` are those of the frame before its FCS. -/
def execMgmtFrameReceived (e : EngId) (bytes : List Byte) (fcs : Word) (s : State) : Host.Outcome State Fault Refusal :=
  settledOut (onEngine e s (mgmtFrame e bytes fcs))

/-! ## SPI (R442) -/

/-- The supervisor serves its SPI port. -/
def spiServes (s : State) : Bool := s.power.supplyValid && (s.sup.running || s.sup.bootRom)

/-- The SPI port changed, where it serves. -/
def onSpi (s : State) (f : SpiState → SpiState) : Host.Outcome State Fault Refusal :=
  .next (if spiServes s then { s with sup := { s.sup with spi := f s.sup.spi } } else s)

/-- A WRITE_PACKET transaction: with 64 tags outstanding BUSY refuses it, and it counts in TAG_DUP (R425, R442). -/
def spiPacket (bs : List Byte) (complete : Bool) (s : State) : State :=
  let p := s.sup.spi
  if !spiServes s then s
  else if !complete || decide (bs.length < 20) || decide (bs.length < 20 + 4 * bytesAt bs 8 2) then
    { s with sup := { s.sup with spi := { p with framing := true } } }
  else if p.outstanding.length ≥ 64 then
    countDup (arrivalOfPacket .sup .spi 0 none bs) { s with sup := { s.sup with spi := { p with lastRefused := true } } }
  else takePacket .sup .spi 0 none 4096 false bs s

/-- SPI_WRITE_PACKET. `complete` says that the chip select rose after the packet's full length. -/
def execSpiWritePacket (bytes : List Byte) (complete : Bool) (s : State) : Host.Outcome State Fault Refusal :=
  .next (settled (spiPacket bytes complete s))

/-- The status byte of READ_STATUS. -/
def spiStatus (p : SpiState) : Byte :=
  BitVec.ofNat 8 (bit (!p.replies.isEmpty) * 128 + bit (decide (p.outstanding.length ≥ 64)) * 64 + bit p.lastRefused * 32 + bit p.framing * 16)

/-- What READ_STATUS returns: the status byte, then the length of the next reply in bytes. -/
def spiStatusBytes (p : SpiState) : List Byte :=
  spiStatus p :: beBytes 2 (match p.replies with
    | [] => 0
    | r :: _ => 4 * (replyWords r).length)

/-- SPI_READ_STATUS: LAST_REFUSED and FRAMING are cleared once they have been read. -/
def execSpiReadStatus (s : State) : Host.Outcome State Fault Refusal := onSpi s fun p => { p with lastRefused := false, framing := false }

/-- What READ_REPLY returns: the oldest reply from its first byte. -/
def spiReplyBytes (p : SpiState) : List Byte :=
  match p.replies with
  | [] => []
  | r :: _ => wordsBytes (replyWords r)

/-- The oldest reply has been read: it goes, and its tag is free (R414). -/
def popReply (p : SpiState) : SpiState :=
  match p.replies with
  | [] => p
  | r :: rest => if r.kind = .shared then { p with replies := rest } else freeSpiTag r.tag { p with replies := rest }

/-- SPI_READ_REPLY: a shorter read leaves the reply in place. -/
def execSpiReadReply (whole : Bool) (s : State) : Host.Outcome State Fault Refusal :=
  settledOut (onSpi s fun p => if whole then popReply p else p)

/-- SPI_UNKNOWN_INSTRUCTION: FRAMING is set; the bytes read as 0xFF. -/
def execSpiUnknownInstruction (s : State) : Host.Outcome State Fault Refusal := onSpi s fun p => { p with framing := true }

/-! ## Events after which commands complete -/

/-- CAL_PROBE, and what follows on the channels. -/
def execCalProbe (e : EngId) (kind : Fin 7) (idx : Nat) (ok : Bool) (value : Int) (s : State) : Host.Outcome State Fault Refusal := settledOut (rowCalProbe e kind idx ok value s)

/-- CAL_STARVE, and what follows on the channels. -/
def execCalStarve (e : EngId) (kind : Fin 7) (idx : Nat) (s : State) : Host.Outcome State Fault Refusal := settledOut (rowCalStarve e kind idx s)

/-- REPAIR_PASS_END, and what follows on the channels. -/
def execRepairPassEnd (e : EngId) (s : State) : Host.Outcome State Fault Refusal := settledOut (rowRepairPassEnd e s)

/-- PCIE_LINK_DOWN, and what follows on the channels. -/
def execPcieLinkDown (e : EngId) (s : State) : Host.Outcome State Fault Refusal := settledOut (rowPcieLinkDown e s)

/-- PCIE_PERST, and what follows on the channels. -/
def execPciePerst (e : EngId) (s : State) : Host.Outcome State Fault Refusal := settledOut (rowPciePerst e s)

/-- GOVERNOR_SAMPLE, and what follows on the channels. -/
def execGovernorSample (e : EngId) (s : State) : Host.Outcome State Fault Refusal := settledOut (rowGovernorSample e s)

/-- PACE_REPLY_TIMEOUT, and what follows on the channels. -/
def execPaceReplyTimeout (s : State) : Host.Outcome State Fault Refusal := settledOut (rowPaceReplyTimeout s)

/-- SIDEBAND_BEAT, and what follows on the channels. -/
def execSidebandBeat (e : EngId) (toSup giveUp : Bool) (s : State) : Host.Outcome State Fault Refusal := settledOut (rowSidebandBeat e toSup giveUp s)

/-- FOFAENE_BEAT, and what follows on the channels. -/
def execFofaeneBeat (e : EngId) (giveUp : Bool) (s : State) : Host.Outcome State Fault Refusal := settledOut (rowFofaeneBeat e giveUp s)

/-- HEARTBEAT_LOSS, and what follows on the channels. -/
def execHeartbeatLoss (p : BeatPath) (s : State) : Host.Outcome State Fault Refusal := settledOut (rowHeartbeatLoss p s)

/-- GIVE_UP_WAIT_EXPIRY, and what follows on the channels. -/
def execGiveUpWaitExpiry (s : State) : Host.Outcome State Fault Refusal := settledOut (rowGiveUpWaitExpiry s)

/-- SUPERVISOR_RECOVERY, and what follows on the channels. -/
def execSupervisorRecovery (s : State) : Host.Outcome State Fault Refusal := settledOut (rowSupervisorRecovery s)

/-- STEERING_MOVE_DONE, and what follows on the channels. -/
def execSteeringMoveDone (s : State) : Host.Outcome State Fault Refusal := settledOut (rowSteeringMoveDone s)

/-- FAULT_MESSAGE_ARRIVAL, and what follows on the channels. -/
def execFaultMessageArrival (e : EngId) (s : State) : Host.Outcome State Fault Refusal := settledOut (rowFaultMessageArrival e s)

/-- F2_WINDOW_END, and what follows on the channels. -/
def execF2WindowEnd (e : EngId) (source kind : Byte) (inj : Bool) (s : State) : Host.Outcome State Fault Refusal := settledOut (rowF2WindowEnd e source kind inj s)

/-- F3_WINDOW_END, and what follows on the channels. -/
def execF3WindowEnd (e : EngId) (inj : Bool) (s : State) : Host.Outcome State Fault Refusal := settledOut (rowF3WindowEnd e inj s)

/-- BLOCK_RESET_OVERDUE, and what follows on the channels. -/
def execBlockResetOverdue (e : EngId) (reset : BlockReset) (s : State) : Host.Outcome State Fault Refusal := settledOut (rowBlockResetOverdue e reset s)

/-- COLLECTOR_CHECK, and what follows on the channels. -/
def execCollectorCheck (e : EngId) (s : State) : Host.Outcome State Fault Refusal := settledOut (rowCollectorCheck e s)

/-- RING_WATCHDOG, and what follows on the channels. -/
def execRingWatchdog (e : EngId) (s : State) : Host.Outcome State Fault Refusal := settledOut (rowRingWatchdog e s)

/-- FW_RESTART_EXECUTE, and what follows on the channels. -/
def execFwRestartExecute (u : UnitId) (s : State) : Host.Outcome State Fault Refusal := settledOut (rowFwRestartExecute u s)

/-- CAL_ASYM_WINDOW_END, and what follows on the channels. -/
def execCalAsymWindowEnd (e : EngId) (s : State) : Host.Outcome State Fault Refusal := settledOut (rowCalAsymWindowEnd e s)

/-- SERVO_UPDATE, and what follows on the channels. -/
def execServoUpdate (e : EngId) (s : State) : Host.Outcome State Fault Refusal := settledOut (rowServoUpdate e s)

/-- OUTPUT_SLEW_DONE, and what follows on the channels. -/
def execOutputSlewDone (e : EngId) (out : Fin 12) (s : State) : Host.Outcome State Fault Refusal := settledOut (rowOutputSlewDone e out s)

/-- DRAIN_END, and what follows on the channels. -/
def execDrainEnd (e : EngId) (s : State) : Host.Outcome State Fault Refusal := settledOut (rowDrainEnd e s)

/-- RESET_N_ASSERT, and what follows on the channels. -/
def execResetNAssert (s : State) : Host.Outcome State Fault Refusal := settledOut (rowResetNAssert s)

/-- STEP_APPLY, and what follows on the channels. -/
def execStepApply (e : EngId) (s : State) : Host.Outcome State Fault Refusal := settledOut (rowStepApply e s)

/-- FOF_LINK_DOWN (R347). -/
def execFofLinkDown (s : State) : Host.Outcome State Fault Refusal := settledOut (onTwin s linkDown)

/-- COMMIT_ACK_RECEIVED (R341). -/
def execCommitAckReceived (s : State) : Host.Outcome State Fault Refusal := settledOut (onTwin s commitAck)

/-- COPY_TIMEOUT (R341). -/
def execCopyTimeout (s : State) : Host.Outcome State Fault Refusal := settledOut (onTwin s copyTimeout)

/-- SWITCHOVER_COMPLETE (R331, R345). -/
def execSwitchoverComplete (s : State) : Host.Outcome State Fault Refusal := settledOut (onTwin s switchoverComplete)

/-- SWAP_PREPARE (R345). -/
def execSwapPrepare (s : State) : Host.Outcome State Fault Refusal := settledOut (onTwin s swapPrepare)

/-- SWAP_AT (R345). -/
def execSwapAt (s : State) : Host.Outcome State Fault Refusal := settledOut (onTwin s swapAtEvent)

/-- LOCK_WINDOW_END (R51). `dev` is the deviation of the loop's ratio in parts per 10^12. -/
def execLockWindowEnd (e : EngId) (loop : Loop) (window : LockWindow) (dev : Int) (s : State) : Host.Outcome State Fault Refusal :=
  settledOut (onEngine e s (lockWindow e loop window dev))

/-- FUSE_BURN_DONE (R461). -/
def execFuseBurnDone (u : UnitId) (s : State) : Host.Outcome State Fault Refusal := settledOut (onUnit u s (burnDone u))

/-- The channels brought to rest after a tick that nothing commanded. -/
def tick (s : State) : State := settled (pass 1 s)

end Sys2Proof.Machine
end

