-- ==== Sys2Proof/Machine/HostCommands.lean ====
section
/-! DEFINITION. The host command packets: each row is a packet that arrives, well formed, on one of the channels. What the
command checks and does stands in its `CmdSpec`, in the file of its family. -/

namespace Sys2Proof.Machine

/-- A command packet arrives on its channel; what it sets free goes on in the same step. -/
def takeCommand (sp : CmdSpec) (a : Arrival) (ps : List Word) (s : State) : State := settled (submit sp a ps s)

/-- SYS_READ_REG (R447). -/
def execSysReadReg (a : Arrival) (ps : List Word) (s : State) : Host.Outcome State Fault Refusal := .next (takeCommand sysReadRegSpec a ps s)

/-- SYS_SET_PACE (R61). -/
def execSysSetPace (a : Arrival) (ps : List Word) (s : State) : Host.Outcome State Fault Refusal := .next (takeCommand sysSetPaceSpec a ps s)

/-- SYS_SET_RING (R449). -/
def execSysSetRing (a : Arrival) (ps : List Word) (s : State) : Host.Outcome State Fault Refusal := .next (takeCommand sysSetRingSpec a ps s)

/-- SYS_SET_IRQ (R446). -/
def execSysSetIrq (a : Arrival) (ps : List Word) (s : State) : Host.Outcome State Fault Refusal := .next (takeCommand sysSetIrqSpec a ps s)

/-- SYS_NOP (R448). -/
def execSysNop (a : Arrival) (ps : List Word) (s : State) : Host.Outcome State Fault Refusal := .next (takeCommand sysNopSpec a ps s)

/-- SYS_SET_MGMT (R438). -/
def execSysSetMgmt (a : Arrival) (ps : List Word) (s : State) : Host.Outcome State Fault Refusal := .next (takeCommand sysSetMgmtSpec a ps s)

/-- PORT_SET_MODE (R114). -/
def execPortSetMode (a : Arrival) (ps : List Word) (s : State) : Host.Outcome State Fault Refusal := .next (takeCommand portSetModeSpec a ps s)

/-- PORT_SET_LINK_TIMERS (R113). -/
def execPortSetLinkTimers (a : Arrival) (ps : List Word) (s : State) : Host.Outcome State Fault Refusal := .next (takeCommand portSetLinkTimersSpec a ps s)

/-- PORT_SET_TIME_LEVELS (R120). -/
def execPortSetTimeLevels (a : Arrival) (ps : List Word) (s : State) : Host.Outcome State Fault Refusal := .next (takeCommand portSetTimeLevelsSpec a ps s)

/-- PORT_SET_AHNUD_ETYPE (R124). -/
def execPortSetAhnudEtype (a : Arrival) (ps : List Word) (s : State) : Host.Outcome State Fault Refusal := .next (takeCommand portSetAhnudEtypeSpec a ps s)

/-- PORT_SET_CUT_THROUGH (R194). -/
def execPortSetCutThrough (a : Arrival) (ps : List Word) (s : State) : Host.Outcome State Fault Refusal := .next (takeCommand portSetCutThroughSpec a ps s)

/-- PARSE_SET_PORT (R140). -/
def execParseSetPort (a : Arrival) (ps : List Word) (s : State) : Host.Outcome State Fault Refusal := .next (takeCommand parseSetPortSpec a ps s)

/-- PARSE_WRITE_NODE (R131). -/
def execParseWriteNode (a : Arrival) (ps : List Word) (s : State) : Host.Outcome State Fault Refusal := .next (takeCommand parseWriteNodeSpec a ps s)

/-- PARSE_READ_NODE (R131). -/
def execParseReadNode (a : Arrival) (ps : List Word) (s : State) : Host.Outcome State Fault Refusal := .next (takeCommand parseReadNodeSpec a ps s)

/-- PARSE_COMMIT (R138). -/
def execParseCommit (a : Arrival) (ps : List Word) (s : State) : Host.Outcome State Fault Refusal := .next (takeCommand parseCommitSpec a ps s)

/-- PARSE_LOAD_DEFAULTS (R133). -/
def execParseLoadDefaults (a : Arrival) (ps : List Word) (s : State) : Host.Outcome State Fault Refusal := .next (takeCommand parseLoadDefaultsSpec a ps s)

/-- RULE_WRITE_ENTRY (R157). -/
def execRuleWriteEntry (a : Arrival) (ps : List Word) (s : State) : Host.Outcome State Fault Refusal := .next (takeCommand ruleWriteEntrySpec a ps s)

/-- RULE_READ_ENTRY (R161). -/
def execRuleReadEntry (a : Arrival) (ps : List Word) (s : State) : Host.Outcome State Fault Refusal := .next (takeCommand ruleReadEntrySpec a ps s)

/-- RULE_WRITE_PROFILE (R156). -/
def execRuleWriteProfile (a : Arrival) (ps : List Word) (s : State) : Host.Outcome State Fault Refusal := .next (takeCommand ruleWriteProfileSpec a ps s)

/-- RULE_CLEAR_BANK (R153). -/
def execRuleClearBank (a : Arrival) (ps : List Word) (s : State) : Host.Outcome State Fault Refusal := .next (takeCommand ruleClearBankSpec a ps s)

/-- RULE_FLIP_BANK (R163). -/
def execRuleFlipBank (a : Arrival) (ps : List Word) (s : State) : Host.Outcome State Fault Refusal := .next (takeCommand ruleFlipBankSpec a ps s)

/-- RULE_SET_ORG (R153). -/
def execRuleSetOrg (a : Arrival) (ps : List Word) (s : State) : Host.Outcome State Fault Refusal := .next (takeCommand ruleSetOrgSpec a ps s)

/-- RULE_LOAD_DEFAULTS (R161). -/
def execRuleLoadDefaults (a : Arrival) (ps : List Word) (s : State) : Host.Outcome State Fault Refusal := .next (takeCommand ruleLoadDefaultsSpec a ps s)

/-- RULE_SET_PORT (R151). -/
def execRuleSetPort (a : Arrival) (ps : List Word) (s : State) : Host.Outcome State Fault Refusal := .next (takeCommand ruleSetPortSpec a ps s)

/-- RULE_WRITE_REWRITE (R159). -/
def execRuleWriteRewrite (a : Arrival) (ps : List Word) (s : State) : Host.Outcome State Fault Refusal := .next (takeCommand ruleWriteRewriteSpec a ps s)

/-- RULE_WRITE_METER (R160). -/
def execRuleWriteMeter (a : Arrival) (ps : List Word) (s : State) : Host.Outcome State Fault Refusal := .next (takeCommand ruleWriteMeterSpec a ps s)

/-- RULE_SET_MIRROR (R158). -/
def execRuleSetMirror (a : Arrival) (ps : List Word) (s : State) : Host.Outcome State Fault Refusal := .next (takeCommand ruleSetMirrorSpec a ps s)

/-- FWD_ADD (R172). -/
def execFwdAdd (a : Arrival) (ps : List Word) (s : State) : Host.Outcome State Fault Refusal := .next (takeCommand fwdAddSpec a ps s)

/-- FWD_DELETE (R172). -/
def execFwdDelete (a : Arrival) (ps : List Word) (s : State) : Host.Outcome State Fault Refusal := .next (takeCommand fwdDeleteSpec a ps s)

/-- FWD_LOOKUP (R170). -/
def execFwdLookup (a : Arrival) (ps : List Word) (s : State) : Host.Outcome State Fault Refusal := .next (takeCommand fwdLookupSpec a ps s)

/-- FWD_FLUSH (R170). -/
def execFwdFlush (a : Arrival) (ps : List Word) (s : State) : Host.Outcome State Fault Refusal := .next (takeCommand fwdFlushSpec a ps s)

/-- FWD_SET_LEARN (R171). -/
def execFwdSetLearn (a : Arrival) (ps : List Word) (s : State) : Host.Outcome State Fault Refusal := .next (takeCommand fwdSetLearnSpec a ps s)

/-- FWD_SET_AGEING (R173). -/
def execFwdSetAgeing (a : Arrival) (ps : List Word) (s : State) : Host.Outcome State Fault Refusal := .next (takeCommand fwdSetAgeingSpec a ps s)

/-- FWD_SET_VLAN (R170). -/
def execFwdSetVlan (a : Arrival) (ps : List Word) (s : State) : Host.Outcome State Fault Refusal := .next (takeCommand fwdSetVlanSpec a ps s)

/-- FWD_WRITE_MCAST (R200). -/
def execFwdWriteMcast (a : Arrival) (ps : List Word) (s : State) : Host.Outcome State Fault Refusal := .next (takeCommand fwdWriteMcastSpec a ps s)

/-- FWD_SET_SPREAD (R174). -/
def execFwdSetSpread (a : Arrival) (ps : List Word) (s : State) : Host.Outcome State Fault Refusal := .next (takeCommand fwdSetSpreadSpec a ps s)

/-- FWD_WRITE_INDIRECT (R175). -/
def execFwdWriteIndirect (a : Arrival) (ps : List Word) (s : State) : Host.Outcome State Fault Refusal := .next (takeCommand fwdWriteIndirectSpec a ps s)

/-- FWD_SET_MC_RESIDUE (R205). -/
def execFwdSetMcResidue (a : Arrival) (ps : List Word) (s : State) : Host.Outcome State Fault Refusal := .next (takeCommand fwdSetMcResidueSpec a ps s)

/-- QUEUE_SET_CLASS (R238). -/
def execQueueSetClass (a : Arrival) (ps : List Word) (s : State) : Host.Outcome State Fault Refusal := .next (takeCommand queueSetClassSpec a ps s)

/-- QUEUE_SET_PORT_FC (R230). -/
def execQueueSetPortFc (a : Arrival) (ps : List Word) (s : State) : Host.Outcome State Fault Refusal := .next (takeCommand queueSetPortFcSpec a ps s)

/-- QUEUE_SET_MIN (R239). -/
def execQueueSetMin (a : Arrival) (ps : List Word) (s : State) : Host.Outcome State Fault Refusal := .next (takeCommand queueSetMinSpec a ps s)

/-- QUEUE_SET_AGE (R239). -/
def execQueueSetAge (a : Arrival) (ps : List Word) (s : State) : Host.Outcome State Fault Refusal := .next (takeCommand queueSetAgeSpec a ps s)

/-- QUEUE_SET_BUFFER_MODE (R234). -/
def execQueueSetBufferMode (a : Arrival) (ps : List Word) (s : State) : Host.Outcome State Fault Refusal := .next (takeCommand queueSetBufferModeSpec a ps s)

/-- QUEUE_GET_OCCUPANCY (R240). -/
def execQueueGetOccupancy (a : Arrival) (ps : List Word) (s : State) : Host.Outcome State Fault Refusal := .next (takeCommand queueGetOccupancySpec a ps s)

/-- SCHED_SET_CLASS (R245). -/
def execSchedSetClass (a : Arrival) (ps : List Word) (s : State) : Host.Outcome State Fault Refusal := .next (takeCommand schedSetClassSpec a ps s)

/-- SCHED_SET_PORT_SHAPER (R245). -/
def execSchedSetPortShaper (a : Arrival) (ps : List Word) (s : State) : Host.Outcome State Fault Refusal := .next (takeCommand schedSetPortShaperSpec a ps s)

/-- SCHED_WRITE_GCL (R247). -/
def execSchedWriteGcl (a : Arrival) (ps : List Word) (s : State) : Host.Outcome State Fault Refusal := .next (takeCommand schedWriteGclSpec a ps s)

/-- SCHED_COMMIT_GCL (R248). -/
def execSchedCommitGcl (a : Arrival) (ps : List Word) (s : State) : Host.Outcome State Fault Refusal := .next (takeCommand schedCommitGclSpec a ps s)

/-- SCHED_SET_PREEMPT (R251). -/
def execSchedSetPreempt (a : Arrival) (ps : List Word) (s : State) : Host.Outcome State Fault Refusal := .next (takeCommand schedSetPreemptSpec a ps s)

/-- SCHED_SET_LAUNCH (R252). -/
def execSchedSetLaunch (a : Arrival) (ps : List Word) (s : State) : Host.Outcome State Fault Refusal := .next (takeCommand schedSetLaunchSpec a ps s)

/-- SCHED_SET_REDUNDANCY (R258). -/
def execSchedSetRedundancy (a : Arrival) (ps : List Word) (s : State) : Host.Outcome State Fault Refusal := .next (takeCommand schedSetRedundancySpec a ps s)

/-- TIME_GET (R80). -/
def execTimeGet (a : Arrival) (ps : List Word) (s : State) : Host.Outcome State Fault Refusal := .next (takeCommand timeGetSpec a ps s)

/-- TIME_SET (R77). -/
def execTimeSet (a : Arrival) (ps : List Word) (s : State) : Host.Outcome State Fault Refusal := .next (takeCommand timeSetSpec a ps s)

/-- TIME_STEP (R77). -/
def execTimeStep (a : Arrival) (ps : List Word) (s : State) : Host.Outcome State Fault Refusal := .next (takeCommand timeStepSpec a ps s)

/-- TIME_SET_BOARD_DELAY (R86). -/
def execTimeSetBoardDelay (a : Arrival) (ps : List Word) (s : State) : Host.Outcome State Fault Refusal := .next (takeCommand timeSetBoardDelaySpec a ps s)

/-- TIME_SET_EVTIN (R91). -/
def execTimeSetEvtin (a : Arrival) (ps : List Word) (s : State) : Host.Outcome State Fault Refusal := .next (takeCommand timeSetEvtinSpec a ps s)

/-- TIME_READ_EVENTS (R93). -/
def execTimeReadEvents (a : Arrival) (ps : List Word) (s : State) : Host.Outcome State Fault Refusal := .next (takeCommand timeReadEventsSpec a ps s)

/-- TIME_SCHED_EDGE (R95). -/
def execTimeSchedEdge (a : Arrival) (ps : List Word) (s : State) : Host.Outcome State Fault Refusal := .next (takeCommand timeSchedEdgeSpec a ps s)

/-- TIME_SET_DOMAIN (R266). -/
def execTimeSetDomain (a : Arrival) (ps : List Word) (s : State) : Host.Outcome State Fault Refusal := .next (takeCommand timeSetDomainSpec a ps s)

/-- TIME_SET_PTP_PORT (R269). -/
def execTimeSetPtpPort (a : Arrival) (ps : List Word) (s : State) : Host.Outcome State Fault Refusal := .next (takeCommand timeSetPtpPortSpec a ps s)

/-- TIME_SET_TC (R283). -/
def execTimeSetTc (a : Arrival) (ps : List Word) (s : State) : Host.Outcome State Fault Refusal := .next (takeCommand timeSetTcSpec a ps s)

/-- TIME_SET_ASYM (R280). -/
def execTimeSetAsym (a : Arrival) (ps : List Word) (s : State) : Host.Outcome State Fault Refusal := .next (takeCommand timeSetAsymSpec a ps s)

/-- TIME_CAL_ASYM (R282). -/
def execTimeCalAsym (a : Arrival) (ps : List Word) (s : State) : Host.Outcome State Fault Refusal := .next (takeCommand timeCalAsymSpec a ps s)

/-- TIME_SWITCH_DOMAIN (R285). -/
def execTimeSwitchDomain (a : Arrival) (ps : List Word) (s : State) : Host.Outcome State Fault Refusal := .next (takeCommand timeSwitchDomainSpec a ps s)

/-- TIME_PUT_SAMPLE (R277). -/
def execTimePutSample (a : Arrival) (ps : List Word) (s : State) : Host.Outcome State Fault Refusal := .next (takeCommand timePutSampleSpec a ps s)

/-- TIME_ALIGN_OUTPUTS (R321). -/
def execTimeAlignOutputs (a : Arrival) (ps : List Word) (s : State) : Host.Outcome State Fault Refusal := .next (takeCommand timeAlignOutputsSpec a ps s)

/-- REF_SET_INPUT (R292). -/
def execRefSetInput (a : Arrival) (ps : List Word) (s : State) : Host.Outcome State Fault Refusal := .next (takeCommand refSetInputSpec a ps s)

/-- REF_SET_SLOT (R303). -/
def execRefSetSlot (a : Arrival) (ps : List Word) (s : State) : Host.Outcome State Fault Refusal := .next (takeCommand refSetSlotSpec a ps s)

/-- REF_FORCE (R304). -/
def execRefForce (a : Arrival) (ps : List Word) (s : State) : Host.Outcome State Fault Refusal := .next (takeCommand refForceSpec a ps s)

/-- REF_GET_STATUS (R323). -/
def execRefGetStatus (a : Arrival) (ps : List Word) (s : State) : Host.Outcome State Fault Refusal := .next (takeCommand refGetStatusSpec a ps s)

/-- REF_SET_OSC (R314). -/
def execRefSetOsc (a : Arrival) (ps : List Word) (s : State) : Host.Outcome State Fault Refusal := .next (takeCommand refSetOscSpec a ps s)

/-- OUT_SET_SYNTH (R317). -/
def execOutSetSynth (a : Arrival) (ps : List Word) (s : State) : Host.Outcome State Fault Refusal := .next (takeCommand outSetSynthSpec a ps s)

/-- OUT_SET_CLKOUT (R318). -/
def execOutSetClkout (a : Arrival) (ps : List Word) (s : State) : Host.Outcome State Fault Refusal := .next (takeCommand outSetClkoutSpec a ps s)

/-- OUT_SET_PPSOUT (R319). -/
def execOutSetPpsout (a : Arrival) (ps : List Word) (s : State) : Host.Outcome State Fault Refusal := .next (takeCommand outSetPpsoutSpec a ps s)

/-- TWIN_GET_STATE (R350). -/
def execTwinGetState (a : Arrival) (ps : List Word) (s : State) : Host.Outcome State Fault Refusal := .next (takeCommand twinGetStateSpec a ps s)

/-- TWIN_SWAP_ROLES (R345). -/
def execTwinSwapRoles (a : Arrival) (ps : List Word) (s : State) : Host.Outcome State Fault Refusal := .next (takeCommand twinSwapRolesSpec a ps s)

/-- TWIN_SET_SWAP (R346). -/
def execTwinSetSwap (a : Arrival) (ps : List Word) (s : State) : Host.Outcome State Fault Refusal := .next (takeCommand twinSetSwapSpec a ps s)

/-- TWIN_REJOIN (R348). -/
def execTwinRejoin (a : Arrival) (ps : List Word) (s : State) : Host.Outcome State Fault Refusal := .next (takeCommand twinRejoinSpec a ps s)

/-- TWIN_FENCE (R348). -/
def execTwinFence (a : Arrival) (ps : List Word) (s : State) : Host.Outcome State Fault Refusal := .next (takeCommand twinFenceSpec a ps s)

/-- FAULT_SET_WINDOWS (R357). -/
def execFaultSetWindows (a : Arrival) (ps : List Word) (s : State) : Host.Outcome State Fault Refusal := .next (takeCommand faultSetWindowsSpec a ps s)

/-- FAULT_SET_EVENTS (R363). -/
def execFaultSetEvents (a : Arrival) (ps : List Word) (s : State) : Host.Outcome State Fault Refusal := .next (takeCommand faultSetEventsSpec a ps s)

/-- FAULT_GET_FIRST (R361). -/
def execFaultGetFirst (a : Arrival) (ps : List Word) (s : State) : Host.Outcome State Fault Refusal := .next (takeCommand faultGetFirstSpec a ps s)

/-- FAULT_ACT_NOW (R380). -/
def execFaultActNow (a : Arrival) (ps : List Word) (s : State) : Host.Outcome State Fault Refusal := .next (takeCommand faultActNowSpec a ps s)

/-- FAULT_INJECT (R370). -/
def execFaultInject (a : Arrival) (ps : List Word) (s : State) : Host.Outcome State Fault Refusal := .next (takeCommand faultInjectSpec a ps s)

/-- FAULT_INJECT_ECC (R372). -/
def execFaultInjectEcc (a : Arrival) (ps : List Word) (s : State) : Host.Outcome State Fault Refusal := .next (takeCommand faultInjectEccSpec a ps s)

/-- FAULT_CLEAR_INJ (R374). -/
def execFaultClearInj (a : Arrival) (ps : List Word) (s : State) : Host.Outcome State Fault Refusal := .next (takeCommand faultClearInjSpec a ps s)

/-- FAULT_RELEASE (R379). -/
def execFaultRelease (a : Arrival) (ps : List Word) (s : State) : Host.Outcome State Fault Refusal := .next (takeCommand faultReleaseSpec a ps s)

/-- FAULT_READ_LOG (R364). -/
def execFaultReadLog (a : Arrival) (ps : List Word) (s : State) : Host.Outcome State Fault Refusal := .next (takeCommand faultReadLogSpec a ps s)

/-- CAL_SET (R396). -/
def execCalSet (a : Arrival) (ps : List Word) (s : State) : Host.Outcome State Fault Refusal := .next (takeCommand calSetSpec a ps s)

/-- CAL_GET_STATUS (R396). -/
def execCalGetStatus (a : Arrival) (ps : List Word) (s : State) : Host.Outcome State Fault Refusal := .next (takeCommand calGetStatusSpec a ps s)

/-- CAL_RUN (R396). -/
def execCalRun (a : Arrival) (ps : List Word) (s : State) : Host.Outcome State Fault Refusal := .next (takeCommand calRunSpec a ps s)

/-- CAL_REPAIR (R392). -/
def execCalRepair (a : Arrival) (ps : List Word) (s : State) : Host.Outcome State Fault Refusal := .next (takeCommand calRepairSpec a ps s)

/-- STATS_READ (R403). -/
def execStatsRead (a : Arrival) (ps : List Word) (s : State) : Host.Outcome State Fault Refusal := .next (takeCommand statsReadSpec a ps s)

/-- STATS_CLEAR (R406). -/
def execStatsClear (a : Arrival) (ps : List Word) (s : State) : Host.Outcome State Fault Refusal := .next (takeCommand statsClearSpec a ps s)

/-- STATS_SET_CHAIN (R402). -/
def execStatsSetChain (a : Arrival) (ps : List Word) (s : State) : Host.Outcome State Fault Refusal := .next (takeCommand statsSetChainSpec a ps s)

/-- STATS_SET_SNAPSHOT (R404). -/
def execStatsSetSnapshot (a : Arrival) (ps : List Word) (s : State) : Host.Outcome State Fault Refusal := .next (takeCommand statsSetSnapshotSpec a ps s)

/-- STATS_SNAP_NOW (R404). -/
def execStatsSnapNow (a : Arrival) (ps : List Word) (s : State) : Host.Outcome State Fault Refusal := .next (takeCommand statsSnapNowSpec a ps s)

/-- STATS_SET_SAMPLER (R407). -/
def execStatsSetSampler (a : Arrival) (ps : List Word) (s : State) : Host.Outcome State Fault Refusal := .next (takeCommand statsSetSamplerSpec a ps s)

/-- FW_GET_INFO (R462). -/
def execFwGetInfo (a : Arrival) (ps : List Word) (s : State) : Host.Outcome State Fault Refusal := .next (takeCommand fwGetInfoSpec a ps s)

/-- FW_WRITE_IMAGE (R463). -/
def execFwWriteImage (a : Arrival) (ps : List Word) (s : State) : Host.Outcome State Fault Refusal := .next (takeCommand fwWriteImageSpec a ps s)

/-- FW_VERIFY_IMAGE (R464). -/
def execFwVerifyImage (a : Arrival) (ps : List Word) (s : State) : Host.Outcome State Fault Refusal := .next (takeCommand fwVerifyImageSpec a ps s)

/-- FW_SELECT_SLOT (R465). -/
def execFwSelectSlot (a : Arrival) (ps : List Word) (s : State) : Host.Outcome State Fault Refusal := .next (takeCommand fwSelectSlotSpec a ps s)

/-- FW_RESTART (R466). -/
def execFwRestart (a : Arrival) (ps : List Word) (s : State) : Host.Outcome State Fault Refusal := .next (takeCommand fwRestartSpec a ps s)

end Sys2Proof.Machine
end

