-- ==== Sys2Proof/Machine/Dispatch.lean ====
section
/-! DEFINITION. The dispatch: one arm per constructor of `Instr`, each a direct call of its meaning. -/

namespace Sys2Proof.Machine

open Sys2Proof

def exec (i : Instr) (s : State) : Host.Outcome State Fault Refusal :=
  match i with
  | .supplyValid => Sys2Proof.Machine.execSupplyValid s
  | .brownOut => Sys2Proof.Machine.execBrownOut s
  | .powerCycle => Sys2Proof.Machine.execPowerCycle s
  | .holdupDraw => Sys2Proof.Machine.execHoldupDraw s
  | .holdupReturn => Sys2Proof.Machine.execHoldupReturn s
  | .resetNAssert => Sys2Proof.Machine.execResetNAssert s
  | .resetNRelease => Sys2Proof.Machine.execResetNRelease s
  | .pciePerst e => Sys2Proof.Machine.execPciePerst e s
  | .railFault rail => Sys2Proof.Machine.execRailFault rail s
  | .steerFault => Sys2Proof.Machine.execSteerFault s
  | .powerDieOvertemp => Sys2Proof.Machine.execPowerDieOvertemp s
  | .thermalShutdown => Sys2Proof.Machine.execThermalShutdown s
  | .supervisorBoot => Sys2Proof.Machine.execSupervisorBoot s
  | .railSequenceDone => Sys2Proof.Machine.execRailSequenceDone s
  | .engineLeaveReset e => Sys2Proof.Machine.execEngineLeaveReset e s
  | .engineBoot e recordsBad => Sys2Proof.Machine.execEngineBoot e recordsBad s
  | .initialCalibrationDone e => Sys2Proof.Machine.execInitialCalibrationDone e s
  | .engineReady e => Sys2Proof.Machine.execEngineReady e s
  | .engineBStartTimeout => Sys2Proof.Machine.execEngineBStartTimeout s
  | .sidebandBeat e toSup giveUp => Sys2Proof.Machine.execSidebandBeat e toSup giveUp s
  | .fofaeneBeat e giveUp => Sys2Proof.Machine.execFofaeneBeat e giveUp s
  | .heartbeatLoss p => Sys2Proof.Machine.execHeartbeatLoss p s
  | .giveUpWaitExpiry => Sys2Proof.Machine.execGiveUpWaitExpiry s
  | .supervisorFault cause => Sys2Proof.Machine.execSupervisorFault cause s
  | .supervisorRecovery => Sys2Proof.Machine.execSupervisorRecovery s
  | .supervisorRestartTimeout => Sys2Proof.Machine.execSupervisorRestartTimeout s
  | .fofLinkDown => Sys2Proof.Machine.execFofLinkDown s
  | .fofLinkUp => Sys2Proof.Machine.execFofLinkUp s
  | .steeringMoveDone => Sys2Proof.Machine.execSteeringMoveDone s
  | .outputAlignerHandover diffs => Sys2Proof.Machine.execOutputAlignerHandover diffs s
  | .switchoverComplete => Sys2Proof.Machine.execSwitchoverComplete s
  | .occupancyReport => Sys2Proof.Machine.execOccupancyReport s
  | .runningCommit => Sys2Proof.Machine.execRunningCommit s
  | .commitMarkerReceived => Sys2Proof.Machine.execCommitMarkerReceived s
  | .commitAckReceived => Sys2Proof.Machine.execCommitAckReceived s
  | .copyTimeout => Sys2Proof.Machine.execCopyTimeout s
  | .fullCopyEnd => Sys2Proof.Machine.execFullCopyEnd s
  | .timeWordSync => Sys2Proof.Machine.execTimeWordSync s
  | .tbPhaseMeasurement err heldUs => Sys2Proof.Machine.execTbPhaseMeasurement err heldUs s
  | .digestWindowClose => Sys2Proof.Machine.execDigestWindowClose s
  | .digestCompare => Sys2Proof.Machine.execDigestCompare s
  | .fastScrubEnd activeWords standbyWords => Sys2Proof.Machine.execFastScrubEnd activeWords standbyWords s
  | .swapPrepare => Sys2Proof.Machine.execSwapPrepare s
  | .swapAt => Sys2Proof.Machine.execSwapAt s
  | .swapSchedule => Sys2Proof.Machine.execSwapSchedule s
  | .swapRetry => Sys2Proof.Machine.execSwapRetry s
  | .proxyMirror => Sys2Proof.Machine.execProxyMirror s
  | .stepApply e => Sys2Proof.Machine.execStepApply e s
  | .slewComplete e => Sys2Proof.Machine.execSlewComplete e s
  | .lockWindowEnd e loop window dev => Sys2Proof.Machine.execLockWindowEnd e loop window dev s
  | .syntLoss e incNew phase => Sys2Proof.Machine.execSyntLoss e incNew phase s
  | .syntAnalogLock e => Sys2Proof.Machine.execSyntAnalogLock e s
  | .syntReturn e phase => Sys2Proof.Machine.execSyntReturn e phase s
  | .syntRelockRetry e => Sys2Proof.Machine.execSyntRelockRetry e s
  | .phasePullbackDone e => Sys2Proof.Machine.execPhasePullbackDone e s
  | .d0Lost e => Sys2Proof.Machine.execD0Lost e s
  | .evtinEdge e input rise heldNs after => Sys2Proof.Machine.execEvtinEdge e input rise heldNs after s
  | .pulseInputEdge e ref rise after => Sys2Proof.Machine.execPulseInputEdge e ref rise after s
  | .evtoutEdge e out => Sys2Proof.Machine.execEvtoutEdge e out s
  | .outputSlewDone e out => Sys2Proof.Machine.execOutputSlewDone e out s
  | .frameHeadReceived e port after bytes hands => Sys2Proof.Machine.execFrameHeadReceived e port after bytes hands s
  | .frameTailReceived e port fcs => Sys2Proof.Machine.execFrameTailReceived e port fcs s
  | .macControlReceived e port opcode vec quanta len => Sys2Proof.Machine.execMacControlReceived e port opcode vec quanta len s
  | .ahnudFrameReceived e port bytes fcs => Sys2Proof.Machine.execAhnudFrameReceived e port bytes fcs s
  | .mgmtFrameReceived e bytes fcs => Sys2Proof.Machine.execMgmtFrameReceived e bytes fcs s
  | .roundaboutPass1 e => Sys2Proof.Machine.execRoundaboutPass1 e s
  | .flipAt e => Sys2Proof.Machine.execFlipAt e s
  | .drainEnd e => Sys2Proof.Machine.execDrainEnd e s
  | .hostSendFetch e ring => Sys2Proof.Machine.execHostSendFetch e ring s
  | .txOpportunity e port after read => Sys2Proof.Machine.execTxOpportunity e port after read s
  | .copyTransmitEnd e port => Sys2Proof.Machine.execCopyTransmitEnd e port s
  | .drainFetchDone fetch => Sys2Proof.Machine.execDrainFetchDone fetch s
  | .mcResidueRetry e port cls => Sys2Proof.Machine.execMcResidueRetry e port cls s
  | .mcResidueAgeExpiry e port cls => Sys2Proof.Machine.execMcResidueAgeExpiry e port cls s
  | .crossStall e channel => Sys2Proof.Machine.execCrossStall e channel s
  | .pfcRepeat e port => Sys2Proof.Machine.execPfcRepeat e port s
  | .pauseTimerExpiry e port prio => Sys2Proof.Machine.execPauseTimerExpiry e port prio s
  | .pfcStorm e port cls => Sys2Proof.Machine.execPfcStorm e port cls s
  | .ageCheck e => Sys2Proof.Machine.execAgeCheck e s
  | .portDown e port cause => Sys2Proof.Machine.execPortDown e port cause s
  | .portUpCondition e port => Sys2Proof.Machine.execPortUpCondition e port s
  | .portUp e port => Sys2Proof.Machine.execPortUp e port s
  | .holdExpiry e port => Sys2Proof.Machine.execHoldExpiry e port s
  | .anResolved e port partner pause => Sys2Proof.Machine.execAnResolved e port partner pause s
  | .anFailure e port => Sys2Proof.Machine.execAnFailure e port s
  | .anRestart e port => Sys2Proof.Machine.execAnRestart e port s
  | .parallelDetectStep e port locked => Sys2Proof.Machine.execParallelDetectStep e port locked s
  | .hostPortDown e h1 cause => Sys2Proof.Machine.execHostPortDown e h1 cause s
  | .hostPortUp e h1 => Sys2Proof.Machine.execHostPortUp e h1 s
  | .preemptVerifyTimer e port => Sys2Proof.Machine.execPreemptVerifyTimer e port s
  | .ahnudOfferTimer e port => Sys2Proof.Machine.execAhnudOfferTimer e port s
  | .ahnudAnegWait e port => Sys2Proof.Machine.execAhnudAnegWait e port s
  | .ahnudKeepTimer e port => Sys2Proof.Machine.execAhnudKeepTimer e port s
  | .ahnudPartnerTimeout e port => Sys2Proof.Machine.execAhnudPartnerTimeout e port s
  | .gclEntryChange e port => Sys2Proof.Machine.execGclEntryChange e port s
  | .gclChangeTime e port => Sys2Proof.Machine.execGclChangeTime e port s
  | .tc2stepAge e => Sys2Proof.Machine.execTc2stepAge e s
  | .dupForget e => Sys2Proof.Machine.execDupForget e s
  | .proxyAge e => Sys2Proof.Machine.execProxyAge e s
  | .fdbAgeSweep e => Sys2Proof.Machine.execFdbAgeSweep e s
  | .ptpSyncSend e dom port => Sys2Proof.Machine.execPtpSyncSend e dom port s
  | .ptpDelayReqSend e dom port => Sys2Proof.Machine.execPtpDelayReqSend e dom port s
  | .ptpNoSample e dom => Sys2Proof.Machine.execPtpNoSample e dom s
  | .anchorSample e port phi => Sys2Proof.Machine.execAnchorSample e port phi s
  | .anchorReset e port => Sys2Proof.Machine.execAnchorReset e port s
  | .servoUpdate e => Sys2Proof.Machine.execServoUpdate e s
  | .buildOutSlewDone e => Sys2Proof.Machine.execBuildOutSlewDone e s
  | .asymModelRecompute e port => Sys2Proof.Machine.execAsymModelRecompute e port s
  | .calAsymWindowEnd e => Sys2Proof.Machine.execCalAsymWindowEnd e s
  | .refMeasure e ref frq phase => Sys2Proof.Machine.execRefMeasure e ref frq phase s
  | .refLossOfSignal e ref => Sys2Proof.Machine.execRefLossOfSignal e ref s
  | .refQualifyTimer e ref => Sys2Proof.Machine.execRefQualifyTimer e ref s
  | .governorSample e => Sys2Proof.Machine.execGovernorSample e s
  | .speedMonitorWindow e speeds => Sys2Proof.Machine.execSpeedMonitorWindow e speeds s
  | .paceReplyTimeout => Sys2Proof.Machine.execPaceReplyTimeout s
  | .faultMessageArrival e => Sys2Proof.Machine.execFaultMessageArrival e s
  | .f2WindowEnd e source kind inj => Sys2Proof.Machine.execF2WindowEnd e source kind inj s
  | .f3WindowEnd e inj => Sys2Proof.Machine.execF3WindowEnd e inj s
  | .blockResetReady e reset => Sys2Proof.Machine.execBlockResetReady e reset s
  | .blockResetOverdue e reset => Sys2Proof.Machine.execBlockResetOverdue e reset s
  | .collectorCheck e => Sys2Proof.Machine.execCollectorCheck e s
  | .ringWatchdog e => Sys2Proof.Machine.execRingWatchdog e s
  | .fwWatchdog e => Sys2Proof.Machine.execFwWatchdog e s
  | .bufferScrub e store wordNo outcome late => Sys2Proof.Machine.execBufferScrub e store wordNo outcome late s
  | .tableScrub e table index corrected => Sys2Proof.Machine.execTableScrub e table index corrected s
  | .calDue e kind idx => Sys2Proof.Machine.execCalDue e kind idx s
  | .calProbe e kind idx ok value => Sys2Proof.Machine.execCalProbe e kind idx ok value s
  | .calStarve e kind idx => Sys2Proof.Machine.execCalStarve e kind idx s
  | .trimStep e => Sys2Proof.Machine.execTrimStep e s
  | .dieTempRead e raw => Sys2Proof.Machine.execDieTempRead e raw s
  | .repairPassEnd e => Sys2Proof.Machine.execRepairPassEnd e s
  | .snapshotInstant e => Sys2Proof.Machine.execSnapshotInstant e s
  | .snapshotWritten e => Sys2Proof.Machine.execSnapshotWritten e s
  | .sampleRecordMove e => Sys2Proof.Machine.execSampleRecordMove e s
  | .ringRecordDelivery e ring => Sys2Proof.Machine.execRingRecordDelivery e ring s
  | .ringDoorbellWrite e ring idx descs => Sys2Proof.Machine.execRingDoorbellWrite e ring idx descs s
  | .mboxCmdWrite e offset bytes => Sys2Proof.Machine.execMboxCmdWrite e offset bytes s
  | .mboxDoorbellWrite e len => Sys2Proof.Machine.execMboxDoorbellWrite e len s
  | .mboxReadyClear e => Sys2Proof.Machine.execMboxReadyClear e s
  | .pcieLinkDown e => Sys2Proof.Machine.execPcieLinkDown e s
  | .irqModerationExpiry e bit => Sys2Proof.Machine.execIrqModerationExpiry e bit s
  | .spiWritePacket bytes complete => Sys2Proof.Machine.execSpiWritePacket bytes complete s
  | .spiReadStatus => Sys2Proof.Machine.execSpiReadStatus s
  | .spiReadReply whole => Sys2Proof.Machine.execSpiReadReply whole s
  | .spiUnknownInstruction => Sys2Proof.Machine.execSpiUnknownInstruction s
  | .timeNsecRead e latch => Sys2Proof.Machine.execTimeNsecRead e latch s
  | .monitorRegRead e k => Sys2Proof.Machine.execMonitorRegRead e k s
  | .ringStatRead e ring => Sys2Proof.Machine.execRingStatRead e ring s
  | .channelStatRead e ch => Sys2Proof.Machine.execChannelStatRead e ch s
  | .domainLossClear e mask => Sys2Proof.Machine.execDomainLossClear e mask s
  | .paceDroppedClear e => Sys2Proof.Machine.execPaceDroppedClear e s
  | .evtStatusClear e mask => Sys2Proof.Machine.execEvtStatusClear e mask s
  | .portLinkChgClear e mask => Sys2Proof.Machine.execPortLinkChgClear e mask s
  | .hostLinkChgClear e mask => Sys2Proof.Machine.execHostLinkChgClear e mask s
  | .stormClear e port mask => Sys2Proof.Machine.execStormClear e port mask s
  | .refHistClear e ref mask => Sys2Proof.Machine.execRefHistClear e ref mask s
  | .firstValidClear e => Sys2Proof.Machine.execFirstValidClear e s
  | .injValidClear e => Sys2Proof.Machine.execInjValidClear e s
  | .irqStatusClear e mask => Sys2Proof.Machine.execIrqStatusClear e mask s
  | .registerWriteIgnored e offset value => Sys2Proof.Machine.execRegisterWriteIgnored e offset value s
  | .fwSessionTimeout u => Sys2Proof.Machine.execFwSessionTimeout u s
  | .fwRestartExecute u => Sys2Proof.Machine.execFwRestartExecute u s
  | .fuseBurnDone u => Sys2Proof.Machine.execFuseBurnDone u s
  | .sysReadReg a ps => Sys2Proof.Machine.execSysReadReg a ps s
  | .sysSetPace a ps => Sys2Proof.Machine.execSysSetPace a ps s
  | .sysSetRing a ps => Sys2Proof.Machine.execSysSetRing a ps s
  | .sysSetIrq a ps => Sys2Proof.Machine.execSysSetIrq a ps s
  | .sysNop a ps => Sys2Proof.Machine.execSysNop a ps s
  | .sysSetMgmt a ps => Sys2Proof.Machine.execSysSetMgmt a ps s
  | .portSetMode a ps => Sys2Proof.Machine.execPortSetMode a ps s
  | .portSetLinkTimers a ps => Sys2Proof.Machine.execPortSetLinkTimers a ps s
  | .portSetTimeLevels a ps => Sys2Proof.Machine.execPortSetTimeLevels a ps s
  | .portSetAhnudEtype a ps => Sys2Proof.Machine.execPortSetAhnudEtype a ps s
  | .portSetCutThrough a ps => Sys2Proof.Machine.execPortSetCutThrough a ps s
  | .parseSetPort a ps => Sys2Proof.Machine.execParseSetPort a ps s
  | .parseWriteNode a ps => Sys2Proof.Machine.execParseWriteNode a ps s
  | .parseReadNode a ps => Sys2Proof.Machine.execParseReadNode a ps s
  | .parseCommit a ps => Sys2Proof.Machine.execParseCommit a ps s
  | .parseLoadDefaults a ps => Sys2Proof.Machine.execParseLoadDefaults a ps s
  | .ruleWriteEntry a ps => Sys2Proof.Machine.execRuleWriteEntry a ps s
  | .ruleReadEntry a ps => Sys2Proof.Machine.execRuleReadEntry a ps s
  | .ruleWriteProfile a ps => Sys2Proof.Machine.execRuleWriteProfile a ps s
  | .ruleClearBank a ps => Sys2Proof.Machine.execRuleClearBank a ps s
  | .ruleFlipBank a ps => Sys2Proof.Machine.execRuleFlipBank a ps s
  | .ruleSetOrg a ps => Sys2Proof.Machine.execRuleSetOrg a ps s
  | .ruleLoadDefaults a ps => Sys2Proof.Machine.execRuleLoadDefaults a ps s
  | .ruleSetPort a ps => Sys2Proof.Machine.execRuleSetPort a ps s
  | .ruleWriteRewrite a ps => Sys2Proof.Machine.execRuleWriteRewrite a ps s
  | .ruleWriteMeter a ps => Sys2Proof.Machine.execRuleWriteMeter a ps s
  | .ruleSetMirror a ps => Sys2Proof.Machine.execRuleSetMirror a ps s
  | .fwdAdd a ps => Sys2Proof.Machine.execFwdAdd a ps s
  | .fwdDelete a ps => Sys2Proof.Machine.execFwdDelete a ps s
  | .fwdLookup a ps => Sys2Proof.Machine.execFwdLookup a ps s
  | .fwdFlush a ps => Sys2Proof.Machine.execFwdFlush a ps s
  | .fwdSetLearn a ps => Sys2Proof.Machine.execFwdSetLearn a ps s
  | .fwdSetAgeing a ps => Sys2Proof.Machine.execFwdSetAgeing a ps s
  | .fwdSetVlan a ps => Sys2Proof.Machine.execFwdSetVlan a ps s
  | .fwdWriteMcast a ps => Sys2Proof.Machine.execFwdWriteMcast a ps s
  | .fwdSetSpread a ps => Sys2Proof.Machine.execFwdSetSpread a ps s
  | .fwdWriteIndirect a ps => Sys2Proof.Machine.execFwdWriteIndirect a ps s
  | .fwdSetMcResidue a ps => Sys2Proof.Machine.execFwdSetMcResidue a ps s
  | .queueSetClass a ps => Sys2Proof.Machine.execQueueSetClass a ps s
  | .queueSetPortFc a ps => Sys2Proof.Machine.execQueueSetPortFc a ps s
  | .queueSetMin a ps => Sys2Proof.Machine.execQueueSetMin a ps s
  | .queueSetAge a ps => Sys2Proof.Machine.execQueueSetAge a ps s
  | .queueSetBufferMode a ps => Sys2Proof.Machine.execQueueSetBufferMode a ps s
  | .queueGetOccupancy a ps => Sys2Proof.Machine.execQueueGetOccupancy a ps s
  | .schedSetClass a ps => Sys2Proof.Machine.execSchedSetClass a ps s
  | .schedSetPortShaper a ps => Sys2Proof.Machine.execSchedSetPortShaper a ps s
  | .schedWriteGcl a ps => Sys2Proof.Machine.execSchedWriteGcl a ps s
  | .schedCommitGcl a ps => Sys2Proof.Machine.execSchedCommitGcl a ps s
  | .schedSetPreempt a ps => Sys2Proof.Machine.execSchedSetPreempt a ps s
  | .schedSetLaunch a ps => Sys2Proof.Machine.execSchedSetLaunch a ps s
  | .schedSetRedundancy a ps => Sys2Proof.Machine.execSchedSetRedundancy a ps s
  | .timeGet a ps => Sys2Proof.Machine.execTimeGet a ps s
  | .timeSet a ps => Sys2Proof.Machine.execTimeSet a ps s
  | .timeStep a ps => Sys2Proof.Machine.execTimeStep a ps s
  | .timeSetBoardDelay a ps => Sys2Proof.Machine.execTimeSetBoardDelay a ps s
  | .timeSetEvtin a ps => Sys2Proof.Machine.execTimeSetEvtin a ps s
  | .timeReadEvents a ps => Sys2Proof.Machine.execTimeReadEvents a ps s
  | .timeSchedEdge a ps => Sys2Proof.Machine.execTimeSchedEdge a ps s
  | .timeSetDomain a ps => Sys2Proof.Machine.execTimeSetDomain a ps s
  | .timeSetPtpPort a ps => Sys2Proof.Machine.execTimeSetPtpPort a ps s
  | .timeSetTc a ps => Sys2Proof.Machine.execTimeSetTc a ps s
  | .timeSetAsym a ps => Sys2Proof.Machine.execTimeSetAsym a ps s
  | .timeCalAsym a ps => Sys2Proof.Machine.execTimeCalAsym a ps s
  | .timeSwitchDomain a ps => Sys2Proof.Machine.execTimeSwitchDomain a ps s
  | .timePutSample a ps => Sys2Proof.Machine.execTimePutSample a ps s
  | .timeAlignOutputs a ps => Sys2Proof.Machine.execTimeAlignOutputs a ps s
  | .refSetInput a ps => Sys2Proof.Machine.execRefSetInput a ps s
  | .refSetSlot a ps => Sys2Proof.Machine.execRefSetSlot a ps s
  | .refForce a ps => Sys2Proof.Machine.execRefForce a ps s
  | .refGetStatus a ps => Sys2Proof.Machine.execRefGetStatus a ps s
  | .refSetOsc a ps => Sys2Proof.Machine.execRefSetOsc a ps s
  | .outSetSynth a ps => Sys2Proof.Machine.execOutSetSynth a ps s
  | .outSetClkout a ps => Sys2Proof.Machine.execOutSetClkout a ps s
  | .outSetPpsout a ps => Sys2Proof.Machine.execOutSetPpsout a ps s
  | .twinGetState a ps => Sys2Proof.Machine.execTwinGetState a ps s
  | .twinSwapRoles a ps => Sys2Proof.Machine.execTwinSwapRoles a ps s
  | .twinSetSwap a ps => Sys2Proof.Machine.execTwinSetSwap a ps s
  | .twinRejoin a ps => Sys2Proof.Machine.execTwinRejoin a ps s
  | .twinFence a ps => Sys2Proof.Machine.execTwinFence a ps s
  | .faultSetWindows a ps => Sys2Proof.Machine.execFaultSetWindows a ps s
  | .faultSetEvents a ps => Sys2Proof.Machine.execFaultSetEvents a ps s
  | .faultGetFirst a ps => Sys2Proof.Machine.execFaultGetFirst a ps s
  | .faultActNow a ps => Sys2Proof.Machine.execFaultActNow a ps s
  | .faultInject a ps => Sys2Proof.Machine.execFaultInject a ps s
  | .faultInjectEcc a ps => Sys2Proof.Machine.execFaultInjectEcc a ps s
  | .faultClearInj a ps => Sys2Proof.Machine.execFaultClearInj a ps s
  | .faultRelease a ps => Sys2Proof.Machine.execFaultRelease a ps s
  | .faultReadLog a ps => Sys2Proof.Machine.execFaultReadLog a ps s
  | .calSet a ps => Sys2Proof.Machine.execCalSet a ps s
  | .calGetStatus a ps => Sys2Proof.Machine.execCalGetStatus a ps s
  | .calRun a ps => Sys2Proof.Machine.execCalRun a ps s
  | .calRepair a ps => Sys2Proof.Machine.execCalRepair a ps s
  | .statsRead a ps => Sys2Proof.Machine.execStatsRead a ps s
  | .statsClear a ps => Sys2Proof.Machine.execStatsClear a ps s
  | .statsSetChain a ps => Sys2Proof.Machine.execStatsSetChain a ps s
  | .statsSetSnapshot a ps => Sys2Proof.Machine.execStatsSetSnapshot a ps s
  | .statsSnapNow a ps => Sys2Proof.Machine.execStatsSnapNow a ps s
  | .statsSetSampler a ps => Sys2Proof.Machine.execStatsSetSampler a ps s
  | .fwGetInfo a ps => Sys2Proof.Machine.execFwGetInfo a ps s
  | .fwWriteImage a ps => Sys2Proof.Machine.execFwWriteImage a ps s
  | .fwVerifyImage a ps => Sys2Proof.Machine.execFwVerifyImage a ps s
  | .fwSelectSlot a ps => Sys2Proof.Machine.execFwSelectSlot a ps s
  | .fwRestart a ps => Sys2Proof.Machine.execFwRestart a ps s
  | .hostLinkReturn e h1 => Sys2Proof.Machine.execHostLinkReturn e h1 s
  | .blockLockChange e port cond met => Sys2Proof.Machine.execBlockLockChange e port cond met s
  | .linkTrainingComplete e port supported pause => Sys2Proof.Machine.execLinkTrainingComplete e port supported pause s
  | .preemptVerifyResponse e port => Sys2Proof.Machine.execPreemptVerifyResponse e port s
  | .l1syncSend e port => Sys2Proof.Machine.execL1syncSend e port s
  | .fofTimestampReceived port stamp => Sys2Proof.Machine.execFofTimestampReceived port stamp s

end Sys2Proof.Machine
end

