-- ==== Sys2Proof/Safety.lean ====
section
/-! DEFINITION. What claims call a legal state of the module: the supply, the start-up and the engines agree with one another
(Table 16.1, Table 17.1, Table 0.1). -/

namespace Sys2Proof

open Sys2Proof.Machine

/-- A legal state: an engine is in operation only where the part has it and while the rails are up; the rails are up and good only
after supply-valid and after step 4 of Table 16.1; the step reached is one of Table 16.1; and the module does not report a
brown-out while its supply is valid. -/
structure Legal (s : State) : Prop where
  awakeA : s.engA.awake = true → s.power.railsUp = true
  awakeB : s.engB.awake = true → s.power.railsUp = true ∧ twinPart s.part = true
  good : s.power.railsGood = true → s.power.railsUp = true
  rails : s.power.railsUp = true → s.power.supplyValid = true
  brown : s.power.supplyValid = true → s.power.brownOut = false
  last : s.power.startStep ≤ 5
  down : s.power.supplyValid = false → s.power.startStep = 0
  up : s.power.railsUp = true → 4 ≤ s.power.startStep

/-- An engine that the part has and that has left reset: events inside it take their effect. -/
structure InOperation (s : State) (e : EngId) : Prop where
  fitted : engFitted s.part e = true
  awake : (s.eng e).awake = true

/-- The engines of a part with two of them, one the active and one the standby, the active's firmware taking commands, the Fofaene
link up and the standby's copy current (COPY 2): what is mirrored reaches the standby. -/
structure Mirrors (s : State) (a d : EngId) : Prop where
  twin : twinPart s.part = true
  act : s.active = some a
  sby : s.standby = some d
  link : s.fof.up = true
  current : (s.eng d).twin.copy = 2
  serving : (s.eng a).serving = true

/-- A run of Table 11.3 whose new active still holds its role. -/
structure Switching (s : State) (r : SwitchRun) : Prop where
  twin : twinPart s.part = true
  run : s.sup.switch = some r
  holds : runHolds r s = true

/-- The part has the unit; every part has a supervisor (Table 0.1). -/
def unitFitted (p : Part) : UnitId → Bool
  | .sup => true
  | .eng e => engFitted p e

/-- An event inside an engine: where the engine is in operation, `f` is all it does. -/
def Does (i : EngId → Instr) (f : EngId → State → State) : Prop :=
  ∀ (e : EngId) (s : State), InOperation s e → exec (i e) s = .next (f e s)

/-- An event inside an engine that changes that engine and nothing else. -/
def Changes (i : EngId → Instr) (f : Engine → Engine) : Prop :=
  ∀ (e : EngId) (s : State), InOperation s e → exec (i e) s = .next (s.modEng e f)

/-- An event inside an engine, after which replies that are due go out, commands that can go on do, and the command rings are
fetched. -/
def DoesThenSettles (i : EngId → Instr) (f : EngId → State → State) : Prop :=
  ∀ (e : EngId) (s : State), InOperation s e → exec (i e) s = .next (settled (f e s))

/-- The state once a packet has been taken from its channel: its tag is outstanding, and a stored reply under its tag is gone. -/
def begun (a : Arrival) (s : State) : State := takeTag a (dropReplay a s)

/-- A packet that its channel takes and that is executed at once by the unit `u`: the channel is open, the tag is new and has
room, no stored reply answers it, it is not fenced, and its target resolves to `u` (Table 15.4 checks 6 to 9, R425, R441). -/
structure Taken (a : Arrival) (s : State) (u : UnitId) (forwarded : Bool) : Prop where
  opened : channelOpen a s = true
  fresh : (tagsOf a s).contains a.tag = false
  room : (tagsOf a s).length < 64
  unheard : (replayOf a s).find? (fun q => q.reply.tag = a.tag && q.crc = a.crc) = none
  unfenced : a.fence = false
  routed : route a (begun a s) = .unit u forwarded

/-- What a command does when it is taken and passes checks 10 to 17 of Table 15.4: its effect `eff` on the unit that executes
it, then its commit if it is mirrored, its reply or its place among the commands that wait, and what the channels do next. -/
def CommandDoes (sp : CmdSpec) (i : Arrival → List Word → Instr) (eff : Ctx → List Word → State → Applied) : Prop :=
  ∀ (a : Arrival) (ps : List Word) (s : State) (u : UnitId) (fwd : Bool), Taken a s u fwd →
    check sp { unit := u, arrival := a, mirror := false } ps (begun a s) = none →
    exec (i a ps) s = .next (settled (perform { sp with apply := eff } u a fwd ps (begun a s)))

/-- An effect that changes the engine that executes it, and nothing else; the reply has no body. -/
def sets (f : List Word → Engine → Engine) (c : Ctx) (ps : List Word) (s : State) : Applied :=
  { state := s.modEng c.eng (f ps), body := [], await := none }

/-- The same, with a reply body read before the change. -/
def setsTelling (f : List Word → Engine → Engine) (body : List Word → Engine → List Word) (c : Ctx) (ps : List Word) (s : State) : Applied :=
  { state := s.modEng c.eng (f ps), body := body ps (s.eng c.eng), await := none }

/-- An effect that changes nothing: the reply's body is read from the engine that executes the command. -/
def tells (body : List Word → Engine → List Word) (c : Ctx) (ps : List Word) (s : State) : Applied :=
  { state := s, body := body ps (s.eng c.eng), await := none }

/-- An effect on the engine that executes it, whose reply waits. -/
def setsAwaiting (f : List Word → Engine → Engine) (w : List Word → Await) (c : Ctx) (ps : List Word) (s : State) : Applied :=
  { state := s.modEng c.eng (f ps), body := [], await := some (w ps) }

/-- The host command that a row carries, with its packet's arrival and its parameters; none for the other rows. -/
def commandOf : Instr → Option (CmdSpec × Arrival × List Word)
  | .sysReadReg a ps => some (sysReadRegSpec, a, ps)
  | .sysSetPace a ps => some (sysSetPaceSpec, a, ps)
  | .sysSetRing a ps => some (sysSetRingSpec, a, ps)
  | .sysSetIrq a ps => some (sysSetIrqSpec, a, ps)
  | .sysNop a ps => some (sysNopSpec, a, ps)
  | .sysSetMgmt a ps => some (sysSetMgmtSpec, a, ps)
  | .portSetMode a ps => some (portSetModeSpec, a, ps)
  | .portSetLinkTimers a ps => some (portSetLinkTimersSpec, a, ps)
  | .portSetTimeLevels a ps => some (portSetTimeLevelsSpec, a, ps)
  | .portSetAhnudEtype a ps => some (portSetAhnudEtypeSpec, a, ps)
  | .portSetCutThrough a ps => some (portSetCutThroughSpec, a, ps)
  | .parseSetPort a ps => some (parseSetPortSpec, a, ps)
  | .parseWriteNode a ps => some (parseWriteNodeSpec, a, ps)
  | .parseReadNode a ps => some (parseReadNodeSpec, a, ps)
  | .parseCommit a ps => some (parseCommitSpec, a, ps)
  | .parseLoadDefaults a ps => some (parseLoadDefaultsSpec, a, ps)
  | .ruleWriteEntry a ps => some (ruleWriteEntrySpec, a, ps)
  | .ruleReadEntry a ps => some (ruleReadEntrySpec, a, ps)
  | .ruleWriteProfile a ps => some (ruleWriteProfileSpec, a, ps)
  | .ruleClearBank a ps => some (ruleClearBankSpec, a, ps)
  | .ruleFlipBank a ps => some (ruleFlipBankSpec, a, ps)
  | .ruleSetOrg a ps => some (ruleSetOrgSpec, a, ps)
  | .ruleLoadDefaults a ps => some (ruleLoadDefaultsSpec, a, ps)
  | .ruleSetPort a ps => some (ruleSetPortSpec, a, ps)
  | .ruleWriteRewrite a ps => some (ruleWriteRewriteSpec, a, ps)
  | .ruleWriteMeter a ps => some (ruleWriteMeterSpec, a, ps)
  | .ruleSetMirror a ps => some (ruleSetMirrorSpec, a, ps)
  | .fwdAdd a ps => some (fwdAddSpec, a, ps)
  | .fwdDelete a ps => some (fwdDeleteSpec, a, ps)
  | .fwdLookup a ps => some (fwdLookupSpec, a, ps)
  | .fwdFlush a ps => some (fwdFlushSpec, a, ps)
  | .fwdSetLearn a ps => some (fwdSetLearnSpec, a, ps)
  | .fwdSetAgeing a ps => some (fwdSetAgeingSpec, a, ps)
  | .fwdSetVlan a ps => some (fwdSetVlanSpec, a, ps)
  | .fwdWriteMcast a ps => some (fwdWriteMcastSpec, a, ps)
  | .fwdSetSpread a ps => some (fwdSetSpreadSpec, a, ps)
  | .fwdWriteIndirect a ps => some (fwdWriteIndirectSpec, a, ps)
  | .fwdSetMcResidue a ps => some (fwdSetMcResidueSpec, a, ps)
  | .queueSetClass a ps => some (queueSetClassSpec, a, ps)
  | .queueSetPortFc a ps => some (queueSetPortFcSpec, a, ps)
  | .queueSetMin a ps => some (queueSetMinSpec, a, ps)
  | .queueSetAge a ps => some (queueSetAgeSpec, a, ps)
  | .queueSetBufferMode a ps => some (queueSetBufferModeSpec, a, ps)
  | .queueGetOccupancy a ps => some (queueGetOccupancySpec, a, ps)
  | .schedSetClass a ps => some (schedSetClassSpec, a, ps)
  | .schedSetPortShaper a ps => some (schedSetPortShaperSpec, a, ps)
  | .schedWriteGcl a ps => some (schedWriteGclSpec, a, ps)
  | .schedCommitGcl a ps => some (schedCommitGclSpec, a, ps)
  | .schedSetPreempt a ps => some (schedSetPreemptSpec, a, ps)
  | .schedSetLaunch a ps => some (schedSetLaunchSpec, a, ps)
  | .schedSetRedundancy a ps => some (schedSetRedundancySpec, a, ps)
  | .timeGet a ps => some (timeGetSpec, a, ps)
  | .timeSet a ps => some (timeSetSpec, a, ps)
  | .timeStep a ps => some (timeStepSpec, a, ps)
  | .timeSetBoardDelay a ps => some (timeSetBoardDelaySpec, a, ps)
  | .timeSetEvtin a ps => some (timeSetEvtinSpec, a, ps)
  | .timeReadEvents a ps => some (timeReadEventsSpec, a, ps)
  | .timeSchedEdge a ps => some (timeSchedEdgeSpec, a, ps)
  | .timeSetDomain a ps => some (timeSetDomainSpec, a, ps)
  | .timeSetPtpPort a ps => some (timeSetPtpPortSpec, a, ps)
  | .timeSetTc a ps => some (timeSetTcSpec, a, ps)
  | .timeSetAsym a ps => some (timeSetAsymSpec, a, ps)
  | .timeCalAsym a ps => some (timeCalAsymSpec, a, ps)
  | .timeSwitchDomain a ps => some (timeSwitchDomainSpec, a, ps)
  | .timePutSample a ps => some (timePutSampleSpec, a, ps)
  | .timeAlignOutputs a ps => some (timeAlignOutputsSpec, a, ps)
  | .refSetInput a ps => some (refSetInputSpec, a, ps)
  | .refSetSlot a ps => some (refSetSlotSpec, a, ps)
  | .refForce a ps => some (refForceSpec, a, ps)
  | .refGetStatus a ps => some (refGetStatusSpec, a, ps)
  | .refSetOsc a ps => some (refSetOscSpec, a, ps)
  | .outSetSynth a ps => some (outSetSynthSpec, a, ps)
  | .outSetClkout a ps => some (outSetClkoutSpec, a, ps)
  | .outSetPpsout a ps => some (outSetPpsoutSpec, a, ps)
  | .twinGetState a ps => some (twinGetStateSpec, a, ps)
  | .twinSwapRoles a ps => some (twinSwapRolesSpec, a, ps)
  | .twinSetSwap a ps => some (twinSetSwapSpec, a, ps)
  | .twinRejoin a ps => some (twinRejoinSpec, a, ps)
  | .twinFence a ps => some (twinFenceSpec, a, ps)
  | .faultSetWindows a ps => some (faultSetWindowsSpec, a, ps)
  | .faultSetEvents a ps => some (faultSetEventsSpec, a, ps)
  | .faultGetFirst a ps => some (faultGetFirstSpec, a, ps)
  | .faultActNow a ps => some (faultActNowSpec, a, ps)
  | .faultInject a ps => some (faultInjectSpec, a, ps)
  | .faultInjectEcc a ps => some (faultInjectEccSpec, a, ps)
  | .faultClearInj a ps => some (faultClearInjSpec, a, ps)
  | .faultRelease a ps => some (faultReleaseSpec, a, ps)
  | .faultReadLog a ps => some (faultReadLogSpec, a, ps)
  | .calSet a ps => some (calSetSpec, a, ps)
  | .calGetStatus a ps => some (calGetStatusSpec, a, ps)
  | .calRun a ps => some (calRunSpec, a, ps)
  | .calRepair a ps => some (calRepairSpec, a, ps)
  | .statsRead a ps => some (statsReadSpec, a, ps)
  | .statsClear a ps => some (statsClearSpec, a, ps)
  | .statsSetChain a ps => some (statsSetChainSpec, a, ps)
  | .statsSetSnapshot a ps => some (statsSetSnapshotSpec, a, ps)
  | .statsSnapNow a ps => some (statsSnapNowSpec, a, ps)
  | .statsSetSampler a ps => some (statsSetSamplerSpec, a, ps)
  | .fwGetInfo a ps => some (fwGetInfoSpec, a, ps)
  | .fwWriteImage a ps => some (fwWriteImageSpec, a, ps)
  | .fwVerifyImage a ps => some (fwVerifyImageSpec, a, ps)
  | .fwSelectSlot a ps => some (fwSelectSlotSpec, a, ps)
  | .fwRestart a ps => some (fwRestartSpec, a, ps)
  | _ => none

/-- A packet passes checks 10 to 12 of Table 15.4: its length, its reserved fields and the units it names. -/
structure Formed (sp : CmdSpec) (c : Ctx) (ps : List Word) (s : State) : Prop where
  length : sp.lenOk c s ps = true
  reserved : sp.rsvdOk ps = true
  present : sp.absent s.part ps = false

/-- The executing unit may take the command, and its mode lets it (checks 13 and 14). -/
structure Allowed (sp : CmdSpec) (u : UnitId) (s : State) : Prop where
  role : roleErr sp u s = false
  mode : stateErr sp u s = false

/-- The command is answered with a status and a body, and changes nothing else. -/
def Answered (i : Instr) (s : State) (a : Arrival) (u : UnitId) (forwarded : Bool) (op : BitVec 16) (st : Status) (body : List Word) : Prop :=
  exec i s = .next (settled (deliver a (replyNow u a op forwarded st body (begun a s)) (begun a s)))

/-- Nothing waits on any channel: no command waits for its completion, none is held, no command ring can be fetched, and no commit of
the parse graph is on the link. -/
structure Quiet (s : State) : Prop where
  waitA : s.engA.host.waiting = []
  waitB : s.engB.host.waiting = []
  waitS : s.sup.waiting = []
  rest : channelStep s = none
  graph : (splitGraph s.fof.commits).1 = []

end Sys2Proof
end

