-- ==== Sys2Proof/Certificates/Slice0/Obligations.lean ====
section
/-! DEFINITION. The statements about the model, for the provers. Each says in its docstring which rules of the manual it
rests on; the conventions of the model it rests on are named by their log entries. -/

open Sys2Proof Sys2Proof.Machine


/-- A step runs the command at the front of the queue, on the state with the queue's rest. -/
def Obligations.StepRunsFrontCommand : Prop :=
  ∀ (s : State) (c : Instr) (rest : List Instr), s.pending = c :: rest → step s = exec c { s with pending := rest }

/-- On an empty queue one D1 cycle passes on every engine out of reset (DESIGN CHOICE, log 4), and replies that are due go out; no table
word spells a command (log 5). -/
def Obligations.IdleStepIsOneTick : Prop :=
  (∀ s : State, s.pending = [] → step s = .next (settled (({ s with ticks := s.ticks + 1 } : State).modBoth fun x =>
      if x.awake = true then { x with time := passTime x.clk.fallback 1 x.time } else x)))
  ∧ ∀ (s : State) (n w : Nat), s.withFetchWord n w = s ∧ decodeTableWord n w = none

/-- After reset nothing is wrong with the module, and it holds what the manual gives (R19, R69, R91, R340, R399, R473, R475, Table 1.8,
Table 5.5): no supply, every engine off, no counter counted, no input captured, the pace Balanced, CFG_GEN and the epoch 0, F4_LATCHED clear.
The part is the model's choice (log 1). -/
def Obligations.ResetIsLegal : Prop :=
  Legal State.reset ∧ State.reset.pending = [] ∧ State.reset.power.supplyValid = false ∧ State.reset.power.railsUp = false
  ∧ ∀ e : EngId, let x := State.reset.eng e
      x.core.phase = .off ∧ x.stats.counters = [] ∧ (∀ n : Fin 8, x.time.evtIn[n].edge = 0) ∧ x.pace.pace = 0 ∧ x.host.cfgGen = 0
      ∧ x.rules.epoch = 0 ∧ x.fault.f4Latched = false ∧ x.time.tbSet = false ∧ x.core.role = 0 ∧ Memory.wf x.host.mbox.cmd = true

/-- Every step keeps the state legal (Tables 16.1 and 17.1): an engine is in operation only with the rails up and only where the part has
it; the rails are up only with the supply valid; the start-up steps go with the supply. -/
def Obligations.EveryStepKeepsTheStateLegal : Prop :=
  ∀ s t : State, Legal s → step s = .next t → Legal t

/-- No command faults; every command answers a next state, but for an event of engine B or of the Fofaene link on a part without them
(Table 0.1), which is refused by name; and no command changes the part or the queue of commands. -/
def Obligations.EveryCommandCompletes : Prop :=
  (∀ (c : Instr) (s : State), (∃ t, exec c s = .next t) ∨ (exec c s = .refused .noSuchUnit ∧ twinPart s.part = false))
  ∧ ∀ (c : Instr) (s t : State), exec c s = .next t → t.part = s.part ∧ t.pending = s.pending

/-- Only the events of the supply and of start-up move the supply (R473 to R477, R501, Table 16.1): every other command leaves supply-valid,
the brown-out latch and the rails as they are, never makes the rails good, and brings no engine out of reset but ENGINE_LEAVE_RESET and
RESET_N_RELEASE, which the rails allow. -/
def Obligations.SupplyMovesOnlyByItsEvents : Prop :=
  ∀ (c : Instr) (s t : State), c ≠ .supplyValid → c ≠ .brownOut → c ≠ .thermalShutdown → c ≠ .supervisorBoot → c ≠ .railSequenceDone →
    exec c s = .next t →
    t.power.supplyValid = s.power.supplyValid ∧ t.power.brownOut = s.power.brownOut ∧ t.power.railsUp = s.power.railsUp
    ∧ (t.power.railsGood = true → s.power.railsGood = true)
    ∧ (t.power.startStep = s.power.startStep ∨ (t.power.startStep = 5 ∧ s.power.railsUp = true))
    ∧ ∀ e : EngId, (t.eng e).awake = true → (s.eng e).awake = true ∨ s.power.railsUp = true

/-- A host command that fails one of checks 10 to 17 is answered with the status and the body of the first check that fails, and changes
nothing else (R423, R419, R424); one whose target cannot be reached is answered where it arrived. -/
def Obligations.RefusedCommandsChangeNothing : Prop :=
  ∀ (i : Instr) (sp : CmdSpec) (a : Arrival) (ps : List Word) (s : State), commandOf i = some (sp, a, ps) →
    (∀ (u : UnitId) (fwd : Bool) (st : Status) (body : List Word), Taken a s u fwd →
      check sp { unit := u, arrival := a, mirror := false } ps (begun a s) = some (st, body) → Answered i s a u fwd sp.opcode st body)
    ∧ (∀ st : Status, channelOpen a s = true → (tagsOf a s).contains a.tag = false → (tagsOf a s).length < 64 →
        (replayOf a s).find? (fun q => q.reply.tag = a.tag && q.crc = a.crc) = none → a.fence = false →
        route a (begun a s) = .fail st → Answered i s a a.via false sp.opcode st [])
    ∧ (channelOpen a s = false → exec i s = .next (settled s))

/-- The supervisor's commands (R421): with TARGET 3 it executes those named alone, and completes any other with ERR_ROLE; an engine completes
FAULT.RELEASE and FAULT.READ_LOG with ERR_ROLE. Checks 10 to 12 come before (Table 15.4), and a supervisor in its
boot ROM answers what it cannot do with ERR_STATE (R460); so the packet is well formed and the supervisor is not in its boot ROM. -/
def Obligations.SupervisorExecutesItsCommands : Prop :=
  ∀ (i : Instr) (sp : CmdSpec) (a : Arrival) (ps : List Word) (s : State) (fwd : Bool), commandOf i = some (sp, a, ps) →
    (Taken a s .sup fwd → Formed sp { unit := .sup, arrival := a, mirror := false } ps (begun a s) → (begun a s).sup.bootRom = false →
      (sp.opcode ∈ ([0x0101, 0x0105, 0x0B02, 0x0B03, 0x0B04, 0x0B05, 0x0C08, 0x0C09, 0x0F01, 0x0F02, 0x0F03, 0x0F04, 0x0F05] : List (BitVec 16)) →
        roleErr sp .sup (begun a s) = false)
      ∧ (sp.opcode ∉ ([0x0101, 0x0105, 0x0B02, 0x0B03, 0x0B04, 0x0B05, 0x0C08, 0x0C09, 0x0F01, 0x0F02, 0x0F03, 0x0F04, 0x0F05] : List (BitVec 16)) →
        Answered i s a .sup fwd sp.opcode .role []))
    ∧ ∀ e : EngId, Taken a s (.eng e) fwd → Formed sp { unit := .eng e, arrival := a, mirror := false } ps (begun a s) →
      (sp.opcode = 0x0C08 ∨ sp.opcode = 0x0C09) → Answered i s a (.eng e) fwd sp.opcode .role []

/-- The standby's commands (R422): an engine in ROLE 2 executes those marked in Table 15.6 and completes any other with ERR_ROLE, changing
nothing. Checks 10 to 12 come before (Table 15.4). -/
def Obligations.StandbyExecutesItsCommands : Prop :=
  ∀ (i : Instr) (sp : CmdSpec) (a : Arrival) (ps : List Word) (s : State) (e : EngId) (fwd : Bool), commandOf i = some (sp, a, ps) →
    Taken a s (.eng e) fwd → ((begun a s).eng e).core.role = 2 →
    Formed sp { unit := .eng e, arrival := a, mirror := false } ps (begun a s) →
    let marked : List (BitVec 16) := [0x0101, 0x0103, 0x0104, 0x0105, 0x0106, 0x0303, 0x0402, 0x0503, 0x0606, 0x0801, 0x0904, 0x0B01, 0x0C03,
      0x0D02, 0x0D03, 0x0D04, 0x0E01, 0x0E02, 0x0E05, 0x0F01, 0x0F02, 0x0F03, 0x0F04, 0x0F05]
    (sp.opcode ∈ marked → roleErr sp (.eng e) (begun a s) = false) ∧ (sp.opcode ∉ marked → Answered i s a (.eng e) fwd sp.opcode .role [])

/-- Target resolution (R3, R11, R420, Table 15.5). -/
def Obligations.TargetsResolve : Prop :=
  ∀ (a : Arrival) (s : State),
    (a.target = 3 → pathUp a.via .sup s = true → route a s = .unit .sup (decide (a.via ≠ .sup)))
    ∧ (a.target = 1 → pathUp a.via (.eng .a) s = true → route a s = .unit (.eng .a) (decide (a.via ≠ .eng .a)))
    ∧ (a.target = 2 → twinPart s.part = false → route a s = .fail .absent)
    ∧ (a.target = 2 → twinPart s.part = true → pathUp a.via (.eng .b) s = true → route a s = .unit (.eng .b) (decide (a.via ≠ .eng .b)))
    ∧ (a.target = 0 → twinPart s.part = false → pathUp a.via (.eng .a) s = true → route a s = .unit (.eng .a) (decide (a.via ≠ .eng .a)))
    ∧ (a.target = 0 → twinPart s.part = true → ∀ e, s.active = some e → pathUp a.via (.eng e) s = true →
        route a s = .unit (.eng e) (decide (a.via ≠ .eng e)))
    ∧ (a.target = 0 → twinPart s.part = true → s.active = none → switching s = true → route a s = .fail .busy)
    ∧ ∀ u : UnitId, pathUp a.via u s = false → (a.target = 3 ∧ u = .sup) ∨ (a.target = 1 ∧ u = .eng .a) → route a s = .fail .state

/-- SYS.NOP (R448): 0 to 1,015 parameter words of any value, on every unit, in every role and mode; the reply repeats them, and nothing
changes. Every other command has a length of at most 1,015 words that it does not take; one whose layout takes no parameters takes none, and
answers ERR_LENGTH to any (check 10 of Table 15.4). -/
def Obligations.NopRepeatsItsParameters : Prop :=
  (∀ (a : Arrival) (ps : List Word) (s : State) (u : UnitId) (fwd : Bool), Taken a s u fwd →
      (ps.length ≤ 1015 → Answered (.sysNop a ps) s a u fwd 0x0105 .ok ps)
      ∧ (1015 < ps.length → Answered (.sysNop a ps) s a u fwd 0x0105 .length []))
  ∧ (∀ sp ∈ allSpecs, sp.opcode ≠ 0x0105 → ∃ n, n ≤ 1015 ∧ ∀ (c : Ctx) (s : State) (ps : List Word), ps.length = n → sp.lenOk c s ps = false)
  ∧ (∀ sp ∈ allSpecs, sp.opcode ∈ ([0x0304, 0x0305, 0x0407, 0x0801, 0x0B01, 0x0E05, 0x0F01] : List (BitVec 16)) →
      ∀ (c : Ctx) (s : State) (ps : List Word), sp.lenOk c s ps = decide (ps.length = 0))
  ∧ ∀ (i : Instr) (sp : CmdSpec) (a : Arrival) (ps : List Word) (s : State) (u : UnitId) (fwd : Bool), commandOf i = some (sp, a, ps) →
      sp.opcode ∈ ([0x0304, 0x0305, 0x0407, 0x0801, 0x0B01, 0x0E05, 0x0F01] : List (BitVec 16)) → Taken a s u fwd → ps ≠ [] →
      Answered i s a u fwd sp.opcode .length []

/-- NSEC above 999,999,999 (R29): each command that supplies a time word completes with ERR_RANGE and changes nothing, when the checks
before the range are passed (Table 15.4). With ASAP set, TWIN.SWAP_ROLES supplies no time. -/
def Obligations.BadNanosecondsAreOutOfRange : Prop :=
  ∀ (i : Instr) (sp : CmdSpec) (k : Nat) (a : Arrival) (ps : List Word) (s : State) (u : UnitId) (fwd : Bool),
    (i = .timeSet a ps ∧ sp = timeSetSpec ∧ (k = 0 ∨ k = 4)) ∨ (i = .timeStep a ps ∧ sp = timeStepSpec ∧ k = 3)
      ∨ (i = .timeSchedEdge a ps ∧ sp = timeSchedEdgeSpec ∧ k = 2) ∨ (i = .schedCommitGcl a ps ∧ sp = schedCommitGclSpec ∧ k = 1)
      ∨ (i = .timePutSample a ps ∧ sp = timePutSampleSpec ∧ k = 3)
      ∨ (i = .twinSwapRoles a ps ∧ sp = twinSwapRolesSpec ∧ k = 1 ∧ swapAsap ps = false) →
    Taken a s u fwd → Formed sp { unit := u, arrival := a, mirror := false } ps (begun a s) → Allowed sp u (begun a s) →
    999999999 < (par ps (k + 2)).toNat → Answered i s a u fwd sp.opcode .range []

/-- Chained counters (R402): pair i is counters 2i and 2i + 1, for i from 0 to 2,047. While it is chained, the two read as one 64-bit value
that counts the even counter's events, and the odd counter's own events are not counted; the pairs chained after reset; chaining changes no
value. -/
def Obligations.ChainedPairsCountAsOne : Prop :=
  (∀ (c : StatsState) (i n : Nat), i < 2048 → chainedPair c i = true →
      counter c (2 * i) < 2 ^ 32 → counter c (2 * i + 1) < 2 ^ 32 →
      let v (c : StatsState) := counter c (2 * i) + 2 ^ 32 * counter c (2 * i + 1)
      v (bumpBy n (2 * i) c) = (v c + n) % 2 ^ 64 ∧ bumpBy n (2 * i + 1) c = c)
  ∧ (∀ i, i < 2048 → (chainedPair statsReset i = true ↔ i = 21 ∨ i = 32 ∨ ∃ p, p < 34 ∧ (i = 144 + 56 * p ∨ i = 144 + 56 * p + 1)))
  ∧ ∀ (on : Bool) (first n : Nat) (c : StatsState), (∀ k, counter (setChain on first n c) k = counter c k)
      ∧ ∀ i, first ≤ i → i < first + n → chainedPair (setChain on first n c) i = on

/-- A ring descriptor of length 0 (R24): on the command ring, on a send ring, and among the buffers posted on a ring to the host, it is
skipped, counted in DESC_SKIP of its ring, and the descriptor after it is next. -/
def Obligations.EmptyDescriptorsAreSkipped : Prop :=
  ∀ (d : Desc), descBad d = false → d.pcieOk = true → descLen d = 0 →
    (∀ (e : EngId) (s : State) (rest : List Desc), engFitted s.part e = true → ringFetches (s.eng e) = true →
      ((s.eng e).ring 0).posted = d :: rest → fetchOn e s = some (s.modEng e fun x =>
        (x.modRing 0 fun q => { q with posted := rest, engineIdx := q.engineIdx + 1 }).bump 96))
    ∧ (∀ (p : Part) (e : EngId) (j draw : Nat) (x : Engine) (rest : List Desc), (x.ring (5 + j)).posted = d :: rest →
      sendFetch p e j draw x =
        ((x.modRing (5 + j) fun q => { q with posted := rest, engineIdx := q.engineIdx + 1 }).irq 5).bump (101 + j))
    ∧ ∀ (r : Nat) (rest : List Desc) (w : Word) (ws : List Word) (first : Bool) (x : Engine),
      fillBuffers r (d :: rest) (w :: ws) first x = fillBuffers r rest (w :: ws) first
        ((x.modRing r fun q => { q with posted := rest, engineIdx := q.engineIdx + 1 }).bump (96 + r))

/-- The time counter (R66): on every D1 cycle it adds INC, of the same resolution of 2^-32 ns; nanoseconds run from 0 to 999,999,999 and
carry into the 64-bit seconds in the same cycle; readings expose the upper 16 bits of the fraction, truncated. -/
def Obligations.TimeCounterAddsInc : Prop :=
  (∀ (fb : Bool) (t : TimeState), (t.slew = none ∨ fb = false) → t.subUnit < 1000000000000 →
      (passTime fb 1 t).dev = (t.dev + t.inc) % (2 ^ 64 * 1000000000 * 2 ^ 32) ∧ (passTime fb 1 t).inc = t.inc)
  ∧ ∀ t : TimeState, t.dev < 2 ^ 64 * 1000000000 * 2 ^ 32 →
      let ns := t.dev / 2 ^ 32
      secOf t.now16 = ns / 1000000000 ∧ secOf t.now16 < 2 ^ 64 ∧ nsecOf t.now16 = ns % 1000000000 ∧ nsecOf t.now16 ≤ 999999999
      ∧ fracOf t.now16 = t.dev % 2 ^ 32 / 2 ^ 16

/-- The mailbox's bytes: a byte written is read back, every other byte is as before, and the canonical form of the memory is kept, by a
write of one byte or of many. -/
def Obligations.MailboxMemoryReadsWhatWasWritten : Prop :=
  (∀ (m : List Host.Cell) (a b : Nat) (v : Byte), Memory.wf m = true →
      Memory.wf (Memory.write m a v) = true ∧ Memory.read (Memory.write m a v) b = if b = a then v else Memory.read m b)
  ∧ ∀ (m : List Host.Cell) (a b : Nat) (vs : List Byte), Memory.wf m = true →
      Memory.wf (Memory.writes m a vs) = true
      ∧ Memory.read (Memory.writes m a vs) b = (if a ≤ b ∧ b < a + vs.length then vs.getD (b - a) 0 else Memory.read m b)

/-- Where nothing waits on a channel, a settled state is the state itself: a command then does what its statement says and nothing more. -/
def Obligations.QuietStatesAreSettled : Prop :=
  ∀ s : State, Quiet s → settled s = s
/-- SYS commands (R61, R438, R446 to R449): what each does once it has passed its checks. -/
def Obligations.SysCommandsTakeEffect : Prop :=
  CommandDoes sysReadRegSpec .sysReadReg (fun c ps s =>
    let off := field (par ps 0) 31 16
    let n := field (par ps 0) 4 0
    match c.unit with
    | .sup => { state := s, body := (List.range n).map fun i => supReg s (off + 4 * i), await := none }
    | .eng e =>
      { state := (readRegs (chanLatch c.arrival.chan) e n off s).2, body := (readRegs (chanLatch c.arrival.chan) e n off s).1,
        await := none })
  ∧ CommandDoes sysSetPaceSpec .sysSetPace (fun c ps s =>
    let o := other c.eng
    let p := if c.mirror = true ∧ (s.eng o).serving = true then (s.eng o).pace.pace else BitVec.ofNat 2 (field (par ps 0) 1 0)
    let s1 := s.modEng c.eng (setPace p)
    let carried := s.fof.up && (s.standby == some o) && ((s.eng o).twin.copy == 1 || (s.eng o).twin.copy == 2)
    let alone := !c.mirror && twinPart s.part && !carried && (s.fof.up || s.sup.sound) && (s.eng o).awake
    { state := if alone then s1.modEng o (setPace p) else s1, body := [], await := some .paceSettled })
  ∧ CommandDoes sysSetRingSpec .sysSetRing (fun c ps s =>
    { state := judgeH0 c.eng (s.modEng c.eng fun x => x.modRing (field (par ps 0) 2 0) (setRing ps)), body := [], await := none })
  ∧ CommandDoes sysSetIrqSpec .sysSetIrq (sets fun ps x =>
    { x with host := { x.host with irq := setIrq ps x.host.irq } })
  ∧ (∀ (ps : List Word) (q : IrqState),
      (setIrq ps q).enable = (par ps 0).setWidth 16 ∧ (setIrq ps q).msi = flag (par ps 1) 1 ∧ (setIrq ps q).pin = flag (par ps 1) 0
      ∧ (setIrq ps q).modUs = (par ps 2).toNat ∧ (setIrq ps q).status = q.status
      ∧ (∀ b, b < 6 → (par ps 0).getLsbD b = false → (setIrq ps q).held.getLsbD b = false)
      ∧ (par ps 2 = 0 → (setIrq ps q).running = 0 ∧ (setIrq ps q).held = 0))
  ∧ CommandDoes sysNopSpec .sysNop (fun _ ps s => { state := s, body := ps, await := none })
  ∧ CommandDoes sysSetMgmtSpec .sysSetMgmt (fun c => sets (fun ps x =>
      { x with host := { x.host with mgmt := setMgmt c.eng ps x.host.mgmt } }) c)

/-- PORT commands (R114, R124, R139, R194, Tables 3.8 and 3.12). -/
def Obligations.PortCommandsTakeEffect : Prop :=
  CommandDoes portSetModeSpec .portSetMode (fun c ps s =>
    let p := field (par ps 0) 5 0
    let w := par ps 1
    let x := s.eng c.eng
    let q := x.port p
    let same := q.mode == field w 3 0 && q.train == flag w 30 && q.advert.toNat == field w 23 16 && q.fecReq == field w 9 8 && !flag w 31
    let flushed := if same then 0 else (changeMode s.part c.eng p w x).1
    let y := if same then x else (changeMode s.part c.eng p w x).2
    { state := s.setEng c.eng (y.modPort p fun k =>
        { k with addr := BitVec.ofNat 48 (field (par ps 2) 15 0 * 2 ^ 32 + (par ps 3).toNat) }),
      body := [pack [(q.mode, 4), (field w 3 0, 0)], word flushed], await := none })
  ∧ CommandDoes portSetLinkTimersSpec .portSetLinkTimers (fun c ps s =>
    let p := field (par ps 0) 5 0
    let y := (s.eng c.eng).modPort p fun q => { q with holdUs := (par ps 1).toNat, debounceUs := (par ps 2).toNat }
    let passed := (y.port p).holding && decide ((y.port p).holdStart + (y.port p).holdUs * us16 ≤ y.time.now16)
    { state := s.setEng c.eng (if passed then expireHold s.part c.eng p y else y), body := [], await := none })
  ∧ CommandDoes portSetTimeLevelsSpec .portSetTimeLevels (fun c ps s =>
    let p := field (par ps 0) 5 0
    let new := BitVec.ofNat 4 (field (par ps 0) 15 12)
    let s1 := s.modEng c.eng fun x => x.modAhnud p fun k =>
      { k with allowed := new, fallback := field (par ps 0) 10 8, waitMs := (par ps 1).toNat }
    { state := if ((s.eng c.eng).port p).ahnud.allowed = new then s1 else localChanged c.eng p s1, body := [], await := none })
  ∧ CommandDoes portSetAhnudEtypeSpec .portSetAhnudEtype (fun c ps s =>
    let v := field (par ps 0) 15 0
    let s1 := s.modEng c.eng fun x =>
      { x with ports := { x.ports with etype := BitVec.ofNat 16 v }, parser := retypeGraphs v x.parser }
    { state := (List.range 32).foldl (fun t p => if ahnudOn (t.eng c.eng) p then enterOffering c.eng p true t else t) s1,
      body := [(s.eng c.eng).ports.etype.setWidth 32], await := none })
  ∧ CommandDoes portSetCutThroughSpec .portSetCutThrough (sets fun ps x =>
    let m := portBit (field (par ps 0) 5 0)
    { x with ports := { x.ports with
        ctIn := if flag (par ps 0) 9 then x.ports.ctIn ||| m else x.ports.ctIn &&& ~~~m,
        ctOut := if flag (par ps 0) 8 then x.ports.ctOut ||| m else x.ports.ctOut &&& ~~~m } })

/-- PARSE commands (R131, R133, R136, R140). -/
def Obligations.ParseCommandsTakeEffect : Prop :=
  CommandDoes parseSetPortSpec .parseSetPort (sets fun ps x =>
    { x with parser := { x.parser with ports := vmodN x.parser.ports (field (par ps 0) 5 0) fun _ =>
        { byteLimit := field (par ps 1) 24 16, hdrM1 := field (par ps 1) 11 8, start := field (par ps 1) 5 0,
          prp := flag (par ps 2) 8, confAct := field (par ps 2) 5 4, truncAct := field (par ps 2) 1 0 } } })
  ∧ CommandDoes parseWriteNodeSpec .parseWriteNode (sets fun ps x =>
    { x with parser := { x.parser with staged := insertAt (field (par ps 0) 5 0) (ps.drop 1) x.parser.staged } })
  ∧ CommandDoes parseReadNodeSpec .parseReadNode (tells fun ps x =>
    ((if flag (par ps 0) 31 then findAt (field (par ps 0) 5 0) x.parser.staged else none).getD
      (nodeOf x.parser.graph (field (par ps 0) 5 0))) ++ [pack [(x.parser.gen, 16)]])
  ∧ CommandDoes parseCommitSpec .parseCommit (fun c _ s =>
    let p := (s.eng c.eng).parser
    let gen := if p.staged.length = 0 then p.gen else (p.gen + 1) % 65536
    { state := s.modEng c.eng fun x => { x with parser := { x.parser with graph := mergedGraph p, staged := [], gen := gen } },
      body := [pack [(gen, 16), (p.staged.length, 0)], pack [(64, 8)]], await := none })
  ∧ CommandDoes parseLoadDefaultsSpec .parseLoadDefaults (sets fun _ x =>
    { x with parser := { x.parser with staged := (List.range 64).map fun i => (i, nodeOf (shippedGraph x.ports.etype.toNat) i) } })

/-- RULE commands (R153, R155 to R163, Tables 5.1 and 5.7). -/
def Obligations.RuleCommandsTakeEffect : Prop :=
  CommandDoes ruleWriteEntrySpec .ruleWriteEntry (fun c ps s =>
    let b := flag (par ps 0) 31
    let r := (s.eng c.eng).rules
    let parts := entryParts (bankOf c ps s).wide ps
    let mask := wordsNat parts.2.1
    let ent : AmEntry := { key := wordsNat parts.1 &&& mask, mask := mask, action := parts.2.2 }
    let i := field (par ps 0) 12 0
    { state := s.modEng c.eng (modRules fun r => r.modBank b fun q =>
        { q with entries := if flag (par ps 0) 30 then insertAt i ent q.entries else eraseAt i q.entries }),
      body := [pack [(r.epoch, 16), (bit (r.liveB == b), 0)]], await := none })
  ∧ CommandDoes ruleReadEntrySpec .ruleReadEntry (fun c ps s =>
    let b := bankOf c ps s
    let i := field (par ps 0) 12 0
    let words (v : Nat) : List Word := bytesWords (beBytes (4 * if b.wide then 20 else 10) v)
    let head (v : Bool) : Word := pack [(field (par ps 0) 31 31, 31), (bit v, 30), (i, 0)]
    { state := s,
      body := match findAt i b.entries with
        | some k => head true :: words k.key ++ words k.mask ++ k.action
        | none => head false :: words 0 ++ words 0 ++ missAction,
      await := none })
  ∧ CommandDoes ruleWriteProfileSpec .ruleWriteProfile (sets fun ps => modRules fun r =>
    r.modBank (flag (par ps 0) 31) fun q => { q with profiles := insertAt (field (par ps 0) 2 0) (ps.drop 1) q.profiles })
  ∧ CommandDoes ruleClearBankSpec .ruleClearBank (sets fun ps => modRules fun r =>
    r.modBank (flag (par ps 0) 31) fun _ => emptyBank (flag (par ps 0) 0))
  ∧ CommandDoes ruleFlipBankSpec .ruleFlipBank (fun c _ s =>
    let own := (s.eng c.eng).time.now16 + flipDelay
    let r := (s.eng (other c.eng)).rules
    let at_ := if c.mirror then r.flip.getD (r.lastFlip.getD own) else own
    { state := s.modEng c.eng (modRules fun r => { r with flip := some at_ }), body := [], await := some .drainEnd })
  ∧ CommandDoes ruleSetOrgSpec .ruleSetOrg (sets fun ps => modRules fun r =>
    { r with unified := flag (par ps 0) 1, bankA := emptyBank (flag (par ps 0) 0),
             bankB := emptyBank (flag (par ps 0) 0 && !flag (par ps 0) 1), liveB := false })
  ∧ CommandDoes ruleLoadDefaultsSpec .ruleLoadDefaults (sets fun _ => modRules fun r =>
    r.modBank (!r.unified && !r.liveB) fun _ => { emptyBank false with entries := shippedRules })
  ∧ CommandDoes ruleSetPortSpec .ruleSetPort (sets fun ps => modRules fun r =>
    { r with ports := vmodN r.ports (field (par ps 0) 5 0) fun _ =>
        { profile := field (par ps 1) 26 24, pcpMap := BitVec.ofNat 24 (field (par ps 1) 23 0), pvid := field (par ps 2) 27 16,
          defClass := field (par ps 2) 2 0 } })
  ∧ CommandDoes ruleWriteRewriteSpec .ruleWriteRewrite (sets fun ps => modRules fun r =>
    { r with rewrites := put [0, 0, 0, 0] (field (par ps 0) 9 0) (ps.drop 1) r.rewrites })
  ∧ CommandDoes ruleWriteMeterSpec .ruleWriteMeter (sets fun ps x => modRules (fun r =>
    { r with meters := insertAt (field (par ps 0) 10 0) (
        { cir := (par ps 1).toNat, pir := (par ps 2).toNat, cbs := (par ps 3).toNat, pbs := (par ps 4).toNat,
          tc := (par ps 3).toNat, tp := (par ps 4).toNat, restC := 0, restP := 0, at_ := x.time.now16 } : Meter) r.meters,
             voided := r.voided.filter fun k => decide (k ≠ (7, field (par ps 0) 10 0)) }) x)
  ∧ CommandDoes ruleSetMirrorSpec .ruleSetMirror (sets fun ps => modRules fun r =>
    { r with mirrors := put (0, 0) (field (par ps 0) 18 16) (field (par ps 0) 13 8, field (par ps 0) 2 0) r.mirrors,
             voided := r.voided.filter fun k => decide (k ≠ (8, field (par ps 0) 18 16)) })

/-- FWD commands (R170 to R175, R200, R205, Table 5.16). -/
def Obligations.FwdCommandsTakeEffect : Prop :=
  CommandDoes fwdAddSpec .fwdAdd (sets fun ps x => x.modFdb (insertAt (parKey ps)
    { static := flag (par ps 2) 31, kind := field (par ps 2) 29 28, dest := field (par ps 2) 11 0, hit := true }))
  ∧ CommandDoes fwdDeleteSpec .fwdDelete (setsTelling (fun ps x => x.modFdb (eraseAt (parKey ps)))
    (fun ps x => [word (bit (findAt (parKey ps) x.rules.fdb).isSome)]))
  ∧ CommandDoes fwdLookupSpec .fwdLookup (tells fun ps x =>
    match findAt (parKey ps) x.rules.fdb with
    | some f => [par ps 0 ||| 0x80000000#32, par ps 1, pack [(bit f.static, 31), (f.kind, 28), (f.dest, 0)], word (bit f.hit)]
    | none => [0, 0, 0, 0])
  ∧ CommandDoes fwdFlushSpec .fwdFlush (setsTelling (fun ps x => x.modFdb fun t => t.filter fun k => !flushes (par ps 0) k)
    (fun ps x => [word (x.rules.fdb.filter (flushes (par ps 0))).length]))
  ∧ CommandDoes fwdSetLearnSpec .fwdSetLearn (sets fun ps => modRules fun r =>
    { r with learn := vmodN r.learn (field (par ps 0) 5 0) fun _ =>
        { mode := field (par ps 0) 9 8, limitDiscard := flag (par ps 0) 12, limit := (par ps 1).toNat } })
  ∧ CommandDoes fwdSetAgeingSpec .fwdSetAgeing (sets fun ps => modRules fun r => { r with ageS := (par ps 0).toNat })
  ∧ CommandDoes fwdSetVlanSpec .fwdSetVlan (sets fun ps => modRules fun r =>
    { r with floods := put 0 (field (par ps 0) 27 16) (field (par ps 0) 11 0) r.floods })
  ∧ CommandDoes fwdWriteMcastSpec .fwdWriteMcast (sets fun ps => modRules fun r =>
    { r with mcast := put 0#34 (field (par ps 0) 11 0) (BitVec.ofNat 34 (field (par ps 2) 1 0 * 2 ^ 32 + (par ps 1).toNat)) r.mcast })
  ∧ CommandDoes fwdSetSpreadSpec .fwdSetSpread (sets fun ps => modRules fun r =>
    { r with spreads := put spreadZero0 (field (par ps 0) 5 0) (
        { fields := BitVec.ofNat 12 (field (par ps 0) 27 16), inner := flag (par ps 0) 9, toeplitz := flag (par ps 0) 8,
          seed := par ps 1, key := ps.drop 2 } : Spread) r.spreads })
  ∧ CommandDoes fwdWriteIndirectSpec .fwdWriteIndirect (setsTelling (fun ps => modRules fun r =>
      { r with indirect := writeEntries (field (par ps 0) 21 16 * 256 + field (par ps 0) 15 8) (ps.drop 1) r.indirect })
    (fun ps _ => [word (ps.drop 1).length]))
  ∧ CommandDoes fwdSetMcResidueSpec .fwdSetMcResidue (setsTelling
    (fun ps x => x.modBuf fun b => { b with residueAgeUs := (par ps 0).toNat }) (fun _ x => [word x.buf.residueAgeUs]))

/-- QUEUE commands (R234, R239, R240, Tables 7.4 and 7.5). -/
def Obligations.QueueCommandsTakeEffect : Prop :=
  CommandDoes queueSetClassSpec .queueSetClass (fun c ps s =>
    let new := recomputeHr s.part none (setClass (par ps 0) (s.eng c.eng))
    { state := s.setEng c.eng new, body := hrReply s.part true (s.eng c.eng) new false none, await := none })
  ∧ CommandDoes queueSetPortFcSpec .queueSetPortFc (fun c ps s =>
    let new := recomputeHr s.part none (setPortFc ps (s.eng c.eng))
    { state := s.setEng c.eng new, body := hrReply s.part true (s.eng c.eng) new false (some (field (par ps 0) 5 0)), await := none })
  ∧ CommandDoes queueSetMinSpec .queueSetMin (fun c ps s =>
    let new := setMin ps (s.eng c.eng)
    { state := s.setEng c.eng new, body := hrReply s.part false (s.eng c.eng) new false none, await := none })
  ∧ CommandDoes queueSetAgeSpec .queueSetAge (sets fun ps x => x.modBuf fun b =>
    { b with ages := put 0 (8 * field (par ps 0) 5 0 + field (par ps 0) 11 8) (par ps 1).toNat b.ages })
  ∧ CommandDoes queueSetBufferModeSpec .queueSetBufferMode (fun c ps s =>
    let new := judgeSpill ((s.eng c.eng).modBuf fun b =>
      { b with spillEn := flag (par ps 0) 31, spillOn := (par ps 1).toNat, spillOff := (par ps 2).toNat })
    { state := s.setEng c.eng new, body := hrReply s.part false (s.eng c.eng) new false none, await := none })
  ∧ CommandDoes queueGetOccupancySpec .queueGetOccupancy (tells fun ps x =>
    let p := field (par ps 0) 5 0
    let one (k : Acct) : Word := if x.core.role = 2 then 0 else pack [(satN 65535 k.occ, 16), (satN 65535 k.hrUse, 0)]
    if flag (par ps 0) 31 then (List.range 10).map fun q => one (x.egAcct p q)
    else (List.range 8).map fun k => one (x.inAcct p k))

/-- SCHED commands (R245, Tables 8.1 to 8.7). -/
def Obligations.SchedCommandsTakeEffect : Prop :=
  CommandDoes schedSetClassSpec .schedSetClass (sets fun ps x =>
    let p := field (par ps 0) 5 0
    (refillPort p x).modEgPort p fun g => { g with classes := vmodN g.classes (field (par ps 0) 10 8) fun k =>
        { strict := flag (par ps 1) 31, quantum := field (par ps 1) 15 0, deficit := if flag (par ps 1) 31 then 0 else k.deficit,
          shaper := setShaper (flag (par ps 1) 30) (par ps 2) (par ps 3) k.shaper } })
  ∧ CommandDoes schedSetPortShaperSpec .schedSetPortShaper (sets fun ps x =>
    let p := field (par ps 0) 5 0
    (refillPort p x).modEgPort p fun g => { g with shaper := setShaper (flag (par ps 0) 31) (par ps 1) (par ps 2) g.shaper })
  ∧ CommandDoes schedWriteGclSpec .schedWriteGcl (sets fun ps x => x.modEgPort (field (par ps 0) 5 0) fun g =>
    { g with admin := writeEntries (field (par ps 0) 25 16) (ps.drop 2) g.admin })
  ∧ CommandDoes schedCommitGclSpec .schedCommitGcl (fun c ps s =>
    let p := field (par ps 0) 5 0
    let x := s.eng c.eng
    let own := changeTime x.time.now16 (parTime ps 1) (gclCycle ps)
    let ct := (c.settled.map Int.toNat).getD own
    let l : Gcl :=
      { entries := (List.range (field (par ps 0) 26 16)).map fun i => look 0#32 i (x.eg p).admin, base := parTime ps 1,
        cycle := gclCycle ps }
    { state := s.setEng c.eng (x.modEgPort p fun g =>
        { g with commit := some { ct := ct, list := if flag (par ps 0) 31 then some l else none } }),
      body := stampWords { t := ct, qual := 0 }, await := none, settled := some (ct : Int) })
  ∧ CommandDoes schedSetPreemptSpec .schedSetPreempt (sets fun ps x =>
    let p := field (par ps 0) 5 0
    let old := (x.eg p).preempt
    let new : Preempt :=
      { old with enable := flag (par ps 0) 31, verify := flag (par ps 0) 30, addFrag := field (par ps 0) 29 28,
                 classes := BitVec.ofNat 8 (field (par ps 0) 23 16), verifyMs := field (par ps 1) 7 0 }
    let same := old.enable == new.enable && old.verify == new.verify && old.addFrag == new.addFrag
    x.modEgPort p fun g => { g with preempt := if same then new else restartVerify (x.port p).up new })
  ∧ CommandDoes schedSetLaunchSpec .schedSetLaunch (sets fun ps x => x.modEgPort (field (par ps 0) 5 0) fun g =>
    { g with lq0Mode := flag (par ps 0) 16, lq1Mode := flag (par ps 0) 17, lateMaxNs := (par ps 1).toNat,
             delay0 := (par ps 2).toNat, delay1 := (par ps 3).toNat })
  ∧ CommandDoes schedSetRedundancySpec .schedSetRedundancy (sets fun ps => setPair ps)

/-- TIME commands of device time, events and outputs (R72 to R80, R86, R91 to R96); new board delays hold from the D1 cycle after the present one. -/
def Obligations.DeviceTimeCommandsTakeEffect : Prop :=
  CommandDoes timeGetSpec .timeGet (tells fun _ x => stampWords x.now ++ words64 x.time.tbCycles ++ [timeStatus x.time])
  ∧ CommandDoes timeSetSpec .timeSet (fun c ps =>
    acceptStep c ((parTime ps 0 : Int) - (parTime ps 4 : Int)) (parTime ps 4) (par ps 8).toNat)
  ∧ CommandDoes timeStepSpec .timeStep (fun c ps =>
    acceptStep c ((par ps 0).toInt * 65536 + (field (par ps 1) 31 16 : Nat)) (parTime ps 3) (par ps 2).toNat)
  ∧ CommandDoes timeSetBoardDelaySpec .timeSetBoardDelay (sets fun ps x =>
    { x with time := setBoard (field (par ps 0) 5 0) (par ps 1).toInt (par ps 2).toInt x.time })
  ∧ (∀ (l : Fin 32) (rx tx : Int) (n : Nat) (t : TimeState),
      (setBoard l.val rx tx t).board l.val 0 = t.board l.val 0 ∧ (setBoard l.val rx tx t).board l.val 1 = t.board l.val 1
      ∧ (t.tbCycles < n →
        ({ setBoard l.val rx tx t with tbCycles := n } : TimeState).board l.val 0 = rx
        ∧ ({ setBoard l.val rx tx t with tbCycles := n } : TimeState).board l.val 1 = tx))
  ∧ CommandDoes timeSetEvtinSpec .timeSetEvtin (sets fun ps => modEvtIn (field (par ps 0) 2 0) fun q =>
    { q with edge := field (par ps 0) 5 4, deliver := flag (par ps 0) 8, deglitch := field (par ps 0) 23 16,
             pinDelay := (par ps 1).toInt })
  ∧ CommandDoes timeReadEventsSpec .timeReadEvents (fun c ps s =>
    let n := field (par ps 0) 2 0
    let q := vget (s.eng c.eng).time.evtIn evtInReset n
    let took := q.queue.take (field (par ps 0) 15 8)
    let left := q.queue.drop (field (par ps 0) 15 8)
    let told := match took.getLast? with
      | some k => some k.seq
      | none => q.delivered
    { state := s.modEng c.eng (modEvtIn n fun r => { r with queue := left, delivered := told }),
      body := pack [(took.length, 8), (left.length, 0)] :: took.flatMap (captureWords n), await := none })
  ∧ CommandDoes timeSchedEdgeSpec .timeSchedEdge (fun c ps s =>
    let n := field (par ps 0) 2 0
    let q := vget (s.eng c.eng).time.evtOut evtOutReset n
    let sq := (q.seq + 1) % 65536
    let k : EdgeEntry := { seq := sq, action := field (par ps 0) 9 8, widthNs := (par ps 1).toNat, at_ := parTime ps 2 }
    { state := s.modEng c.eng (modEvtOut n fun r => { r with sched := r.sched ++ [k], seq := sq, prevEnd := some (edgeEnd k) }),
      body := [pack [(sq, 16), (q.sched.length + 1, 0)]], await := none })
  ∧ CommandDoes timeAlignOutputsSpec .timeAlignOutputs (fun c ps s =>
    let m := BitVec.ofNat 12 (field (par ps 0) 11 0)
    if flag (par ps 0) 31 && m != 0 then
      { state := s.modEng c.eng fun x => { x with refs := { x.refs with
          align := m, aligned := m, alignRate := (par ps 1).toNat, alignAt := x.time.tbCycles } }, body := [],
        await := some .alignOutputs }
    else { state := s.modEng c.eng (aligned m), body := [word m.toNat], await := none })

/-- TIME commands of network time (R269, R272, R277, R280 to R285). -/
def Obligations.NetworkTimeCommandsTakeEffect : Prop :=
  CommandDoes timeSetDomainSpec .timeSetDomain (sets fun ps => setDomain ps)
  ∧ CommandDoes timeSetPtpPortSpec .timeSetPtpPort (sets fun ps => setPtpPort ps)
  ∧ CommandDoes timeSetTcSpec .timeSetTc (sets fun ps x => x.modNetPort (netPortOf ps) fun n => { n with tcMode := field (par ps 0) 9 8 })
  ∧ CommandDoes timeSetAsymSpec .timeSetAsym (sets fun ps => setAsym ps)
  ∧ CommandDoes timeCalAsymSpec .timeCalAsym (fun c ps s =>
    if c.mirror then
      { state := match c.settled with
          | some trim => s.modEng c.eng (writeTrim (netPortOf ps) trim)
          | none => s, body := [], await := none }
    else
      setsAwaiting (fun ps x => { x with net := { x.net with cal := some {
          port := netPortOf ps, input := field (par ps 0) 6 6, apply := flag (par ps 0) 8, windowS := (par ps 1).toNat,
          cablePs := (par ps 2).toInt, edges := 0, rejected := 0, sum := 0, sumSq := 0, failed := false } } })
        (fun _ => .calAsym) c ps s)
  ∧ CommandDoes timeSwitchDomainSpec .timeSwitchDomain (fun c ps s =>
    let slot := field (par ps 0) 0 0
    if slot = (s.eng c.eng).net.steer then { state := s, body := switchReply (s.eng c.eng), await := none }
    else
      setsAwaiting (fun ps x => ({ x with net := { x.net with switch := some { slot := slot, rate := (par ps 1).toNat } } } : Engine).failCal true)
        (fun _ => .domainSwitch) c ps s)
  ∧ CommandDoes timePutSampleSpec .timePutSample (fun c ps s =>
    let d := field (par ps 0) 0 0
    let s1 := s.modEng c.eng fun x => takeSample d (40 + d) (parTime ps 3) (par ps 1 ++ par ps 2 : BitVec 64).toInt (markSignal (40 + d) x)
    { state := s1, body := [pack [(((s1.eng c.eng).slot d).servo, 29)]], await := none })

/-- REF and OUT commands (R292, R293, R303, R304, R314, R317 to R319, R323); what REF.SET_INPUT and REF.SET_SLOT write waits for the next
servo update, which puts it in. Which measured offset a change of D0 applies is the model's choice (log 169). -/
def Obligations.RefOutCommandsTakeEffect : Prop :=
  CommandDoes refSetInputSpec .refSetInput (sets fun ps x => x.modRef (refOf ps) fun q => { q with input := some ps })
  ∧ CommandDoes refSetSlotSpec .refSetSlot (sets fun ps x => x.modSlot (field (par ps 0) 0 0) fun q => { q with policy := some ps })
  ∧ (∀ (x : Engine) (r : Fin 42) (ps : List Word), (x.ref r.val).input = some ps →
      (putPolicies x).ref r.val = putInput ps (x.ref r.val) ∧ (putInput ps (x.ref r.val)).input = none
      ∧ (putInput ps (x.ref r.val)).enable = flag (par ps 0) 31 ∧ (putInput ps (x.ref r.val)).soft = (par ps 2).toNat
      ∧ (putInput ps (x.ref r.val)).inDelay = (par ps 7).toInt)
  ∧ (∀ (x : Engine) (d : Fin 2) (ps : List Word), (x.slot d.val).policy = some ps →
      (putPolicies x).slot d.val = putPolicy ps (x.slot d.val) ∧ (putPolicy ps (x.slot d.val)).policy = none
      ∧ (putPolicy ps (x.slot d.val)).slewPsS = (par ps 1).toNat ∧ (putPolicy ps (x.slot d.val)).avgS = field (par ps 3) 31 16)
  ∧ CommandDoes refForceSpec .refForce (fun c ps s =>
    let d := field (par ps 0) 16 16
    let m := field (par ps 0) 9 8
    let peer := match s.active with
      | some a => if a ≠ c.eng ∧ c.mirror = true ∧ followsActive s = true then some (s.eng a) else none
      | none => none
    let s1 := s.modEng c.eng fun x => markSelected c.eng (reselect c.eng d peer
      (x.modSlot d fun q => { q with force := m, forceRef := if m = 1 then refOf ps else 0 }))
    { state := s1, body := [pack [(((s1.eng c.eng).slot d).selT, 26), (((s1.eng c.eng).slot d).selF, 20)]], await := none })
  ∧ CommandDoes refGetStatusSpec .refGetStatus (tells fun ps x => refStatusWords x (refOf ps))
  ∧ CommandDoes refSetOscSpec .refSetOsc (fun c => sets (fun ps x =>
      if flag (par ps 0) 0 = true ∧ oscQual x = false then x
      else markSelected c.eng (if flag (par ps 0) 0 then d0External x else d0Tcxo x)) c)
  ∧ (∀ x : Engine, d0Osc (d0External x) = true ∧ d0Osc (d0Tcxo x) = false)
  ∧ CommandDoes outSetSynthSpec .outSetSynth (fun c ps s =>
    { state := ({ s with freeCtr := s.freeCtr + 1 } : State).modEng c.eng (setSynth (Config.freeNat s.freeCtr) ps), body := [], await := none })
  ∧ CommandDoes outSetClkoutSpec .outSetClkout (sets fun ps => setClkout ps)
  ∧ CommandDoes outSetPpsoutSpec .outSetPpsout (sets fun ps => setPpsout ps)

/-- TWIN commands (R344 to R350, Table 11.7). -/
def Obligations.TwinCommandsTakeEffect : Prop :=
  CommandDoes twinGetStateSpec .twinGetState (fun c _ s =>
    let x := s.eng c.eng
    { state := s,
      body := [twinStatus s c.eng, word x.host.cfgGen, word x.twin.cfgGenSeen, phaseWord x] ++ stampWords (nextSwap s.sup)
        ++ [lastWord x.twin.last, word x.twin.digestWindow],
      await := none })
  ∧ CommandDoes twinSwapRolesSpec .twinSwapRoles (fun _ ps s =>
    { state := { s with sup := { s.sup with swap := some {
          swAt := swapInstant ps s, prepUs := field (par ps 0) 15 0, commanded := true, prepared := false } } },
      body := [], await := some .swap })
  ∧ CommandDoes twinSetSwapSpec .twinSetSwap (fun _ ps s =>
    let n := (par ps 0).toNat
    { state := { s with sup := { s.sup with
        swapPeriodS := n, swapPrepUs := field (par ps 1) 15 0, swapRetries := 0,
        swapNext := if n = 0 then none else some (ownerNow s + n * s16) } },
      body := [], await := none })
  ∧ CommandDoes twinRejoinSpec .twinRejoin (fun _ ps s =>
    let e := engineField ps
    let s1 : State := { s with sup := s.sup.modView e fun v => { v with fenced := false } }
    { state := leaveReset e (s1.modEng (other e) fun x => { x with twin := { x.twin with peerFenced := false } }),
      body := [], await := none })
  ∧ CommandDoes twinFenceSpec .twinFence (fun _ ps s =>
    { state := releaseActive (setCopy 0 (fenceEngine (engineField ps) s)), body := [], await := none })

/-- FAULT commands (R364, R370 to R374, Table 12.9). -/
def Obligations.FaultCommandsTakeEffect : Prop :=
  CommandDoes faultSetWindowsSpec .faultSetWindows (sets fun ps x =>
    { x with fault := { x.fault with winF2Us := (par ps 0).toNat, winF3Us := (par ps 1).toNat } })
  ∧ CommandDoes faultSetEventsSpec .faultSetEvents (sets fun ps x => { x with fault := { x.fault with enables := (par ps 0).setWidth 5 } })
  ∧ CommandDoes faultGetFirstSpec .faultGetFirst (tells fun ps x =>
    let l := if flag (par ps 0) 0 then x.fault.firstInj else x.fault.first
    latchRegs l ++ [pack [(bit l.valid, 31), (bit l.ovf, 30)]])
  ∧ CommandDoes faultActNowSpec .faultActNow (fun c ps s =>
    match (s.eng c.eng).fault.windows.find? fun w =>
      w.msg.source.toNat == field (par ps 0) 15 8 && w.msg.kind.toNat == field (par ps 0) 7 0 && w.msg.inj == flag (par ps 0) 31 with
    | none => { state := s, body := [], await := none }
    | some w =>
      let s1 := s.modEng c.eng (closeWindow w.msg)
      { state := if w.msg.cls = 2 then reactF2 c.eng w.msg s1 else reactF3 c.eng w.msg s1, body := [], await := none })
  ∧ CommandDoes faultInjectSpec .faultInject (fun c ps s =>
    let e := injTarget c ps
    let s1 := s.modEng e (report (injMessage ps))
    { state := s1, body := [word (faultSeq (s1.eng e).fault (injMessage ps).source)], await := none })
  ∧ CommandDoes faultInjectEccSpec .faultInjectEcc (fun c ps s =>
    { state := s.modEng (injTarget c ps) fun x => { x with fault := { x.fault with ecc := x.fault.ecc ++ [eccEntryOf ps] } },
      body := [], await := none })
  ∧ CommandDoes faultClearInjSpec .faultClearInj (fun c ps s =>
    let e := injTarget c ps
    { state := s.modEng e fun x => { x with fault := { x.fault with ecc := [] } }, body := [word (s.eng e).fault.ecc.length],
      await := none })
  ∧ CommandDoes faultReleaseSpec .faultRelease (fun _ ps s =>
    { state := leaveReset (engineField ps) (resetEngine (engineField ps) s), body := [], await := none })
  ∧ CommandDoes faultReadLogSpec .faultReadLog (fun _ ps s =>
    { state := s, body := ((s.sup.log.drop (field (par ps 0) 13 8)).take (field (par ps 0) 6 0)).flatMap logWords, await := none })

/-- CAL commands (R392, Table 13.5). The pass that CAL.REPAIR begins stands as a reset of source 0x05, kind 0x06 (the model's choice,
log 98). -/
def Obligations.CalCommandsTakeEffect : Prop :=
  CommandDoes calSetSpec .calSet (sets fun ps x =>
    { x with cal := { x.cal with enable := BitVec.ofNat 7 (field (par ps 0) 22 16), starveS := field (par ps 0) 9 0 } })
  ∧ CommandDoes calGetStatusSpec .calGetStatus (tells fun ps x => calStatus (calKind ps) (calIdx ps) false x)
  ∧ CommandDoes calRunSpec .calRun (setsAwaiting (fun ps x => x.modPath (calKind ps) (calIdx ps) fun k =>
      if k.due then k else { k with due := true, probes := 0, sum := 0, sumSq := 0 })
    (fun ps => .calRun (Fin.ofNat 7 (calKind ps)) (calIdx ps)))
  ∧ CommandDoes calRepairSpec .calRepair (setsAwaiting (fun ps x =>
      let run : RunningReset := { reset := .repairPass, source := 0x05, kind := 0x06, inj := false, late := false }
      { x with cal := { x.cal with repairing := true, underpass := flag (par ps 0) 0 },
               fault := { x.fault with resets := x.fault.resets ++ [run] } })
    (fun _ => .repair))

/-- STATS commands (R402 to R407, R412, Table 14.6). -/
def Obligations.StatsCommandsTakeEffect : Prop :=
  CommandDoes statsReadSpec .statsRead (fun c ps s =>
    let x := (s.eng c.eng).countXoffs
    { state := s.setEng c.eng x, body := stampWords x.now ++ counterValues (statsFirst ps) (field (par ps 0) 8 0) x.shownStats,
      await := none })
  ∧ CommandDoes statsClearSpec .statsClear (fun c ps s =>
    { state := clearOn c.eng (statsFirst ps) (field (par ps 0) 12 0) s, body := stampWords (s.eng c.eng).now, await := none })
  ∧ (∀ (e : EngId) (first n : Nat) (s : State) (k : Nat), first ≤ k → k < first + n →
      counter ((clearOn e first n s).eng e).stats k = 0)
  ∧ CommandDoes statsSetChainSpec .statsSetChain (sets fun ps x =>
    { x with stats := setChain (flag (par ps 0) 31) (field (par ps 0) 26 16) (field (par ps 0) 11 0) x.stats })
  ∧ CommandDoes statsSetSnapshotSpec .statsSetSnapshot (sets fun ps x =>
    { x with stats := { x.stats with snapPeriodMs := (par ps 0).toNat, snapAt := some x.time.now16 } })
  ∧ CommandDoes statsSnapNowSpec .statsSnapNow (fun c _ s =>
    let s1 := (pass 1 s).modEng c.eng (takeSnapshot true)
    { state := s1, body := stampWords (s1.eng c.eng).now ++ [word (s1.eng c.eng).stats.snapSeq], await := none })
  ∧ CommandDoes statsSetSamplerSpec .statsSetSampler (fun c ps s =>
    { state := (takeFree s).2.modEng c.eng (setSampler ps (takeFree s).1), body := [], await := none })

/-- FW commands (R461 to R466, Table 16.5). -/
def Obligations.FwCommandsTakeEffect : Prop :=
  CommandDoes fwGetInfoSpec .fwGetInfo (fun c _ s => { state := s, body := fwInfo c.unit s, await := none })
  ∧ CommandDoes fwWriteImageSpec .fwWriteImage (fun c ps s =>
    let o := imgOffset ps
    let next := o + 4 * (ps.length - 2)
    let q : FwSession := { slot := slotOf ps, next := next, prev := o, unit := c.arrival.via, chan := c.arrival.chan }
    { state := modFw c.unit (fun f => { f with session := some q })
        (modSlot c.unit (slotOf ps) (writeSlot (opens c ps s) (o / 4) (ps.drop 2)) s),
      body := [word next], await := none })
  ∧ CommandDoes fwVerifyImageSpec .fwVerifyImage (fun c ps s =>
    let s1 := verifySlot c.unit (slotOf ps) s
    let q := unitSlot c.unit (slotOf ps) s1
    let k := imageCompat c.unit (slotOf ps) s1
    { state := s1, body := slotInfo q (2 * bit k.1 + bit k.2), await := none, status := if q.state = 3 then .ok else .auth })
  ∧ CommandDoes fwSelectSlotSpec .fwSelectSlot (fun c ps s =>
    let s1 := modFw c.unit (selectSlot ps) s
    if flag (par ps 0) 31 then
      { state := modFw c.unit (fun f => { f with burn := some (advanceOf f) }) s1, body := [], await := some .fuseBurn }
    else { state := s1, body := [], await := none })
  ∧ CommandDoes fwRestartSpec .fwRestart (fun c ps s =>
    { state := modFw c.unit (fun f => { f with restart := some (flag (par ps 0) 30) }) (abandonUnit c.unit s), body := [],
      await := none })

/-- SUPPLY_VALID (R19, R35, R473, R475): the steering stands on engine A, both engines are held in reset at step 1 of Table 16.1, and
after a power cycle their RS fields and the fencing are cleared and Cul-de-sac ends (R19, R376). With the supply valid already, nothing happens. -/
def Obligations.SupplyValidStartsTheModule : Prop :=
  (∀ s : State, s.power.supplyValid = true → exec .supplyValid s = .next s)
  ∧ ∀ s : State, s.power.supplyValid = false → ∃ t, exec .supplyValid s = .next t
    ∧ (let held := s.power.f4Held && !s.power.cycled
       t.power = { s.power with supplyValid := true, brownOut := false, steer := .a, startStep := 1, cycled := false, f4Held := held, alignerLow := held })
    ∧ (s.power.cycled = true →
        t.engA = clearRS { s.engA with core := { s.engA.core with phase := .held } }
        ∧ t.engB = clearRS { s.engB with core := { s.engB.core with phase := .held } }
        ∧ t.sup = { s.sup with viewA := { s.sup.viewA with fenced := false }, viewB := { s.sup.viewB with fenced := false } })
    ∧ (s.power.cycled = false →
        t.engA = { s.engA with core := { s.engA.core with phase := .held } }
        ∧ t.engB = { s.engB with core := { s.engB.core with phase := .held } } ∧ t.sup = s.sup)
    ∧ t.part = s.part ∧ t.ticks = s.ticks ∧ t.fof = s.fof ∧ t.flash = s.flash ∧ t.freeCtr = s.freeCtr ∧ t.pending = s.pending

/-- BROWN_OUT and THERMAL_SHUTDOWN (R461, R474, R501, Table 17.1): both engines lose their power, every output is low, and only the
retained fields and the fuses are kept, a burn that is cut short leaving SVN_FUSE at its old value or at its new one and
the first of the keys revoked (R461); POWER_CYCLE, HOLDUP_DRAW and HOLDUP_RETURN (R19, R475, R477) change the supply's own
fields alone. -/
def Obligations.SupplyLossAndHoldup : Prop :=
  (∀ (s : State) (c : Instr), c = .brownOut ∨ c = .thermalShutdown → s.power.supplyValid = true → ∃ t, exec c s = .next t
    ∧ t.power.supplyValid = false ∧ t.power.railsUp = false ∧ t.power.railsGood = false ∧ t.power.brownOut = true
    ∧ t.power.startStep = 0 ∧ t.power.evtBalls = 0 ∧ t.power.alignerHolds = false ∧ t.power.cycled = s.power.cycled
    ∧ t.engA = engineUnpowered .a (cutBurns (abandonAll s)).engA ∧ t.engB = engineUnpowered .b (cutBurns (abandonAll s)).engB
    ∧ t.engA.fault.f4Latched = s.engA.fault.f4Latched ∧ t.engB.fault.f4Latched = s.engB.fault.f4Latched
    ∧ t.sup.running = false ∧ t.sup.log = s.sup.log ∧ t.part = s.part ∧ t.pending = s.pending
    ∧ (t.sup.fw.svnFuse = s.sup.fw.svnFuse ∨ ∃ k, s.sup.fw.burn = some k ∧ t.sup.fw.svnFuse = k.1)
    ∧ (s.sup.fw.burn = none → t.sup.fw.revoked = s.sup.fw.revoked)
    ∧ (∀ k, s.sup.fw.burn = some k → ∃ j ≤ 4, t.sup.fw.revoked = s.sup.fw.revoked ||| (k.2 &&& BitVec.ofNat 4 (2 ^ j - 1)))
    ∧ lanePins t = .idle ∧ outputPins t = .low ∧ faultPin t = false ∧ pwrGoodPin t = false)
  ∧ (∀ (s : State) (c : Instr), c = .brownOut ∨ c = .thermalShutdown → s.power.supplyValid = false → exec c s = .next s)
  ∧ (∀ s : State, exec .powerCycle s = .next { s with power := { s.power with cycled := true } })
  ∧ (∀ s : State, s.power.supplyValid = true →
      exec .holdupDraw s = .next { s with power := { s.power with onHoldup := true, charging := false } }
      ∧ exec .holdupReturn s = .next { s with power := { s.power with onHoldup := false, charging := s.power.railsUp } })
  ∧ ∀ s : State, s.power.supplyValid = false → exec .holdupDraw s = .next s ∧ exec .holdupReturn s = .next s

/-- Reset and rails (R356, R454, R456, R460, R476, R477, R485, R501, Table 16.1): what RESET_N, the rails, the steering latches'
read-back, the supervisor's boot ROM and the sequence of Table 16.1 do. With no engine running, the supervisor logs a fault of the power
die and takes the module into Cul-de-sac (the model's choice, log 170). -/
def Obligations.ResetLineAndRails : Prop :=
  (∀ s : State, exec .resetNAssert s = .next (settled (resetPowered .b (resetPowered .a (endPlan .state
      { s with power := { s.power with resetLow := true }, sup := { s.sup with switch := none } })))))
  ∧ (∀ s : State, exec .resetNRelease s = .next
      (let s1 : State := { s with power := { s.power with resetLow := false }, sup := { s.sup with bTimeout := false } }
       if s.power.startStep = 5 then leaveReset .a s1 else s1))
  ∧ (∀ (s : State) (rail : Word), s.sup.running = true → (s.engA.running = true ∨ (twinPart s.part = true ∧ s.engB.running = true)) →
      exec (.railFault rail) s = .next (({ s with power := { s.power with railsGood := false } } : State).modBoth fun x =>
        if x.running then x.raise 0x0F 0x01 4 rail else x)
      ∧ exec .steerFault s = .next (s.modBoth fun x => if x.running then x.raise 0x0F 0x02 4 0 else x))
  ∧ (∀ (s : State) (rail : Word), s.sup.running = true → s.engA.running = false → (twinPart s.part = false ∨ s.engB.running = false) →
      exec (.railFault rail) s = .next (supervisorFault 0x01 rail { s with power := { s.power with railsGood := false } })
      ∧ exec .steerFault s = .next (supervisorFault 0x02 0 s))
  ∧ (∀ (k : Nat) (a : Word) (s : State), (supervisorFault k a s).sup.log.length = min 64 (s.sup.log.length + 1))
  ∧ (∀ s : State, exec .powerDieOvertemp s = exec (.railFault 0xFF) s)
  ∧ (∀ (s : State) (rail : Word), s.sup.running = false →
      exec (.railFault rail) s = .next { s with power := { s.power with railsGood := false } } ∧ exec .steerFault s = .next s)
  ∧ (∀ s : State, s.power.supplyValid = true → s.sup.running = false → (bootUnit .sup s).sup.fw.running = none →
      ∃ t, exec .supervisorBoot s = .next t ∧ t.sup.bootRom = true ∧ t.sup.running = false ∧ t.sup.fw.maintCause = 1 ∧ t.engA = s.engA ∧ t.engB = s.engB
        ∧ t.power = { s.power with startStep := max s.power.startStep 2 })
  ∧ (∀ (s : State) (i : Nat), s.power.supplyValid = true → s.sup.running = false → (bootUnit .sup s).sup.fw.running = some i →
      exec .supervisorBoot s = .next (judgeGrants (judgeLevel .b (judgeLevel .a (reportRoles
        { bootUnit .sup s with
            power := { (bootUnit .sup s).power with startStep := max (bootUnit .sup s).power.startStep 2 },
            sup := { (bootUnit .sup s).sup with running := true, bootRom := false, restarting := false, fw := { (bootUnit .sup s).sup.fw with maintCause := 0 } } })))))
  ∧ (∀ s : State, s.sup.running = true → s.power.supplyValid = true → s.power.railsUp = false → exec .railSequenceDone s = .next
      (({ s with power := { s.power with railsUp := true, railsGood := true, charging := !s.power.onHoldup, steer := .a,
                                         startStep := 4 } } : State).modBoth fun x =>
        { x with pace := { x.pace with vcoreMv := 850 } }))
  ∧ ∀ (s : State) (e : EngId), mayLeave e s = true → exec (.engineLeaveReset e) s = .next
      (let peer := if twinPart s.part && s.sup.sound then (s.eng (other e)).core.role else 0
       ({ s with power := { s.power with startStep := 5 } } : State).modEng e fun x =>
        { x with core := { x.core with phase := .released, peerRole := peer } })

/-- An engine's start (R391, R453, R455, R460, R468 to R470, Table 16.1 steps 8 to 12, Table 11.1): with an image that runs and no F4
held the firmware starts; without one, at a level that does not fit, or after a restart that asks for it, the engine comes up
in maintenance mode with the cause of Table 16.6, and an F4 that is held takes it into Cul-de-sac; the initial calibration (its figures and
what the repair pass before it finds are free values, logs 6 and 19); ready; the 1.5 s of Table 11.1. -/
def Obligations.EngineStart : Prop :=
  (∀ (s : State) (e : EngId) (bad : List Nat), InOperation s e → (s.eng e).core.phase = .released →
      let s1 := judgeLevel e (bootUnit (.eng e) s)
      let s2 := startFirmware e bad s1
      exec (.engineBoot e bad) s = .next
        (if (s1.eng e).fw.running = none then judgeGrants (if s.power.f4Held = true then enterCul e s1 else enterMaint e 1 s1)
         else if s.power.f4Held = true then judgeGrants (enterCul e s2)
         else if (s.eng e).fw.maintCause = 3 then judgeGrants (enterMaint e 3 s2)
         else if s.sup.sound ∧ (s2.sup.view e).compatible = false then judgeGrants (enterMaint e 2 s2)
         else s2))
  ∧ (∀ (s : State) (e : EngId), engFitted s.part e = true → (s.eng e).core.phase = .firmware → (s.eng e).core.role = 0 →
      ∃ x n, exec (.initialCalibrationDone e) s = .next { s.setEng e x with freeCtr := n }
        ∧ x.core = { (s.eng e).core with phase := .calibrated } ∧ x.cal.initDone = true
        ∧ x.host = (s.eng e).host ∧ x.time = (s.eng e).time)
  ∧ (∀ (s : State) (e : EngId), engFitted s.part e = true → (s.eng e).core.phase = .calibrated → (s.eng e).core.role = 0 →
      s.power.f4Held = false →
      exec (.engineReady e) s = .next (judgeGrants
        (let s1 := s.modEng e fun x => { x with core := { x.core with phase := .ready } }
         { s1 with sup := s1.sup.modView e fun v => { v with ready := true } })))
  ∧ ∀ s : State, twinPart s.part = true →
      exec .engineBStartTimeout s = .next (judgeGrants { s with sup := { s.sup with bTimeout := true } })

/-- Heartbeats (R38, R39, R328, R467, R506, Table 11.1, Table 11.2): an engine's beat and its GIVE_UP code reach the supervisor's view, a
beat of the supervisor ends an announced restart at the engine, beats on the Fofaene link set the engine's view of the link, and
the loss of each path is judged by Table 11.2. An engine sends GIVE_UP from ROLE 5 alone. With the standby's beat the supervisor takes its
report, which a planned swap waits for (the model's choice, log 43). -/
def Obligations.HeartbeatsAreJudged : Prop :=
  (∀ (s : State) (e : EngId) (g : Bool), InOperation s e → s.sup.running = true → (s.eng e).running = true →
      exec (.sidebandBeat e true g) s = .next (settled
        (let code : Beat := if g = true ∧ (s.eng e).core.role = 5 then .giveUp else .alive
         let s1 := judgeActive false { s with sup := s.sup.modView e fun v => { v with beat := code } }
         if code = .alive ∧ (s1.sup.switch.map fun r => r.dst) = some e then grantSwap s1 else s1))
      ∧ exec (.sidebandBeat e false g) s = .next (settled
        (s.modEng e fun x => { x with core := { x.core with supOk := true, supRestart := false } })))
  ∧ (∀ (s : State) (e : EngId) (g : Bool), twinPart s.part = true → s.fof.up = true → s.fof.beatLost = false → s.engA.running = true →
      s.engB.running = true → s.standby ≠ some e →
      exec (.fofaeneBeat e g) s = .next (settled (s.modEng e fun x => { x with core := { x.core with fofUp := true } })))
  ∧ (∀ (s : State) (e : EngId) (g : Bool), twinPart s.part = true → s.engA.running = true → s.engB.running = true →
      exec (.fofaeneBeat e g) s = .next (settled
        (let s1 := if s.fof.beatLost = true then fofBack s else s
         if s1.fof.up = true then beatOnFof e g s1 else s1)))
  ∧ (∀ (s : State) (e : EngId), InOperation s e → s.sup.running = true →
      exec (.heartbeatLoss (.toSup e)) s = .next (settled
        (let s1 : State := { s with sup := s.sup.modView e fun v => { v with beat := .absent } }
         if s.standby = some e then (if s.sup.sound = true then standbySilent e s1 else s1) else judgeActive false s1)))
  ∧ (∀ (s : State) (e : EngId), InOperation s e → (s.eng e).running = true →
      exec (.heartbeatLoss (.toEng e)) s = .next (settled
        (let s1 := s.modEng e fun x => { x with core := { x.core with supOk := false } }
         if (s.eng e).core.supRestart = true ∨ s.sup.faulty = true then s1
         else ({ s1 with sup := { s1.sup with faulty := true } } : State).modBoth fun x =>
           if x.running = true then x.raise 0x0E 0x01 2 0 else x)))
  ∧ (∀ (s : State) (e : EngId), twinPart s.part = true → (s.eng e).running = true →
      exec (.heartbeatLoss (.fof e)) s = .next (settled (lossOnFof e s)))
  ∧ ∀ s : State, twinPart s.part = true → exec .giveUpWaitExpiry s = .next (settled (judgeActive true s))

/-- The judgement of the active (R326, R330, Table 11.2): with a sound supervisor, no switchover under way and an eligible standby,
GIVE_UP on the sideband with the Fofaene beat GIVE_UP or absent, or after the wait of 30 µs, starts a switchover with CAUSE 1, and
both absent one with CAUSE 2; ALIVE on the sideband, or no beat there with one on the link, starts none. -/
def Obligations.ActiveIsJudgedByItsBeats : Prop :=
  ∀ (s : State) (w : Bool) (e d : EngId), s.sup.sound = true → s.sup.switch = none → watched s = some e → s.standby = some d → e ≠ d →
    eligible s d = true →
    ((s.sup.view e).beat = .giveUp → (fofSeen d s = .giveUp ∨ fofSeen d s = .absent ∨ w = true) → judgeActive w s = startSwitch 1 e d s)
    ∧ ((s.sup.view e).beat = .absent → fofSeen d s = .absent → judgeActive w s = startSwitch 2 e d s)
    ∧ ((s.sup.view e).beat = .alive → judgeActive w s = s)
    ∧ ((s.sup.view e).beat = .absent → fofSeen d s ≠ .absent → judgeActive w s = s)

/-- The supervisor's faults (R39, R40, R41, R467): a fault marks the supervisor faulty and both running engines report SUP_FAULT;
recovery ends it and judges the grants again; 500 ms after an announced restart the same is a fault. -/
def Obligations.SupervisorFaultsAndRecovery : Prop :=
  (∀ (s : State) (c : SupFaultCause), s.sup.running = true → s.sup.faulty = false →
      exec (.supervisorFault c) s = .next (({ s with sup := { s.sup with faulty := true } } : State).modBoth fun x =>
        if x.running = true then x.raise 0x0E 0x01 2 0 else x))
  ∧ (∀ s : State, s.sup.running = true → s.sup.faulty = true → twinPart s.part = false →
      exec .supervisorRecovery s = .next (settled (judgeGrants (judgeStarted .b (judgeStarted .a (reportRoles { s with sup := { s.sup with faulty := false } }))))))
  ∧ (∀ s : State, s.sup.running = true → s.sup.faulty = true → twinPart s.part = true →
      exec .supervisorRecovery s = .next (settled (judgeGrants (recoverOwner (recoverStandby (resetWaiting .b (resetWaiting .a
        (judgeStarted .b (judgeStarted .a (reportRoles { s with sup := { s.sup with faulty := false } }))))))))))
  ∧ (∀ s : State, s.sup.running = false ∨ s.sup.faulty = false → exec .supervisorRecovery s = .next (settled s))
  ∧ (∀ s : State, (s.engA.core.supRestart = true ∨ s.engB.core.supRestart = true) →
      ∃ t, exec .supervisorRestartTimeout s = .next t ∧ t.sup = { s.sup with faulty := true } ∧ t.power = s.power ∧ t.fof = s.fof
        ∧ t.engA.core = { s.engA.core with supRestart := false, supOk := !s.engA.core.supRestart && s.engA.core.supOk }
        ∧ t.engB.core = { s.engB.core with supRestart := false, supOk := !s.engB.core.supRestart && s.engB.core.supOk })
  ∧ ∀ s : State, s.engA.core.supRestart = false → s.engB.core.supRestart = false → exec .supervisorRestartTimeout s = .next s

/-- The Fofaene link's state and what it carries (R42, R262, R286, R333, R340 to R343, R347, Table 11.4). -/
def Obligations.MirroringReachesTheStandby : Prop :=
  (∀ s : State, twinPart s.part = true → exec .fofLinkDown s = .next (settled
      (judgeActive false { fofDown s with fof := { (fofDown s).fof with beatLost := false } })))
  ∧ (∀ s : State, twinPart s.part = true → s.fof.up = true → exec .fofLinkUp s = .next s)
  ∧ (∀ (s : State) (a d : EngId), twinPart s.part = true → s.fof.up = false → s.active = some a → s.standby = some d →
      (s.eng d).twin.copy = 3 → compatible (s.eng d).fw (s.eng a).fw = true → ∃ t, exec .fofLinkUp s = .next t
        ∧ t.fof = { s.fof with up := true, announced := (s.eng a).host.cfgGen, beatLost := false }
        ∧ (t.eng a).twin.copy = 1 ∧ (t.eng d).twin.copy = 1 ∧ (t.eng d).twin.cfgGenSeen = (s.eng a).host.cfgGen)
  ∧ (∀ (s : State) (a d : EngId), Mirrors s a d → a ≠ d →
      exec .runningCommit s = .next
        ((s.modEng d (runningCommit (followsActive s) (s.eng a))).modEng a fun x => { x with rules := { x.rules with changed := [] } })
      ∧ exec .proxyMirror s = .next (s.modEng d fun y => { y with egress := copySeqs (s.eng a).egress y.egress }))
  ∧ (∀ (s : State) (a d : EngId) (c : Commit) (rest : List Commit), Mirrors s a d → s.fof.commits = c :: rest →
      (s.eng d).serving = true → exec .commitMarkerReceived s = .next
        (applyCommit d { s with fof := { s.fof with commits := rest, acks := s.fof.acks ++ [c.gen] } } c))
  ∧ (∀ (s : State) (a : EngId) (g : Nat) (rest : List Nat), twinPart s.part = true → s.active = some a → s.fof.acks = g :: rest →
      exec .commitAckReceived s = .next (settled (flushWaiting a (({ s with fof := { s.fof with acks := rest } } : State).modEng a fun x =>
        { x with host := { x.host with waiting := x.host.waiting.map (ackWaiting g) } }))))
  ∧ (∀ (g : Nat) (w : Waiting), ackWaiting g w = if w.ackOf = some g then { w with ackOf := none, mirrored := true } else w)
  ∧ (∀ (s : State) (a d : EngId) (g : Nat), twinPart s.part = true → s.active = some a → s.standby = some d → s.fof.up = true →
      oldestAck (s.eng a) = some g → exec .copyTimeout s = .next (settled (releaseAcks a (setCopy 5
        (({ s with fof := { s.fof with commits := [], acks := [] } } : State).modEng a fun x => x.raise 0x0C 0x03 1 (word g))))))
  ∧ (∀ (s : State) (a d : EngId), twinPart s.part = true → s.active = some a → s.standby = some d → s.fof.up = true →
      ((s.eng d).twin.copy = 1 ∨ (s.eng d).twin.copy = 5) → (s.eng a).serving = true →
      exec .fullCopyEnd s = .next (endCopyRun a d s))
  ∧ (∀ (s : State) (a d : EngId), twinPart s.part = true → s.active = some a → s.standby = some d → s.fof.up = true →
      (s.eng a).clk.syntLocked = true →
      (((s.eng d).twin.sync = 0 ∨ (s.eng d).twin.setDue = true) →
        exec .timeWordSync s = .next (s.modEng d (adoptTime (s.eng a).time)))
      ∧ ∀ (err : Int) (held : Nat), (s.eng d).twin.sync ≠ 0 →
        exec (.tbPhaseMeasurement err held) s = .next (s.modEng d (phaseMeasured err held (s.eng a).time)))
  ∧ (∀ (s : State) (a d : EngId), twinPart s.part = true → s.active = some a → s.standby = some d →
      (s.fof.up = true → exec .occupancyReport s = .next
        (let rt := ((s.eng a).time.now16 + 10 * us16 - 1) / (10 * us16) * (10 * us16)
         let s1 := passTo a rt s
         s1.modEng d fun y => { y with twin := { y.twin with
           shadowOcc := occupancies rt (s1.eng a), shadowTime := rt,
           shadowDecided := y.twin.shadowDecided.filter fun k => decide (k.2 > rt) } }))
      ∧ ∀ (p : Fin 34) (st : Nat), s.fof.up = false → exec (.fofTimestampReceived p st) s = .next s)
  ∧ (∀ (err : Int) (held : Nat) (a : TimeState) (x : Engine), (phaseMeasured err held a x).twin.tbPhaseErr = err
      ∧ (x.twin.sync = 1 → err.natAbs ≤ 20 → 1000000 ≤ held → a.stepCount = x.time.stepCount → x.time.slew = none → x.twin.setDue = false →
          (∀ l, l < 4 → x.fofDefault l = false) → (phaseMeasured err held a x).twin.sync = 2)
      ∧ (x.twin.sync = 1 → (∃ l, l < 4 ∧ x.fofDefault l = true) → (phaseMeasured err held a x).twin.sync = 1)
      ∧ (x.twin.sync = 2 → 50 < err.natAbs → 10000 ≤ held →
          (phaseMeasured err held a x).twin.sync = 1 ∧ (phaseMeasured err held a x).twin.setDue = true))
  ∧ ∀ (s : State) (a d : EngId) (p : Fin 34) (st : Nat), twinPart s.part = true → s.active = some a → s.standby = some d →
      s.fof.up = true → exec (.fofTimestampReceived p st) s = .next
        (let heard (new old : Option ReqWait) : Option ReqWait := match new with
           | some k => if k.sent = some (st : Int) then some k else old
           | none => old
         let one (k : Nat) (y : Engine) : Engine :=
           let q := (s.eng a).ptp k p.val
           y.modPtp k p.val fun w => { w with seqs := q.seqs, req := heard q.req w.req, preq := heard q.preq w.preq, own := false }
         s.modEng d fun y => one 1 (one 0 y))

/-- The digests and the fast scrub (R337 to R339, Table 11.6): a window closes at the 4,096th counted frame's stamp plus 128 ps or 1 s
after the last boundary; 100 µs after its boundary the windows of both engines are compared while the link is up and no scrub
runs, and a window with no frame on either engine is not; three unequal windows in a row start the scrub; the
scrub ends with the differing buckets resynchronised; an engine with wrong words is self-faulty, and a standby that has them beside
the active gives up. -/
def Obligations.DigestsAndScrub : Prop :=
  (∀ (s : State) (a : EngId), twinPart s.part = true → s.active = some a →
      exec .digestWindowClose s = .next (match (countedFrames (s.eng a))[4095]? with
        | some k => s.modEng a (closeDigest (k.1 + edge128))
        | none => (passTo a ((s.eng a).twin.digestBoundary + s16) s).modEng a (closeDigest ((s.eng a).twin.digestBoundary + s16))))
  ∧ (∀ (b : Nat) (x : Engine), (closeDigest b x).twin.digestBoundary = b
      ∧ (closeDigest b x).twin.digestNumber = (x.twin.digestNumber + 1) % 2 ^ 32
      ∧ (closeDigest b x).twin.digestClosed = x.twin.digestClosed ++ [{ number := (x.twin.digestNumber + 1) % 2 ^ 32, boundary := b }])
  ∧ (∀ s : State, twinPart s.part = true → s.active = none → exec .digestWindowClose s = .next s ∧ exec .digestCompare s = .next s)
  ∧ (∀ (s : State) (a : EngId), twinPart s.part = true → s.active = some a → (s.eng a).twin.digestClosed = [] →
      exec .digestCompare s = .next s)
  ∧ (∀ (s : State) (a : EngId) (w : DigestWin) (rest : List DigestWin), twinPart s.part = true → s.active = some a →
      (s.eng a).twin.digestClosed = w :: rest → exec .digestCompare s = .next
        (let s1 := passTo a (w.boundary + 100 * us16) s
         let x := s1.eng a
         let s2 := s1.setEng a { x with twin := { x.twin with digestClosed := rest, digestFrom := w.boundary } }
         match s2.standby with
         | none => s2.modEng a (compared w.number w.boundary none)
         | some d =>
           let fa := windowFrames x.twin.digestFrom w.boundary x
           let fd := windowFrames x.twin.digestFrom w.boundary (s2.eng d)
           s2.modBoth (compared w.number w.boundary
             (if s2.fof.up = true ∧ x.twin.scrubRunning = false ∧ ¬ (fa = [] ∧ fd = []) then
               some (decide (fa.length = fd.length ∧ digestSum fa = digestSum fd))
             else none))))
  ∧ (∀ (n b : Nat) (x : Engine),
      (compared n b (some true) x).twin.mismatchRun = 0
      ∧ (compared n b (some false) x).twin.mismatchRun = x.twin.mismatchRun + 1
      ∧ ((compared n b (some false) x).twin.scrubRunning = true ↔ x.twin.scrubRunning = true ∨ 2 ≤ x.twin.mismatchRun)
      ∧ (∀ ok, (compared n b (some ok) x).twin.digestWindow = n) ∧ (compared n b none x).twin.digestWindow = x.twin.digestWindow)
  ∧ (∀ (s : State) (a d : EngId) (wa wd : Nat), twinPart s.part = true → s.active = some a → s.standby = some d →
      (s.eng a).twin.scrubRunning = true → a ≠ d → (wa = 0 ∨ wd = 0) → ∃ t, exec (.fastScrubEnd wa wd) s = .next t
        ∧ (∀ e, (t.eng e).twin.scrubRunning = false ∧ (t.eng e).twin.mismatchRun = 0)
        ∧ ((t.eng a).twin.selfFaulty = true ↔ (s.eng a).twin.selfFaulty = true ∨ 0 < wa)
        ∧ ((t.eng d).twin.selfFaulty = true ↔ (s.eng d).twin.selfFaulty = true ∨ 0 < wd)
        ∧ (t.eng d).rules.fdb = resyncFdb (differing (s.eng a).rules.fdb (s.eng d).rules.fdb) (s.eng a).rules.fdb (s.eng d).rules.fdb)
  ∧ (∀ (s : State) (a d : EngId) (wa wd : Nat), twinPart s.part = true → s.active = some a → s.standby = some d →
      (s.eng a).twin.scrubRunning = true → a ≠ d → 0 < wa → 0 < wd → ∃ s1, exec (.fastScrubEnd wa wd) s = .next (giveUp d s1)
        ∧ (∀ e, (s1.eng e).twin.selfFaulty = true ∧ (s1.eng e).twin.scrubRunning = false ∧ (s1.eng e).twin.mismatchRun = 0)
        ∧ (s1.eng a).core = (s.eng a).core ∧ (s1.eng d).core = (s.eng d).core)
  ∧ (∀ (s : State) (a d : EngId) (wa wd : Nat), twinPart s.part = true → s.active = some a → s.standby = some d →
      (s.eng a).twin.scrubRunning = false → exec (.fastScrubEnd wa wd) s = .next s)
  ∧ (∀ (s : State) (wa wd : Nat), twinPart s.part = true → s.active = none →
      exec (.fastScrubEnd wa wd) s = .next (s.modBoth fun x => { x with twin := { x.twin with scrubRunning := false, mismatchRun := 0 } }))
  ∧ ∀ (s : State) (a : EngId) (wa wd : Nat), twinPart s.part = true → s.active = some a → s.standby = none →
      (s.eng a).twin.scrubRunning = true → ∃ t, exec (.fastScrubEnd wa wd) s = .next t
        ∧ (∀ e, (t.eng e).twin.scrubRunning = false ∧ (t.eng e).twin.mismatchRun = 0)
        ∧ ((t.eng a).twin.selfFaulty = true ↔ (s.eng a).twin.selfFaulty = true ∨ 0 < wa)

/-- The steps of a switchover and of a planned swap (R33, R39, R40, R331, R334, R344 to R346, R348, Table 11.3): the steering moves to the
new active while the supervisor is sound, and holds its position while it is not; the output aligner hands over and releases the
outputs; the switch is complete, counted on both engines, and the new active starts frames; a run whose new active is lost ends.
A swap is prepared PREP_US before SW_AT and takes place at SW_AT, its conditions judged at both; a scheduled swap is attempted
when it is due and every 60 s after. That the grant of a planned swap comes with the standby's beat or with the steering is the model's
choice (log 43). -/
def Obligations.SwitchoverAndSwapSteps : Prop :=
  (∀ (s : State) (r : SwitchRun), Switching s r → r.step = 5 → s.sup.sound = true →
      exec .steeringMoveDone s = .next (settled (moveSteering r s)) ∧ (moveSteering r s).power.steer = r.dst)
  ∧ (∀ (s : State) (r : SwitchRun), Switching s r → (6 ≤ r.step ∨ s.sup.sound = false) → exec .steeringMoveDone s = .next (settled s))
  ∧ (∀ (s : State) (r : SwitchRun), s.sup.switch = some r → r.step = 3 → (s.eng r.dst).core.role = 2 → (s.eng r.dst).running = true →
      (s.sup.sound = true → grantSwap s = grantControl r.cause r.src r.dst r.lost s) ∧ (s.sup.sound = false → grantSwap s = s))
  ∧ (∀ (s : State) (r : SwitchRun) (d : Vector Int 12), Switching s r → r.step = 6 →
      exec (.outputAlignerHandover d) s = .next (handOver r d s)
      ∧ (handOver r d s).power.alignerHolds = false ∧ (handOver r d s).sup.switch = some { r with step := 7 })
  ∧ (∀ (s : State) (r : SwitchRun) (d : Vector Int 12), Switching s r → r.step ≠ 6 → exec (.outputAlignerHandover d) s = .next s)
  ∧ (∀ (s : State) (r : SwitchRun), Switching s r → r.step = 7 →
      exec .switchoverComplete s = .next (settled (judgeGrants (endSwitch r s)))
      ∧ (endSwitch r s).sup.switch = none ∧ ((endSwitch r s).eng r.dst).core.mayStart = true
      ∧ ∀ e, ((endSwitch r s).eng e).twin.switches = (s.eng e).twin.switches + 1)
  ∧ (∀ (s : State) (r : SwitchRun), Switching s r → r.step ≠ 7 → exec .switchoverComplete s = .next (settled s))
  ∧ (∀ (s : State) (r : SwitchRun) (d : Vector Int 12), twinPart s.part = true → s.sup.switch = some r → r.step ≠ 3 → runHolds r s = false →
      let t : State := { s with sup := { s.sup with switch := none }, power := { s.power with alignerHolds := false } }
      exec .steeringMoveDone s = .next (settled t) ∧ exec (.outputAlignerHandover d) s = .next t
      ∧ exec .switchoverComplete s = .next (settled t))
  ∧ (∀ (s : State) (d : Vector Int 12), twinPart s.part = true → s.sup.switch = none → exec .steeringMoveDone s = .next (settled s)
      ∧ exec (.outputAlignerHandover d) s = .next s ∧ exec .switchoverComplete s = .next (settled s))
  ∧ (∀ (s : State) (p : SwapPlan), twinPart s.part = true → s.sup.switch = none → s.sup.swap = some p → p.prepared = false →
      let s1 := passTo (s.active.getD s.power.steer) (p.swAt - p.prepUs * us16) s
      (∀ st, swapRefusal s1 = some st → exec .swapPrepare s = .next (settled (abandonSwap p st s1)))
      ∧ ∀ a d, swapRefusal s1 = none → s1.active = some a → s1.standby = some d →
        exec .swapPrepare s = .next (settled
          (let s2 := ({ s1 with sup := { s1.sup with swap := some { p with prepared := true } } } : State).modBoth fun x =>
             { x with twin := { x.twin with swapPending := true } }
           (s2.modEng d fun y => { y with twin := { y.twin with storing := true } }).modEng a fun x =>
             { x with twin := { x.twin with swapAt := some p.swAt } })))
  ∧ (∀ (s : State) (p : SwapPlan), twinPart s.part = true → s.sup.switch = none → s.sup.swap = some p → p.prepared = true →
      let s1 := passTo (s.active.getD s.power.steer) p.swAt s
      (∀ st, swapRefusal s1 = some st → exec .swapAt s = .next (settled (abandonSwap p st s1)))
      ∧ ∀ a d, swapRefusal s1 = none → s1.active = some a → s1.standby = some d →
        exec .swapAt s = .next (settled (switchAt p a d s1)))
  ∧ (∀ s : State, twinPart s.part = true → s.sup.swap = none →
      exec .swapPrepare s = .next (settled s) ∧ exec .swapAt s = .next (settled s))
  ∧ (∀ (s : State) (t : Nat), twinPart s.part = true → s.sup.swapNext = some t → s.sup.running = true →
      let s1 := passTo (s.active.getD s.power.steer) (t + s.sup.swapRetries * 60 * s16) s
      let u := if s1.sup.swap.isSome = true ∨ (swapRefusal s1).isSome = true ∨ switching s1 = true then failSchedule s1
        else { s1 with sup := { s1.sup with swap := some {
          swAt := ownerNow s1 + (s1.sup.swapPrepUs + 100) * us16, prepUs := s1.sup.swapPrepUs, commanded := false, prepared := false } } }
      (s.sup.swapRetries = 0 → exec .swapSchedule s = .next u) ∧ (s.sup.swapRetries ≠ 0 → exec .swapRetry s = .next u))
  ∧ ∀ s : State, twinPart s.part = true → s.sup.swapNext = none → exec .swapSchedule s = .next s ∧ exec .swapRetry s = .next s

/-- Device time (R67, R72, R73, R74, R79, R89): a step applied at its instant adds its jump on the engine and, where the other engine holds
it too, on both at once, and replies; a slew is over after the cycles it takes at its rate; a read of TIME_NSEC latches the time and
the TB count; the oldest two-step entry lapses after 1 s and is counted; the bits of EVT_STATUS written 1 clear. -/
def Obligations.DeviceTimeEvents : Prop :=
  (∀ (e : EngId) (s : State) (p : PendingStep), InOperation s e → (s.eng e).time.step = some p →
      exec (.stepApply e) s = .next (settled
        (let s1 := jumpOn e p (passTo e p.applyAt s)
         match (s1.eng (other e)).time.step with
         | some q => if twinPart s.part = true ∧ (s1.eng (other e)).awake = true ∧ q.applyAt = p.applyAt then jumpOn (other e) q s1 else s1
         | none => s1)))
  ∧ (∀ (e : EngId) (s : State) (p : PendingStep), jumpOn e p s = complete e .stepApplied .ok (fun x _ => stepReply p.rem x)
      (s.modEng e fun x => timeJumped p.jump { x with time := applyStep p x.time }))
  ∧ (∀ (p : PendingStep) (t : TimeState), (applyStep p t).dev = ((t.dev + p.jump * 65536) % devMod).toNat
      ∧ (applyStep p t).stepCount = (t.stepCount + 1) % 256 ∧ (applyStep p t).tbSet = true ∧ (applyStep p t).step = none
      ∧ (applyStep p t).slew = (if p.rem = 0 then none else some { remain := p.rem * 65536 * 1000000000000, rate := p.rate }))
  ∧ (∀ (e : EngId) (s : State), InOperation s e → (s.eng e).time.step = none → exec (.stepApply e) s = .next (settled s))
  ∧ Does .slewComplete (fun e s => match (s.eng e).time.slew with
      | none => s
      | some w => pass (slewCycles w) s)
  ∧ (∀ (fb : Bool) (t : TimeState) (w : Slew), t.slew = some w → 0 < w.rate → (passTime fb (slewCycles w) t).slew = none)
  ∧ (∀ l : LatchId, Changes (.timeNsecRead · l) fun x =>
      { x with time := { x.time with latches := vset x.time.latches (latchIdx l) { time := x.now, cycles := x.time.tbCycles } } })
  ∧ Changes .tc2stepAge (fun x => match x.time.twoStep with
      | [] => x
      | _ :: rest => ({ x with time := { x.time with twoStep := rest } } : Engine).bump 2)
  ∧ ∀ m : Word, Changes (.evtStatusClear · m) fun x =>
      { x with time := { x.time with edgeLate := x.time.edgeLate &&& ~~~(BitVec.ofNat 8 (field m 31 24)),
                                     evtOvf := x.time.evtOvf &&& ~~~(BitVec.ofNat 8 (field m 15 8)) } }

/-- Event inputs (R91, R92, R94): an edge of a kind that the input takes, and that holds for the deglitch time, is captured with the
time at the ball, off by what the default delay misses where the input's calibration set failed (R391, log 19); any other leaves the
engine as it is. Every edge taken advances the sequence number; one within 8 ns of the one captured before, or with the queue of 64 full,
is counted and not captured; any other is captured, with its number. -/
def Obligations.EventInputEdges : Prop :=
  (∀ (e : EngId) (s : State) (n : Fin 8) (rise : Bool) (held after : Nat), InOperation s e →
      exec (.evtinEdge e n rise held after) s = .next ((passAfter after s).modEng e fun x =>
        let q := x.time.evtIn[n]
        if x.running = true ∧ (q.edge = 3 ∨ (q.edge = 1 ∧ rise = true) ∨ (q.edge = 2 ∧ rise = false)) ∧
            (q.deglitch = 0 ∨ q.deglitch * 4 ≤ held) then
          (takeEdge e n.val rise (tb16 x (interpOf after))
            { t := ((x.time.now16 + interpOf after : Nat) - q.pinDelay + x.captureSlip n.val : Int).toNat, qual := x.qual 0 false } x)
        else x))
  ∧ (∀ (e : EngId) (n : Fin 8) (rise : Bool) (at_ l : Nat) (st : Stamp) (x : Engine), x.time.evtIn[n].last = some l → at_ < l + 8 * ns16 →
      ((takeEdge e n.val rise at_ st x).time.evtIn[n]).queue = x.time.evtIn[n].queue
      ∧ (takeEdge e n.val rise at_ st x).stats = bumpBy 1 (4 + n.val) x.stats)
  ∧ (∀ (e : EngId) (n : Fin 8) (rise : Bool) (at_ : Nat) (st : Stamp) (x : Engine),
      ((takeEdge e n.val rise at_ st x).time.evtIn[n]).seq = (x.time.evtIn[n].seq + 1) % 65536)
  ∧ (∀ (e : EngId) (n : Fin 8) (rise : Bool) (at_ : Nat) (st : Stamp) (x : Engine), (∀ l, x.time.evtIn[n].last = some l → l + 8 * ns16 ≤ at_) →
      64 ≤ x.time.evtIn[n].queue.length →
      ((takeEdge e n.val rise at_ st x).time.evtIn[n]).queue = x.time.evtIn[n].queue
      ∧ (takeEdge e n.val rise at_ st x).time.evtOvf = x.time.evtOvf ||| (1#8 <<< n.val))
  ∧ ∀ (e : EngId) (n : Fin 8) (rise : Bool) (at_ : Nat) (st : Stamp) (x : Engine), (∀ l, x.time.evtIn[n].last = some l → l + 8 * ns16 ≤ at_) →
      x.time.evtIn[n].queue.length < 64 → x.time.evtIn[n].deliver = false →
      ((takeEdge e n.val rise at_ st x).time.evtIn[n]).queue
        = x.time.evtIn[n].queue ++ [{ seq := (x.time.evtIn[n].seq + 1) % 65536, rise := rise, time := st }]

/-- Event outputs (R33, R95 to R97): the fall of a pulse or the head of the schedule takes effect at its instant: the level of the output,
and the ball, where the engine owns it and neither the aligner nor a reset holds it; the other outputs and the other engine stay as
they are. -/
def Obligations.EventOutputEdges : Prop :=
  (∀ (e : EngId) (s : State) (n : Fin 8) (f : Nat), InOperation s e → (s.eng e).time.evtOut[n].fall = some f →
      ∃ t, exec (.evtoutEdge e n) s = .next t
        ∧ ((t.eng e).time.evtOut[n]) = { (s.eng e).time.evtOut[n] with level := false, fall := none }
        ∧ (∀ m, m ≠ n → (t.eng e).time.evtOut[m] = (s.eng e).time.evtOut[m])
        ∧ (t.eng e).time.dev = ((passTo e f s).eng e).time.dev ∧ t.eng (other e) = (passTo e f s).eng (other e)
        ∧ (s.power.steer = e → s.power.alignerHolds = false → s.power.alignerLow = false → (s.eng e).core.role ≠ 4 →
            t.power.evtBalls = s.power.evtBalls &&& ~~~(1#8 <<< n.val))
        ∧ (s.power.steer ≠ e → t.power = s.power))
  ∧ (∀ (e : EngId) (s : State) (n : Fin 8) (k : EdgeEntry) (rest : List EdgeEntry), InOperation s e → (s.eng e).time.evtOut[n].fall = none →
      (s.eng e).time.evtOut[n].sched = k :: rest → ∃ t, exec (.evtoutEdge e n) s = .next t
        ∧ ((t.eng e).time.evtOut[n]).sched = rest ∧ ((t.eng e).time.evtOut[n]).level = decide (k.action ≠ 0)
        ∧ ((t.eng e).time.evtOut[n]).fall = (if k.action = 2 then some (edgeEnd k) else none)
        ∧ (∀ m, m ≠ n → (t.eng e).time.evtOut[m] = (s.eng e).time.evtOut[m])
        ∧ (t.eng e).time.dev = ((passTo e k.at_ s).eng e).time.dev ∧ t.eng (other e) = (passTo e k.at_ s).eng (other e)
        ∧ (s.power.steer = e → s.power.alignerHolds = false → s.power.alignerLow = false → (s.eng e).core.role ≠ 4 →
            t.power.evtBalls = if k.action = 0 then s.power.evtBalls &&& ~~~(1#8 <<< n.val) else s.power.evtBalls ||| (1#8 <<< n.val))
        ∧ (s.power.steer ≠ e → t.power = s.power))
  ∧ ∀ (e : EngId) (s : State) (n : Fin 8), InOperation s e → (s.eng e).time.evtOut[n].fall = none → (s.eng e).time.evtOut[n].sched = [] →
      exec (.evtoutEdge e n) s = .next s

/-- Clock domains (R51, R52, R61, R315, R316): what a lock window, the loss and the return of SYN-T's lock, the loss of D0 and the
bits of DOMAIN_LOSS written 1 do. -/
def Obligations.ClockDomainEvents : Prop :=
  (∀ (l : Loop) (w : LockWindow) (dev : Int), DoesThenSettles (.lockWindowEnd · l w dev) fun e s =>
      if (s.eng e).clk.suspended = true ∨ loopPresent s.part l = false then s
      else match w with
        | .fine => if l = .synt then s.setEng e (fineWindow dev (s.eng e)) else s
        | .analog =>
          let r := analogWindow l dev (s.eng e)
          judgeSync (if r.2 = .lost then loopLost e l (s.setEng e r.1) else s.setEng e r.1))
  ∧ (∀ (inc : Nat) (ph : Int), Does (.syntLoss · inc ph) fun e s =>
      let s1 := s.modEng e (syntLost s.part (if inc = 0 then 2 * 2 ^ 32 else inc) ph)
      if (s.eng e).clk.suspended = true then s else if (s.eng e).clk.fallback = true then s1 else localsChanged e s1)
  ∧ (∀ (part : Part) (inc : Nat) (ph : Int) (x : Engine), x.clk.fallback = false →
      (syntLost part inc ph x).time.inc = inc ∧ (syntLost part inc ph x).time.dev = ((x.time.dev + ph) % devMod).toNat
      ∧ (syntLost part inc ph x).clk.fallback = true ∧ (syntLost part inc ph x).clk.syntLocked = false
      ∧ (syntLost part inc ph x).refs.pulling = true)
  ∧ Changes .syntAnalogLock (fun x => if x.clk.suspended = true then x else
      let y := setLock 0 true (x.setJudge .synt { x.judge .synt with good := 16, bad := 0 })
      { y with refs := { y.refs with syntEpisode := false } })
  ∧ (∀ ph : Int, Changes (.syntReturn · ph) fun x =>
      let y := setLock 14 false x
      if x.clk.fallback = true ∧ x.clk.syntLocked = true then
        { y with time := { carryPhase ph y.time with inc := 2 * 2 ^ 32 } }
      else x)
  ∧ Changes .syntRelockRetry (fun x =>
      if x.clk.fallback = true ∧ x.clk.syntLocked = false then
        let run : RunningReset := { reset := .synt, source := 0x08, kind := 0x02, inj := false, late := false }
        (({ x with fault := { x.fault with resets := (x.fault.resets.filter fun r => decide (r.reset ≠ .synt)) ++ [run] } } : Engine).setJudge .synt
          { judgeZero with fineLost := (x.judge .synt).fineLost }).bump 78
      else x)
  ∧ Does .phasePullbackDone (fun e s =>
      if (s.eng e).refs.pulling = true ∧ (s.eng e).clk.fallback = false then
        localsChanged e (s.modEng e fun x =>
          { x with refs := { x.refs with pulling := false, syns := x.refs.syns.map fun k => { k with hold := false } } })
      else s)
  ∧ Changes .d0Lost (fun x => if x.clk.suspended = true then x
      else (setLoss 14 { x with clk := { x.clk with suspended := true } }).raise 0x08 0x01 3 0)
  ∧ ∀ m : Word, Changes (.domainLossClear · m) fun x => { x with clk := { x.clk with loss := x.clk.loss &&& ~~~(m.setWidth 16) } }

/-- The core-speed governor and the Crossing's monitors (R57, R58, R60 to R63, R183, R185). -/
def Obligations.CorePaceEvents : Prop :=
  DoesThenSettles .governorSample (fun e s => if allSettled (s.modEng e governor) = true then finishPace (s.modEng e governor) else s.modEng e governor)
  ∧ (∀ v : Vector Nat 12, Does (.speedMonitorWindow · v) fun e s => s.modEng e (monitorWindow s.part v))
  ∧ (∀ (e : EngId) (s : State) (v : Vector Nat 12), heldPowered e s = true →
      exec (.governorSample e) s = .next (settled (s.modEng e fun x => { x with pace := (governor x).pace }))
      ∧ exec (.speedMonitorWindow e v) s = .next (s.modEng e fun x =>
        { x with ports := (monitorWindow s.part v x).ports, pace := (monitorWindow s.part v x).pace }))
  ∧ (∀ k : Fin 12, Changes (.monitorRegRead · k) (readMonitor k.val))
  ∧ (∀ s : State, exec .paceReplyTimeout s = .next (settled (complete .b .paceSettled .ok (paceReply (allSettled s))
      (complete .a .paceSettled .ok (paceReply (allSettled s)) s))))
  ∧ Changes .paceDroppedClear (fun x => { x with pace := { x.pace with paceDropped := false } })
  ∧ (∀ x : Engine, x.ports.vcoreHold = true → (governor x).pace.vcoreMv = 900 ∧ (governor x).pace.settled = false)
  ∧ (∀ x : Engine, x.ports.vcoreHold = false → x.ports.awaitWindow = true →
      (governor x).pace = { x.pace with sinceRaiseUs := x.pace.sinceRaiseUs + 10 })
  ∧ (∀ (part : Part) (v : Vector Nat 12) (x : Engine), (monitorWindow part v x).ports.awaitWindow = false)
  ∧ ∀ x : Engine, x.ports.vcoreHold = false → x.ports.awaitWindow = false →
      (paceFloor x.pace.pace ≤ x.ports.minSpeed → (governor x).pace.belowUs = 0 ∧ (governor x).pace.ceilingUs = 0
        ∧ (governor x).pace.vcoreMv ≤ x.pace.vcoreMv)
      ∧ (x.ports.minSpeed < paceFloor x.pace.pace → x.pace.vcoreMv < 900 →
          (governor x).pace.vcoreMv = (if 100 < x.pace.belowUs + 10 ∧ 20 ≤ x.pace.sinceRaiseUs + 10 then min (x.pace.vcoreMv + 10) 900
            else x.pace.vcoreMv))
      ∧ (x.ports.minSpeed < paceFloor x.pace.pace → x.pace.vcoreMv = 900 → (governor x).pace.vcoreMv = 900
          ∧ (governor x).pace.ceilingUs = x.pace.ceilingUs + 10
          ∧ (governor x).pace.ceilingRaised = (x.pace.ceilingRaised || decide (100 < x.pace.ceilingUs + 10)))

/-- Reference inputs (R290, R291, R294, R298, R299, R282): a one-second measurement, the loss of a reference's signal, the end of its
qualification, the HIST bits written 1, an edge of a pulse input. -/
def Obligations.ReferenceEvents : Prop :=
  (∀ (r : Fin 42) (f ph : Int), Does (.refMeasure · r f ph) fun e s => s.modEng e fun x =>
      if x.running = true ∧ refLive s.part x r.val = true then measure r.val f ph x else x)
  ∧ (∀ r : Fin 42, Changes (.refLossOfSignal · r) fun x =>
      let y := x.modRef r.val fun q => { q with signal := false, lost := true }
      if r.val = 6 then d0Tcxo y else y)
  ∧ (∀ d : Fin 2, Changes (.ptpNoSample · d) fun x => x.modRef (40 + d.val) fun q => { q with signal := false, lost := true })
  ∧ (∀ r : Fin 42, Does (.refQualifyTimer · r) fun e s =>
      if ((s.eng e).ref r.val).state = 1 then
        ((passTo e ((s.eng e).ref r.val).until_ s).modEng e fun x => x.modRef r.val fun k => { k with ripe := true })
      else s)
  ∧ (∀ (r : Fin 42) (m : Word), Changes (.refHistClear · r m) fun x =>
      x.modRef r.val fun q => { q with hist := q.hist &&& ~~~(BitVec.ofNat 6 (field m 13 8)) })
  ∧ ∀ (e : EngId) (s : State) (r : Fin 42) (rise : Bool) (after : Nat), InOperation s e →
      let s1 := passAfter after s
      let y := s1.eng e
      let q := y.ref r
      let at_ := y.time.now16 + interpOf after
      let marks : Prop := y.running = true ∧ q.enable = true ∧ y.kind r.val = .pulse ∧ rise ≠ q.falling
      let signalled := y.modRef r.val fun k => { k with signal := true }
      let z := if q.assign < 2 then takeSample q.assign r.val at_ (offSecond ((at_ : Int) - q.inDelay)) signalled else signalled
      let counted (x : Engine) : Engine := match x.net.cal with
        | none => x
        | some k =>
          let err := offSecond ((at_ : Int) - ps16 k.cablePs) - (x.slot x.net.steer).buildOut
          if rise = true ∧ r.val = 4 + k.input then { x with net := { x.net with cal := some (calAsymEdge err k) } } else x
      (marks → exec (.pulseInputEdge e r rise after) s = .next (s1.setEng e (counted z)))
      ∧ (¬ marks → exec (.pulseInputEdge e r rise after) s = .next (s1.setEng e (counted y)))

/-- The servo, the outputs and the anchors (R74, R120, R265, R279, R280, R282, R285, R286, R301, R310, R321): an update of a running engine
takes one set of free loop values (log 6), gives the standby what its servos hold and a step that it asks for, and replies to a
waiting domain switch; a build-out slew that is done leaves 0; slews that are done leave their outputs aligned, and the last one replies;
TIME.CAL_ASYM ends in ERR_STATE, which gives its generation back (the model's choice, log 168), or writes its trim; the anchor
detector's samples and its restart. -/
def Obligations.ServoAndAnchorEvents : Prop :=
  (∀ (e : EngId) (s : State), InOperation s e → (s.eng e).running = false → exec (.servoUpdate e) s = .next (settled s))
  ∧ (∀ (e : EngId) (s : State), InOperation s e → (s.eng e).running = true →
      let x := s.eng e
      let peer := match s.active with
        | some a => if a ≠ e ∧ x.core.role = 2 ∧ followsActive s = true then some (s.eng a) else none
        | none => none
      let y := servoUpdate s.part e peer (freeInt (Config.freeNat s.freeCtr)) (freeInt (Config.freeNat (s.freeCtr + 1)))
        (freeInt (Config.freeNat (s.freeCtr + 2))) (freeInt (Config.freeNat (s.freeCtr + 3))) (Config.freeNat (s.freeCtr + 4)) x
      let s1 := (clocksSwitched x).foldl (fun t p => localChanged e p t) (({ s with freeCtr := s.freeCtr + 5 } : State).setEng e y)
      let s2 := match s1.standby with
        | some b =>
          if b ≠ e ∧ followsActive s1 = true ∧ y.core.role = 1 then
            s1.modEng b fun z =>
              let w : Engine := { z with net := shadowSlots y.net z }
              if x.time.step = none ∧ y.time.step ≠ none then { w with time := { w.time with step := y.time.step } } else w
          else s1
        | none => s1
      (x.net.switch = none → exec (.servoUpdate e) s = .next (settled s2))
      ∧ ∀ k, x.net.switch = some k → exec (.servoUpdate e) s = .next (settled (complete e .domainSwitch .ok (fun x _ => switchReply x) s2)))
  ∧ Changes .buildOutSlewDone (fun x =>
      let done (q : Slot) : Slot := if q.boRate = 0 then q else { q with buildOut := 0, boRate := 0, boRest := 0 }
      (x.modSlot 0 done).modSlot 1 done)
  ∧ (∀ (e : EngId) (s : State) (o : Fin 12), InOperation s e → (s.eng e).refs.align.getLsbD o.val = false →
      exec (.outputSlewDone e o) s = .next (settled s))
  ∧ (∀ (e : EngId) (s : State) (o : Fin 12), InOperation s e → (s.eng e).refs.align.getLsbD o.val = true →
      let rest := (s.eng e).refs.align &&& ~~~(1#12 <<< o.val)
      let s1 := s.setEng e (aligned (1#12 <<< o.val) { s.eng e with refs := { (s.eng e).refs with align := rest } })
      (rest ≠ 0 → exec (.outputSlewDone e o) s = .next (settled s1))
      ∧ (rest = 0 → exec (.outputSlewDone e o) s = .next (settled (complete e .alignOutputs .ok (fun x _ => [word x.refs.aligned.toNat]) s1))))
  ∧ (∀ p : Fin 32, Changes (.asymModelRecompute · p) fun x =>
      if (formModel p.val x).asymRx p.val = x.asymRx p.val then formModel p.val x
      else (formModel p.val x).dropAnchors p.val)
  ∧ (∀ (p d : Nat) (x : Engine), d < 2 → p < 32 → ((x.dropAnchors p).ptp d p).anchors = [] ∧ ((x.dropAnchors p).ptp d p).since = x.time.now16)
  ∧ (∀ (e : EngId) (s : State), InOperation s e → (s.eng e).net.cal = none → exec (.calAsymWindowEnd e) s = .next (settled s))
  ∧ (∀ (e : EngId) (s : State) (k : CalAsym), InOperation s e → (s.eng e).net.cal = some k →
      let s1 := s.modEng e fun x => { x with net := { x.net with cal := none } }
      let mean := k.sum / k.edges
      let eps := toPs mean
      let write (x : Engine) : Engine :=
        if k.apply = true then writeTrim k.port (sat32 (((s.eng e).netPort k.port).trimPs - eps)) x else x
      let s2 := s1.modEng e write
      let s3 := match s2.standby with
        | some d => if d ≠ e ∧ s2.fof.up = true ∧ (s2.eng d).twin.copy = 2 then s2.modEng d write else s2
        | none => s2
      let s4 := match committedGen .calAsym (s.eng e) with
        | some g => if k.apply = true then settleCommit g (sat32 (((s.eng e).netPort k.port).trimPs - eps)) s3 else s3
        | none => s3
      ((k.failed = true ∨ calAsymHolds (s.eng e) k.port = false ∨ 2 * k.edges < k.windowS) →
        exec (.calAsymWindowEnd e) s = .next (settled (complete e .calAsym .state (fun _ _ => [])
          (match committedGen .calAsym (s.eng e) with
           | some g => retract e g s1
           | none => s1))))
      ∧ (k.failed = false → calAsymHolds (s.eng e) k.port = true → k.windowS ≤ 2 * k.edges →
        exec (.calAsymWindowEnd e) s = .next (settled (complete e .calAsym .ok (fun x _ =>
          [wordI (sat32 eps), wordI ((x.netPort k.port).trimPs), pack [(satN 65535 k.edges, 16), (k.rejected, 0)],
           wordI (sat32 (toPs (isqrt 64 0 ((k.sumSq / k.edges : Int) - mean * mean).toNat : Nat)))]) s4))))
  ∧ (∀ (p : Fin 32) (phi : Int), Changes (.anchorSample · p phi) fun x =>
      let give (d : Nat) (z : Engine) : Engine :=
        if (z.ptp d p.val).state = 3 ∧ z.anchored d p.val = true then
          takeSample d (40 + d) z.time.now16 (phi - (z.mpdMean d p.val).getD 0 - z.asymRx p.val + z.anchorMean d p.val) z
        else z
      if x.level p.val < 3 then x else give 1 (give 0 (x.modNetPort p.val fun n => { n with phi := phi })))
  ∧ ∀ p : Fin 32, Changes (.anchorReset · p) fun x =>
      if x.level p.val < 3 then x
      else ((x.bumpPort p.val 65).modNetPort p.val fun n => { n with phi := 0 }).modPtps p.val fun q =>
        { q with since := x.time.now16, anchors := [] }

/-- Time packets of the engine (R265, R269 to R271; fields and lengths PRESUMED, log 20): a Sync on a MASTER port, a Pdelay_Req or a
Delay_Req, an L1_SYNC; each takes the next sequenceId of its kind. Where the port may not send, nothing happens. -/
def Obligations.TimePacketSends : Prop :=
  (∀ (d : Fin 2) (p : Fin 34), Changes (.ptpSyncSend · d p) fun x =>
      if sendsPtp x d.val p.val = true ∧ (x.ptp d.val p.val).state = 2 then
        ((x.nextSeq d.val p.val 0).2.sendPtp d.val p.val 0 (x.slot d.val).twoStep 0 (x.nextSeq d.val p.val 0).1 0
          (logByte (x.slot d.val).logSync) stampZero (List.replicate 10 0))
      else x)
  ∧ (∀ (d : Fin 2) (p : Fin 34) (e : EngId) (s : State), InOperation s e → sendsPdelay (s.eng e) d.val p.val = false →
      (sendsPtp (s.eng e) d.val p.val = false ∨ ((s.eng e).ptp d.val p.val).state ≠ 3 ∨ ((s.eng e).slot d.val).p2p = true) →
      exec (.ptpDelayReqSend e d p) s = .next (s.modEng e id))
  ∧ (∀ (d : Fin 2) (p : Fin 34) (e : EngId) (s : State), InOperation s e → sendsPdelay (s.eng e) d.val p.val = true →
      exec (.ptpDelayReqSend e d p) s = .next (s.modEng e fun x =>
        let (n, y) := x.nextSeq d.val p.val 2
        (y.modPtp d.val p.val fun q => { q with preq := some { seqId := n, sent := none, delta := 0, resp := none } }).sendPtp d.val p.val 2
          false 0 n 5 0x7F stampZero (List.replicate 20 0)))
  ∧ (∀ (d : Fin 2) (p : Fin 34) (e : EngId) (s : State), InOperation s e → sendsPdelay (s.eng e) d.val p.val = false →
      sendsPtp (s.eng e) d.val p.val = true → ((s.eng e).ptp d.val p.val).state = 3 → ((s.eng e).slot d.val).p2p = false →
      exec (.ptpDelayReqSend e d p) s = .next (s.modEng e fun x =>
        let (n, y) := x.nextSeq d.val p.val 1
        let z := if (x.ptp d.val p.val).req.isSome = true then y.bumpPort p.val 64 else y
        (z.modPtp d.val p.val fun q => { q with req := some { seqId := n, sent := none, delta := 0, resp := none }, own := true }).sendPtp d.val p.val 1
          false 0 n 1 0x7F stampZero (List.replicate 10 0)))
  ∧ ∀ p : Fin 32, Changes (.l1syncSend · p) fun x =>
      let one (d : Nat) (y : Engine) : Engine :=
        if sendsPtp x d p.val = true ∧ x.level p.val = 3 ∧ (x.ptp d p.val).state ≠ 0 then
          (y.nextSeq d p.val 3).2.sendPtp d p.val 12 false 0 (y.nextSeq d p.val 3).1 5 0x7F stampZero
            (List.replicate 10 0xFF ++ [0x80, 0x01, 0x00, 0x02, 0x07, 0x07])
        else y
      one 1 (one 0 x)

/-- The frame path (R79 to R91, R126 to R181, R186 to R268 as the meanings cite them): what each of its events does to the engine. Time passes
to the event's instant before it (log 7), and the Crossing's handshakes since the last event come first (log 133). A residue copy waits for its frame's tail (log 164). -/
def Obligations.FramePathEvents : Prop :=
  (∀ (p : Fin 34) (after : Nat) (bs : List Byte) (hands : List (Fin 10 × Nat)), Does (.frameHeadReceived · p after bs hands) fun e s =>
      frameHead e p.val (interpOf after) bs ((passAfter after s).modEng e (handshakes s.part hands)))
  ∧ (∀ (e : EngId) (s : State) (p : Fin 34) (bs : List Byte) (i : Nat),
      (p.val = 32 ∨ (s.eng e).holdsQueues s.part p.val = false ∨ (findAt p.val (s.eng e).buf.arriving).isSome = true) → frameHead e p.val i bs s = s)
  ∧ (∀ (p : Fin 34) (w : Word), Does (.frameTailReceived · p w) fun e s => frameTail e p.val w s)
  ∧ (∀ (e : EngId) (s : State) (p : Fin 34) (w : Word), findAt p.val (s.eng e).buf.arriving = none → frameTail e p.val w s = s)
  ∧ (∀ (p : Fin 34) (op : BitVec 16) (v : BitVec 8) (q : Vector (BitVec 16) 8) (len : Nat), Changes (.macControlReceived · p op v q len) fun x =>
      let y := countDegraded (x.portStamp p.val 0 0) (rxCount p.val len x)
      if (y.port p.val).up = true ∧ y.follows = true then
        (macControl p.val op.toNat v (fun i => (vget q 0#16 i).toNat) y)
      else y)
  ∧ (∀ (e : EngId) (s : State), InOperation s e → takeRound (s.eng e) [] (s.eng e).buf.round = none → exec (.roundaboutPass1 e) s = .next s)
  ∧ (∀ (e : EngId) (s : State) (k : RoundEntry) (rest : List RoundEntry), InOperation s e →
      takeRound (s.eng e) [] (s.eng e).buf.round = some (k, rest) → exec (.roundaboutPass1 e) s = .next
        (({ s with freeCtr := s.freeCtr + 1 } : State).modEng e fun x =>
          admitRound (roundOne s.part e (Config.freeNat s.freeCtr) k (x.modBuf fun b => { b with round := rest }))))
  ∧ (∀ (p : Fin 34) (after : Nat) (r : TxRead),
      Does (.txOpportunity · p after r) fun e s => (passAfter after s).modEng e fun x =>
        opportunity s.part e p.val (interpOf after) r.flaws (handshakes s.part r.hands x))
  ∧ (∀ p : Fin 34, Does (.copyTransmitEnd · p) fun e s => s.modEng e (endTx s.part e p.val))
  ∧ (∀ (part : Part) (e : EngId) (p : Nat) (x : Engine), (x.eg p).tx = none → endTx part e p x = x)
  ∧ (∀ flaws : List (Nat × WordOutcome), Does (fun e => .drainFetchDone { eng := e, flaws := flaws }) fun e s => s.modEng e (drainFetch s.part flaws))
  ∧ (∀ (p : Fin 34) (c : Fin 8), Does (.mcResidueRetry · p c) fun e s => s.modEng e (retryResidue s.part e p.val c.val))
  ∧ (∀ (part : Part) (e : EngId) (p c : Nat) (x : Engine) (k : Copy) (rest : List Copy) (f : Frame),
      takeResidue p c x.buf.residue = some (k, rest) → x.frame k.frame = some f →
      retryResidue part e p c x = if x.tailDue k = false ∧ headOut part x p k.queue k.cls f.dropElig = true then
        queueCopy part e { k with charged := true } (chargeEg k f (x.setResidue rest)) else x)
  ∧ (∀ (p : Fin 34) (c : Fin 8) (e : EngId) (s : State), InOperation s e → ((s.eng e).cls c.val).lossless = true →
      exec (.mcResidueAgeExpiry e p c) s = .next s)
  ∧ (∀ (p : Fin 34) (c : Fin 8) (e : EngId) (s : State), InOperation s e → ((s.eng e).cls c.val).lossless = false →
      let aged := oldestCopy (s.eng e) (fun k => decide (k.port = p.val) && decide (k.cls = c.val)) (s.eng e).buf.residue
      (aged = none → exec (.mcResidueAgeExpiry e p c) s = .next s)
      ∧ ∀ t k, aged = some (t, k) →
        exec (.mcResidueAgeExpiry e p c) s = .next ((passTo e (t + (s.eng e).buf.residueAgeUs * us16) s).modEng e fun y =>
          discardCopy s.part e 7 k ((y.setResidue (y.buf.residue.erase k)).bumpPort p.val 37)))
  ∧ (∀ c : Fin 10, Does (.crossStall · c) fun e s => s.modEng e fun x =>
      if monitorPresent s.part c.val = true then x.raise 0x04 0x04 3 (word c.val) else x)
  ∧ (∀ (e : EngId) (s : State) (r : Fin 2), InOperation s e → ((s.eng e).sendReady r.val = false ∨ (r = 0 ∧ (s.eng e).sendReady 1 = true)) →
      exec (.hostSendFetch e r) s = .next s)
  ∧ ∀ (e : EngId) (s : State) (r : Fin 2), InOperation s e → (s.eng e).sendReady r.val = true → ¬ (r = 0 ∧ (s.eng e).sendReady 1 = true) →
      exec (.hostSendFetch e r) s = .next (judgeH0 e
        (({ s with freeCtr := s.freeCtr + 1 } : State).modEng e (sendFetch s.part e r.val (Config.freeNat s.freeCtr))))

/-- Flow control and the age limit (R218 to R232, R203 to R206): a repeated XOFF, the end of a pause, a storm, which counts once in a pause,
and its bits written 1, and the age check of every queue. -/
def Obligations.FlowControlEvents : Prop :=
  (∀ p : Fin 34, Changes (.pfcRepeat · p) (repeatXoff p.val))
  ∧ (∀ (p : Nat) (x : Engine), (x.port p).up = false → repeatXoff p x = x)
  ∧ (∀ (p : Fin 34) (i : Fin 8), Changes (.pauseTimerExpiry · p i) fun x => settlePauses p.val (x.modFc p.val fun f =>
      { f with timers := if f.mode = 1 then Vector.replicate 8 0 else vset f.timers i 0 }))
  ∧ (∀ (p : Fin 34) (c : Fin 8) (x : Engine),
      (((settlePauses p.val x).fc p.val).tripped.getLsbD c.val = ((x.fc p.val).tripped.getLsbD c.val && x.paused p.val c.val))
      ∧ ((settlePauses p.val x).fc p.val).storm = (x.fc p.val).storm)
  ∧ (∀ (p : Fin 34) (c : Fin 8), Changes (.pfcStorm · p c) fun x =>
      if x.paused p.val c.val = true ∧ (x.fc p.val).wdMs ≠ 0 ∧ (x.fc p.val).tripped.getLsbD c.val = false then
        (((x.modFc p.val fun f => { f with storm := f.storm ||| (1#8 <<< c.val), tripped := f.tripped ||| (1#8 <<< c.val) }).bumpPort p.val
          (102 + c.val)).raise 0x05 0x05 1 (pack [(p.val, 8), (c.val, 0)]))
      else x)
  ∧ (∀ (p : Fin 34) (m : Word), Changes (.stormClear · p m) fun x => x.modFc p.val fun f =>
      { f with storm := f.storm &&& ~~~(BitVec.ofNat 8 (field m 7 0)) })
  ∧ Does .ageCheck (fun e s => s.modEng e fun x =>
      let y := x.egress.queues.foldl (fun y k => ageQueue s.part e k.1 y) x
      y.buf.residue.foldl (fun y c => ageResidue s.part e c y) y)

/-- Gates, preemption, duplicates, proxies and the forwarding table (R163, R164, R173, R247, R248, R250, R251, R260, R261). A gate list whose
change time a jump has passed is taken up where device time has it (the model's choice, log 165); an aged entry that names no port gives no
record (log 161). -/
def Obligations.SchedulerAndTableTimers : Prop :=
  (∀ (e : EngId) (s : State) (p : Fin 32) (l : Gcl), InOperation s e → ((s.eng e).eg p.val).oper = some l →
      let g := (s.eng e).eg p.val
      let n := gclNext l g.entry g.cycleStart
      ((∀ k, g.commit = some k → n.1 < k.ct) → exec (.gclEntryChange e p) s = .next
        ((passTo e n.1 s).modEng e fun x => judgeOverrun p.val g.gates (enterGcl p.val (par l.entries n.2.1)
          (x.modEgPort p.val fun g => { g with entry := n.2.1, cycleStart := n.2.2 }))))
      ∧ ∀ k, g.commit = some k → k.ct ≤ n.1 → exec (.gclEntryChange e p) s = .next s)
  ∧ (∀ (e : EngId) (s : State) (p : Fin 32), InOperation s e → ((s.eng e).eg p.val).oper = none → exec (.gclEntryChange e p) s = .next s)
  ∧ (∀ (p : Fin 32) (w : Word) (x : Engine),
      let g := x.eg p.val
      let h := (enterGcl p.val w x).eg p.val
      let active := g.preempt.enable && g.preempt.state == 2
      h.gates = gclGates w ∧ (active = false ∨ (gclOp w ≠ 1 ∧ gclOp w ≠ 2) → h.hold = g.hold)
      ∧ (active = true → gclOp w = 1 → h.hold = true) ∧ (active = true → gclOp w = 2 → h.hold = false))
  ∧ (∀ (e : EngId) (s : State) (p : Fin 32) (k : GclCommit), InOperation s e → ((s.eng e).eg p.val).commit = some k →
      exec (.gclChangeTime e p) s = .next ((passTo e k.ct s).modEng e fun x =>
        let y := x.modEgPort p.val fun g =>
          { g with oper := k.list, commit := none, entry := 0, cycleStart := k.ct, gates := 0xFF }
        match k.list with
        | some l =>
          let z := judgeOverrun p.val ((s.eng e).eg p.val).gates (enterGcl p.val (par l.entries 0) y)
          if k.ct < (s.eng e).time.now16 then gclResync p.val z else z
        | none => y))
  ∧ (∀ (e : EngId) (s : State) (p : Fin 32), InOperation s e → ((s.eng e).eg p.val).commit = none → exec (.gclChangeTime e p) s = .next s)
  ∧ (∀ p : Fin 32, Changes (.preemptVerifyTimer · p) fun x =>
      let k := (x.eg p.val).preempt
      if ¬ (x.core.role = 1 ∧ k.enable = true ∧ k.verify = true ∧ k.state = 1 ∧ (x.port p.val).up = true) then x
      else if k.tries < 3 then (x.modEgPort p.val fun g => { g with preempt := { g.preempt with tries := g.preempt.tries + 1 } })
      else (((x.modEgPort p.val fun g => { g with preempt := { g.preempt with state := 3 } }).bumpPort p.val 49).raise 0x06 0x02 0
        (word p.val)))
  ∧ (∀ p : Fin 32, Changes (.preemptVerifyResponse · p) fun x =>
      let k := (x.eg p.val).preempt
      if x.core.role = 1 ∧ k.enable = true ∧ k.verify = true ∧ k.state = 1 ∧ (x.port p.val).up = true then
        (x.modEgPort p.val fun g => { g with preempt := { g.preempt with state := 2 } })
      else x)
  ∧ (∀ (e : EngId) (s : State), InOperation s e → (s.eng e).egress.dups = [] → exec (.dupForget e) s = .next s)
  ∧ (∀ (e : EngId) (s : State) (t : Nat) (rest : List Nat), InOperation s e →
      (s.eng e).egress.dups.map (fun k => k.at_ + forgetTime (s.eng e) k.pair) = t :: rest →
      exec (.dupForget e) s = .next ((passTo e (rest.foldl min t) s).modEng e fun x => { x with egress := { x.egress with
        dups := x.egress.dups.filter fun k => decide (x.time.now16 < k.at_ + forgetTime x k.pair) } }))
  ∧ (∀ (e : EngId) (s : State), InOperation s e → (s.eng e).egress.proxies = [] → exec (.proxyAge e) s = .next s)
  ∧ (∀ (e : EngId) (s : State) (t : Nat) (rest : List Nat), InOperation s e →
      (s.eng e).egress.proxies.map (fun k => k.used + 60 * s16) = t :: rest →
      exec (.proxyAge e) s = .next ((passTo e (rest.foldl min t) s).modEng e fun x => { x with egress := { x.egress with
        proxies := x.egress.proxies.filter fun k => decide (x.time.now16 < k.used + 60 * s16) } }))
  ∧ Does .fdbAgeSweep (fun e s => s.modEng e fun x =>
      if x.rules.ageS = 0 ∨ x.core.role ≠ 1 then x
      else ((agedOut x.rules.fdb).foldl (fun y k =>
        if k.2.kind = 0 then notifyLearn e k.2.dest 3 k.1 ((y.bump 48).noteChange k.1 none) else (y.bump 48).noteChange k.1 none) (x.modFdb afterSweep)))
  ∧ (∀ (e : EngId) (s : State), InOperation s e → (s.eng e).rules.flip = none → exec (.flipAt e) s = .next s)
  ∧ (∀ (e : EngId) (s : State) (t : Nat), InOperation s e → (s.eng e).rules.flip = some t →
      exec (.flipAt e) s = .next ((passTo e t s).modEng e flipBank))
  ∧ (∀ (x : Engine) (t : Nat), x.rules.flip = some t → (flipBank x).rules.epoch = (x.rules.epoch + 1) % 65536
      ∧ (flipBank x).rules.liveB = !x.rules.liveB ∧ (flipBank x).rules.flip = none
      ∧ (flipBank x).rules.drain = some { epoch := x.rules.epoch, bankB := x.rules.liveB, flipAt := t })
  ∧ (∀ (e : EngId) (s : State), InOperation s e → (s.eng e).rules.drain = none → exec (.drainEnd e) s = .next (settled s))
  ∧ ∀ (e : EngId) (s : State) (d : Drain), InOperation s e → (s.eng e).rules.drain = some d →
      exec (.drainEnd e) s = .next (settled
        (let n := ((s.eng e).roundOf d.epoch).length + ((s.eng e).arrivingOf d.epoch).length
         let s1 := if n = 0 then s else (passTo e (d.flipAt + 4 * us16) s).modEng e (drainDiscard s.part e d.epoch)
         complete e .drainEnd .ok (fun x _ =>
           [pack [(x.rules.epoch, 16), (d.epoch, 0)]] ++ stampWords { t := d.flipAt, qual := 0 }
             ++ [pack [(satN 65535 n, 16), (satN 4000 ((x.time.now16 - d.flipAt) / ns16), 0)]])
           (s1.modEng e (modRules fun r => { r with drain := none }))))

/-- Ports up and down (R103 to R111, R116): every event of a port's life, on a port that the part has. -/
def Obligations.PortLifeEvents : Prop :=
  (∀ (p : Fin 34) (c : DownCause), Does (.portDown · p c) fun e s =>
      if portFitted s.part p.val = true then portDown e p.val c s else s)
  ∧ (∀ (h1 : Bool) (c : DownCause), Does (.hostPortDown · h1 c) fun e s => portDown e (if h1 then 33 else 32) c s)
  ∧ (∀ p : Fin 34, Does (.portUpCondition · p) fun e s =>
      if ((s.eng e).port p.val).up = true ∨ portFitted s.part p.val = false then s
      else settle e p.val (s.modEng e fun x => if p.val = 32 then x else x.modPort p.val fun q =>
        { q with signal := true, lock := true, aligned := true, remote := false, hiBer := false }))
  ∧ (∀ p : Fin 34, Does (.portUp · p) fun e s => if ((s.eng e).port p.val).debounce = true then goUp e p.val s else s)
  ∧ (∀ h1 : Bool, Does (.hostPortUp · h1) fun e s =>
      if ((s.eng e).port (if h1 then 33 else 32)).debounce = true then goUp e (if h1 then 33 else 32) s else s)
  ∧ (Does (.hostLinkReturn · true) fun e s =>
      settle e 33 (s.modEng e fun x => x.modPort 33 fun q => { q with signal := true, lock := true, unsupported := false }))
  ∧ (Does (.hostLinkReturn · false) fun e s =>
      settle e 32 (s.modEng e fun x => { x with host := { x.host with pcieUp := true } }))
  ∧ (∀ p : Fin 34, Does (.holdExpiry · p) fun e s =>
      if ((s.eng e).port p.val).holding = true then
        ((passTo e (((s.eng e).port p.val).holdStart + ((s.eng e).port p.val).holdUs * us16) s).modEng e (expireHold s.part e p.val))
      else s)
  ∧ (∀ (e : EngId) (s : State) (p : Fin 34) (c : PcsCond) (met : Bool), InOperation s e →
      (((s.eng e).port p.val).up = true ∨ p.val = 32 ∨ portFitted s.part p.val = false) →
      exec (.blockLockChange e p c met) s = .next s)
  ∧ (∀ (e : EngId) (s : State) (p : Fin 34) (c : PcsCond), InOperation s e → ((s.eng e).port p.val).up = false → p.val ≠ 32 →
      portFitted s.part p.val = true → ∀ met : Bool, exec (.blockLockChange e p c met) s = .next
        (settle e p.val (s.modEng e fun x => x.modPort p.val fun q =>
          if p.val < 32 then reExchange (setCond c met q) else setCond c met q)))
  ∧ (∀ m : Word, Changes (.portLinkChgClear · m) fun x =>
      (List.range 32).foldl (fun y p => if flag m p = true then (y.modPort p fun q => { q with chg := false }) else y) x)
  ∧ ∀ m : Word, Changes (.hostLinkChgClear · m) fun x =>
      let y := if flag m 2 = true then (x.modPort 32 fun q => { q with chg := false }) else x
      if flag m 3 = true then (y.modPort 33 fun q => { q with chg := false }) else y

/-- Negotiation and Ahnud (R102 to R105, R118 to R124). -/
def Obligations.NegotiationEvents : Prop :=
  (∀ (p : Fin 34) (partner : AnPartner) (pause : Bool), Changes (.anResolved · p partner pause) fun x =>
      match resolvedMode (x.port p.val) partner with
      | some m =>
        if p.val < 32 ∧ (x.port p.val).up = false ∧ (x.port p.val).anState = 1 then
          (judgePause p.val pause (enterCoding p.val (x.modPort p.val fun q =>
            { q with modeNow := m, fecNow := fecOf m, anState := 2, cause := 7 })))
        else x
      | none => x)
  ∧ (∀ p : Fin 34, Changes (.anFailure · p) fun x =>
      let q := x.port p.val
      if p.val < 32 ∧ q.up = false ∧ (q.mode ≠ 13 ∨ q.modeNow = 1) ∧ (q.anState = 1 ∨ q.cause = 7) then
        (x.modPort p.val fun q => { q with anState := 3, cause := 8, debounce := false })
      else x)
  ∧ (∀ p : Fin 34, Changes (.anRestart · p) fun x =>
      if p.val < 32 ∧ (x.port p.val).anState = 3 ∧ (x.port p.val).up = false then restartAn p.val x else x)
  ∧ (∀ (p : Fin 34) (e : EngId) (s : State) (locked : Bool), InOperation s e →
      (32 ≤ p.val ∨ ((s.eng e).port p.val).up = true ∨ ((s.eng e).port p.val).mode ≠ 13) →
      exec (.parallelDetectStep e p locked) s = .next s)
  ∧ (∀ (p : Fin 34) (e : EngId) (s : State) (locked : Bool), InOperation s e →
      (((s.eng e).port p.val).modeNow ≠ 13 ∨ candidates ((s.eng e).port p.val) = []) → exec (.parallelDetectStep e p locked) s = .next s)
  ∧ (∀ (p : Fin 34) (e : EngId) (s : State), InOperation s e → p.val < 32 → ((s.eng e).port p.val).up = false →
      ((s.eng e).port p.val).mode = 13 → ((s.eng e).port p.val).modeNow = 13 → candidates ((s.eng e).port p.val) ≠ [] →
      exec (.parallelDetectStep e p false) s = .next (s.modEng e fun x => x.modPort p.val fun q =>
        { q with candidate := (q.candidate + 1) % (candidates ((s.eng e).port p.val)).length, cause := 7 })
      ∧ exec (.parallelDetectStep e p true) s = .next (settle e p.val (s.modEng e fun x => enterCoding p.val (x.modPort p.val fun q =>
        let m := (candidates ((s.eng e).port p.val)).getD ((s.eng e).port p.val).candidate 1
        { q with modeNow := m, fecNow := fecOf m, signal := true, lock := true, anState := if m = 1 then 1 else 0, cause := 2 }))))
  ∧ (∀ (p : Fin 34) (sup pause : Bool), Does (.linkTrainingComplete · p sup pause) fun e s =>
      let q := (s.eng e).port p.val
      if 32 ≤ p.val ∨ q.up = true ∨ q.mode = 0 ∨ 10 < q.modeNow ∨ q.anState = 3 ∨
          (wordExchange q = false ∧ q.anState ≠ 1 ∧ q.cause ≠ 7 ∧ q.unsupported = false) then s
      else settle e p.val (s.modEng e fun x =>
        (if q.modeNow = 1 ∧ wordExchange q = true then judgePause p.val pause x else x).modPort p.val fun q =>
          { q with anState := if q.anState = 1 then 2 else q.anState, unsupported := !sup, cause := 2 }))
  ∧ (∀ (p : Fin 32) (bs : List Byte) (w : Word), Does (.ahnudFrameReceived · p bs w) fun e s =>
      ahnudFrame e p.val bs (decide (w = ethCrc bs)) (s.modEng e fun x =>
        let y := rxCount p.val (bs.length + 4) x
        if w = ethCrc bs then y else if w = ethCrc bs ^^^ 0x53544F4D#32 then y.bumpPort p.val 34 else y.bumpPort p.val 35))
  ∧ (∀ p : Fin 32, Changes (.ahnudOfferTimer · p) fun x =>
      if ahnudOn x p.val = true ∧ ((x.port p.val).ahnud.state = 1 ∨ (x.port p.val).ahnud.state = 3) then sendAhnud p.val 1 0 x else x)
  ∧ (∀ p : Fin 32, Changes (.ahnudKeepTimer · p) fun x =>
      if ahnudOn x p.val = true ∧ (x.port p.val).ahnud.state = 2 then sendAhnud p.val 3 (x.port p.val).ahnud.level x else x)
  ∧ (∀ p : Fin 32, Does (.ahnudAnegWait · p) fun e s => s.modEng e fun x =>
      if ahnudOn x p.val = true ∧ (x.port p.val).ahnud.state = 1 ∧ (x.port p.val).ahnud.heard = false then
        (enterFallback e p.val (fallbackLevel x p.val) x)
      else x)
  ∧ ∀ p : Fin 32, Does (.ahnudPartnerTimeout · p) fun e s => s.modEng e fun x =>
      if ahnudOn x p.val = true ∧ (x.port p.val).ahnud.state = 2 then
        (enterFallback e p.val (min (fallbackLevel x p.val) (x.port p.val).ahnud.level) x)
      else x

/-- Faults (R354 to R368, R375, R356, R214 to R216, R365): the collector takes the first message of the ring; windows end in their reaction;
resets report ready or overdue; the checker's own faults are F4; the scrubbers. -/
def Obligations.FaultEvents : Prop :=
  (∀ (e : EngId) (s : State) (m : FaultMsg), InOperation s e → ringFirst ((s.eng e).fault.ring ++ (s.eng e).fault.slots) = some m →
      exec (.faultMessageArrival e) s = .next (settled (collect e m (s.modEng e fun x => { x with fault := takeMsg m x.fault }))))
  ∧ (∀ (e : EngId) (s : State), InOperation s e → (s.eng e).fault.ring = [] → (s.eng e).fault.slots = [] →
      exec (.faultMessageArrival e) s = .next (settled s))
  ∧ (∀ (e : EngId) (s : State) (src k : Byte) (inj : Bool) (w : FaultWindow), InOperation s e →
      (s.eng e).fault.windows.find? (fun w => w.msg.cls = 2 && w.msg.source == src && w.msg.kind == k && w.msg.inj == inj) = some w →
      exec (.f2WindowEnd e src k inj) s = .next (settled (reactF2 e w.msg (s.modEng e (closeWindow w.msg)))))
  ∧ (∀ (e : EngId) (s : State) (inj : Bool) (w : FaultWindow), InOperation s e →
      (s.eng e).fault.windows.find? (fun w => w.msg.cls = 3 && w.msg.inj == inj) = some w →
      exec (.f3WindowEnd e inj) s = .next (settled (reactF3 e w.msg (s.modEng e (closeWindow w.msg)))))
  ∧ (∀ (e : EngId) (s : State) (src k : Byte) (inj : Bool), InOperation s e → (s.eng e).fault.windows = [] →
      exec (.f2WindowEnd e src k inj) s = .next (settled s) ∧ exec (.f3WindowEnd e inj) s = .next (settled s))
  ∧ (∀ b : BlockReset, Changes (.blockResetReady · b) (endReset b))
  ∧ (∀ b : BlockReset, DoesThenSettles (.blockResetOverdue · b) fun e s => s.modEng e (overdueReset s.part b))
  ∧ DoesThenSettles .collectorCheck (fun e s => checkerFault e 1 s)
  ∧ DoesThenSettles .ringWatchdog (fun e s => checkerFault e 2 s)
  ∧ Changes .fwWatchdog (fun x => if x.running = true ∧ x.fw.running ≠ none then x.raise 0x0B 0x01 3 0 else x)
  ∧ Changes .firstValidClear (fun x => { x with fault := { x.fault with first := clearLatch x.fault.frozen x.fault.first } })
  ∧ Changes .injValidClear (fun x => { x with fault := { x.fault with firstInj := clearLatch x.fault.frozen x.fault.firstInj } })
  ∧ (∀ (b : Bool) (l : FaultLatch), (clearLatch b l).valid = false ∧ (clearLatch b l).ovf = false ∧ clearLatch false l = latchReset)
  ∧ (∀ (st : Store) (n : Nat) (o : WordOutcome) (late : Bool), Does (.bufferScrub · st n o late) fun e s => s.modEng e fun x0 =>
      let x := if late = true then x0.bump 68 else x0
      match st with
      | .arcade => if n < arcadeWords ∧ x.underTest n = false then scrubWord n o x else x
      | .dram => if underpassPart s.part = true ∧ n < 134217728 ∧ x.underTest (arcadeWords + n) = false then scrubWord (arcadeWords + n) o x else x
      | .descriptors => if o = .threeBits then x.raise 0x05 0x07 3 (word n) else x)
  ∧ ∀ (t : TableId) (i : Nat), (Changes (.tableScrub · t i true) fun x => x.raise 0x03 0x01 1 0)
      ∧ Does (.tableScrub · t i false) fun e s => s.modEng e (tableUncorrectable s.part t i)

/-- Continuous calibration, trims, temperature and the repair pass (R382, R385, R387, R389, R392, R394). -/
def Obligations.CalibrationEvents : Prop :=
  (∀ (k : Fin 7) (i : Nat), Does (.calDue · k i) fun e s => s.modEng e fun x =>
      if pathPresent s.part k.val i = true ∧ (x.path k.val i).due = false ∧ kindEnabled x k.val = true then
        (x.modPath k.val i fun k => { k with due := true, probes := 0, sum := 0, sumSq := 0 })
      else x)
  ∧ (∀ (e : EngId) (s : State) (k : Fin 7) (i : Nat) (v : Int), InOperation s e →
      exec (.calProbe e k i false v) s = .next (settled s)
      ∧ (pathPresent s.part k.val i = true → ((s.eng e).path k.val i).due = true → kindEnabled (s.eng e) k.val = true →
          suspendedPath (s.eng e) k.val i = false →
          exec (.calProbe e k i true v) s = .next (settled
            (let y := (s.eng e).modPath k.val i fun q =>
               { q with probes := q.probes + 1, sum := q.sum + v, sumSq := q.sumSq + v.natAbs * v.natAbs,
                        narrow := if q.probes = 0 then v.toNat else min q.narrow v.toNat }
             if probesOf k.val ≤ (y.path k.val i).probes then answerRun e k i true (s.setEng e (completeCal k.val i y))
             else s.setEng e y))))
  ∧ (∀ (e : EngId) (s : State) (k : Fin 7) (i : Nat), InOperation s e → ((s.eng e).path k.val i).due = false →
      exec (.calStarve e k i) s = .next (settled s))
  ∧ (∀ (e : EngId) (s : State) (k : Fin 7) (i : Nat), InOperation s e → pathPresent s.part k.val i = true →
      ((s.eng e).path k.val i).due = true → kindEnabled (s.eng e) k.val = true → suspendedPath (s.eng e) k.val i = false →
      exec (.calStarve e k i) s = .next (settled
        (let y := (s.eng e).modPath k.val i fun q =>
           { q with probes := 0, sum := 0, sumSq := 0, deferred := satN (2 ^ 32 - 1) (q.deferred + 1), starved := true }
         answerRun e k i false (s.setEng e (if ((s.eng e).path k.val i).starved = true then y
           else y.raise 0x0D 0x01 1 (pack [(k.val, 8), (i, 0)]))))))
  ∧ Changes .trimStep (fun x =>
      let one (q : Nat × CalPath) : Nat × CalPath := if kindEnabled x (q.1 / 64) = true then (q.1, stepTrim q.2) else q
      { x with cal := { x.cal with paths := x.cal.paths.map one } })
  ∧ (∀ r : Int, Changes (.dieTempRead · r) fun x => { x with cal := { x.cal with temps := (r :: x.cal.temps).take 16 } })
  ∧ (∀ (e : EngId) (s : State), InOperation s e → (s.eng e).cal.repairing = false → exec (.repairPassEnd e) s = .next (settled s))
  ∧ ∀ (e : EngId) (s : State), InOperation s e → (s.eng e).cal.repairing = true →
      exec (.repairPassEnd e) s = .next (settled (complete e .repair .ok
        (repairReply ((s.eng e).buf.retired.length - (repairPass s.freeCtr (s.eng e)).buf.retired.length))
        (({ s with freeCtr := s.freeCtr + (testedCells (s.eng e)).length } : State).setEng e
          (endReset .repairPass (repairPass s.freeCtr (s.eng e))))))

/-- Snapshots and samples (R404, R405, R410): a snapshot at the next multiple of its period, its writing, and the move of the sample
buffer to its ring. -/
def Obligations.SnapshotAndSampleEvents : Prop :=
  (∀ (e : EngId) (s : State), InOperation s e → (s.eng e).stats.snapPeriodMs = 0 → exec (.snapshotInstant e) s = .next s)
  ∧ (∀ (e : EngId) (s : State), InOperation s e → (s.eng e).stats.snapPeriodMs ≠ 0 → exec (.snapshotInstant e) s = .next
      ((passTo e (s.eng e).snapInstant s).modEng e (periodicSnapshot (s.eng e).snapInstant)))
  ∧ (∀ (x : Engine) (n : Nat), 0 < x.stats.snapPeriodMs → (periodicSnapshot x.snapInstant x).snapInstant ≠ x.snapInstant)
  ∧ (∀ (x : Engine) (b : Bool), (takeSnapshot b x).stats.snapSeq = (x.stats.snapSeq + 1) % 2 ^ 32)
  ∧ (Does .snapshotWritten fun e s => s.modEng e (writeSnapshot s.part e))
  ∧ Does .sampleRecordMove fun e s => s.modEng e (moveSamples s.part e)

/-- The host interface (R16 to R18, R79, R411 to R417, R429 to R441, R444, R445, R490): rings, mailbox, management frames, SPI, the PCIe link,
interrupt bits and registers read or cleared; the word of channel 3 shows the supervisor's counts (the model's choice, log 34). -/
def Obligations.HostInterfaceEvents : Prop :=
  (∀ r : Fin 8, DoesThenSettles (.ringRecordDelivery · r) fun e s => judgeH0 e (s.modEng e (deliverRecord e r.val)))
  ∧ (∀ (r : Fin 8) (i : Word) (d : List Desc), DoesThenSettles (.ringDoorbellWrite · r i d) fun e s =>
      judgeH0 e (s.modEng e (doorbell r.val i d)))
  ∧ (∀ (r : Fin 8) (i : Word) (d : List Desc) (x : Engine), (x.ring r.val).enabled = true → x.host.pcieUp = true →
      let n := (i - (x.ring r.val).engineIdx).toNat
      ((doorbell r.val i d x).ring r.val).hostIdx = i
      ∧ ((x.ring r.val).stopped = false → n ≤ 2 ^ (x.ring r.val).sizeLog2 →
        ((doorbell r.val i d x).ring r.val).posted = ((x.ring r.val).posted ++ d).take n)
      ∧ ((x.ring r.val).stopped = false → 2 ^ (x.ring r.val).sizeLog2 < n →
        ((doorbell r.val i d x).ring r.val).stopped = true ∧ ((doorbell r.val i d x).ring r.val).err = 1))
  ∧ (∀ (o : Nat) (bs : List Byte), Changes (.mboxCmdWrite · o bs) fun x =>
      { x with host := { x.host with mbox := { x.host.mbox with cmd := Memory.writes x.host.mbox.cmd o (bs.take (1024 - o)) } } })
  ∧ (∀ n : Word, DoesThenSettles (.mboxDoorbellWrite · n) fun e s => mboxDoorbell e n s)
  ∧ Changes .mboxReadyClear (fun x => { x with host := { x.host with mbox := { x.host.mbox with ready := false } } })
  ∧ (∀ (bs : List Byte) (w : Word), DoesThenSettles (.mgmtFrameReceived · bs w) fun e s => mgmtFrame e bs w s)
  ∧ DoesThenSettles .pcieLinkDown (fun e s => s.modEng e (pcieDown s.part e))
  ∧ DoesThenSettles .pciePerst (fun e s => s.modEng e (pcieDown s.part e))
  ∧ (∀ b : Fin 6, Changes (.irqModerationExpiry · b) fun x =>
      if x.host.irq.running.getLsbD b.val = true then { x with host := { x.host with irq := endModeration b.val x.host.irq } } else x)
  ∧ (∀ m : Word, Changes (.irqStatusClear · m) fun x => { x with host := { x.host with irq := clearIrq m x.host.irq } })
  ∧ (∀ r : Fin 8, Changes (.ringStatRead · r) fun x => x.modRing r.val fun q => { q with drops := 0 })
  ∧ (∀ c : Fin 4, c.val ≠ 3 → Changes (.channelStatRead · c) fun x =>
      { x with host := { x.host with stats := vmodN x.host.stats c.val fun _ => { badFraming := 0, tagDup := 0, crcErr := 0 } } })
  ∧ (∀ c : Fin 4, c.val = 3 → Does (.channelStatRead · c) fun _ s =>
      { s with sup := { s.sup with spi := { s.sup.spi with badFraming := 0, tagDup := 0, crcErr := 0 } } })
  ∧ (∀ (e : EngId) (o : Nat) (v : Word) (s : State), exec (.registerWriteIgnored e o v) s = .next s)
  ∧ (∀ (s : State) (bs : List Byte) (c : Bool), exec (.spiWritePacket bs c) s = .next (settled (spiPacket bs c s)))
  ∧ (∀ s : State, spiServes s = true →
      exec .spiReadStatus s = .next { s with sup := { s.sup with spi := { s.sup.spi with lastRefused := false, framing := false } } }
      ∧ exec .spiUnknownInstruction s = .next { s with sup := { s.sup with spi := { s.sup.spi with framing := true } } }
      ∧ exec (.spiReadReply false) s = .next (settled s)
      ∧ exec (.spiReadReply true) s = .next (settled { s with sup := { s.sup with spi := popReply s.sup.spi } }))
  ∧ ∀ (s : State) (whole : Bool), spiServes s = false →
      exec .spiReadStatus s = .next s ∧ exec .spiUnknownInstruction s = .next s ∧ exec (.spiReadReply whole) s = .next (settled s)

/-- Firmware sessions, restarts and fuse burns (R461, R463, R466): on every unit that the part has. -/
def Obligations.FirmwareEvents : Prop :=
  (∀ (s : State) (u : UnitId), unitFitted s.part u = true → (unitFw u s).session = none → exec (.fwSessionTimeout u) s = .next s)
  ∧ (∀ (s : State) (u : UnitId) (q : FwSession), unitFitted s.part u = true → (unitFw u s).session = some q →
      exec (.fwSessionTimeout u) s = .next (modFw u (fun f => { f with session := none })
        (modSlot u q.slot (fun k => if k.state = 1 then { k with state := 2 } else k) s)))
  ∧ (∀ (s : State) (e : EngId) (m : Bool), engFitted s.part e = true → (unitFw (.eng e) s).restart = some m →
      exec (.fwRestartExecute (.eng e)) s = .next (settled (restartEngine e m s)))
  ∧ (∀ (s : State) (m : Bool), (unitFw .sup s).restart = some m → exec (.fwRestartExecute .sup) s = .next (settled (restartSup s)))
  ∧ (∀ (s : State) (u : UnitId), unitFitted s.part u = true → (unitFw u s).restart = none →
      exec (.fwRestartExecute u) s = .next (settled s))
  ∧ (∀ (s : State) (u : UnitId), unitFitted s.part u = true → (unitFw u s).burn = none → exec (.fuseBurnDone u) s = .next (settled s))
  ∧ (∀ (s : State) (e : EngId) (svn : Nat) (keys : BitVec 4), engFitted s.part e = true → (unitFw (.eng e) s).burn = some (svn, keys) →
      exec (.fuseBurnDone (.eng e)) s = .next (settled (complete e .fuseBurn .ok (fun _ _ => [])
        (modFw (.eng e) (fun f => { f with svnFuse := svn, revoked := f.revoked ||| keys, burn := none }) s))))
  ∧ ∀ (s : State) (svn : Nat) (keys : BitVec 4), (unitFw .sup s).burn = some (svn, keys) →
      exec (.fuseBurnDone .sup) s = .next (settled (completeSup .fuseBurn .ok []
        (modFw .sup (fun f => { f with svnFuse := svn, revoked := f.revoked ||| keys, burn := none }) s)))
end

