-- ==== Sys2Proof/Laws/State.lean ====
section
/-! SUPPORT. The state as data: one lemma for every field under every update, and what an event of one engine or of the twins
can do. -/

namespace Sys2Proof.Machine

@[simp] theorem setEng_part (s : State) (e : EngId) (x : Engine) : (s.setEng e x).part = s.part := by cases e <;> rfl
@[simp] theorem modEng_part (s : State) (e : EngId) (f : Engine → Engine) : (s.modEng e f).part = s.part := by cases e <;> rfl
@[simp] theorem modBoth_part (s : State) (f : Engine → Engine) : (s.modBoth f).part = s.part := by simp [State.modBoth]
@[simp] theorem setEng_ticks (s : State) (e : EngId) (x : Engine) : (s.setEng e x).ticks = s.ticks := by cases e <;> rfl
@[simp] theorem modEng_ticks (s : State) (e : EngId) (f : Engine → Engine) : (s.modEng e f).ticks = s.ticks := by cases e <;> rfl
@[simp] theorem modBoth_ticks (s : State) (f : Engine → Engine) : (s.modBoth f).ticks = s.ticks := by simp [State.modBoth]
@[simp] theorem setEng_power (s : State) (e : EngId) (x : Engine) : (s.setEng e x).power = s.power := by cases e <;> rfl
@[simp] theorem modEng_power (s : State) (e : EngId) (f : Engine → Engine) : (s.modEng e f).power = s.power := by cases e <;> rfl
@[simp] theorem modBoth_power (s : State) (f : Engine → Engine) : (s.modBoth f).power = s.power := by simp [State.modBoth]
@[simp] theorem setEng_sup (s : State) (e : EngId) (x : Engine) : (s.setEng e x).sup = s.sup := by cases e <;> rfl
@[simp] theorem modEng_sup (s : State) (e : EngId) (f : Engine → Engine) : (s.modEng e f).sup = s.sup := by cases e <;> rfl
@[simp] theorem modBoth_sup (s : State) (f : Engine → Engine) : (s.modBoth f).sup = s.sup := by simp [State.modBoth]
@[simp] theorem setEng_fof (s : State) (e : EngId) (x : Engine) : (s.setEng e x).fof = s.fof := by cases e <;> rfl
@[simp] theorem modEng_fof (s : State) (e : EngId) (f : Engine → Engine) : (s.modEng e f).fof = s.fof := by cases e <;> rfl
@[simp] theorem modBoth_fof (s : State) (f : Engine → Engine) : (s.modBoth f).fof = s.fof := by simp [State.modBoth]
@[simp] theorem setEng_flash (s : State) (e : EngId) (x : Engine) : (s.setEng e x).flash = s.flash := by cases e <;> rfl
@[simp] theorem modEng_flash (s : State) (e : EngId) (f : Engine → Engine) : (s.modEng e f).flash = s.flash := by cases e <;> rfl
@[simp] theorem modBoth_flash (s : State) (f : Engine → Engine) : (s.modBoth f).flash = s.flash := by simp [State.modBoth]
@[simp] theorem setEng_freeCtr (s : State) (e : EngId) (x : Engine) : (s.setEng e x).freeCtr = s.freeCtr := by cases e <;> rfl
@[simp] theorem modEng_freeCtr (s : State) (e : EngId) (f : Engine → Engine) : (s.modEng e f).freeCtr = s.freeCtr := by cases e <;> rfl
@[simp] theorem modBoth_freeCtr (s : State) (f : Engine → Engine) : (s.modBoth f).freeCtr = s.freeCtr := by simp [State.modBoth]
@[simp] theorem setEng_pending (s : State) (e : EngId) (x : Engine) : (s.setEng e x).pending = s.pending := by cases e <;> rfl
@[simp] theorem modEng_pending (s : State) (e : EngId) (f : Engine → Engine) : (s.modEng e f).pending = s.pending := by cases e <;> rfl
@[simp] theorem modBoth_pending (s : State) (f : Engine → Engine) : (s.modBoth f).pending = s.pending := by simp [State.modBoth]

/-! ## Reading an engine -/

@[simp] theorem eng_a (s : State) : s.eng .a = s.engA := rfl
@[simp] theorem eng_b (s : State) : s.eng .b = s.engB := rfl
@[simp] theorem setEng_eng (s : State) (e : EngId) (x : Engine) : (s.setEng e x).eng e = x := by cases e <;> rfl
@[simp] theorem setEng_eng_other (s : State) (e : EngId) (x : Engine) : (s.setEng e x).eng (other e) = s.eng (other e) := by
  cases e <;> rfl
@[simp] theorem modEng_eng (s : State) (e : EngId) (f : Engine → Engine) : (s.modEng e f).eng e = f (s.eng e) := by simp [State.modEng]
@[simp] theorem modEng_eng_other (s : State) (e : EngId) (f : Engine → Engine) : (s.modEng e f).eng (other e) = s.eng (other e) := by
  simp [State.modEng]
@[simp] theorem modBoth_eng (s : State) (e : EngId) (f : Engine → Engine) : (s.modBoth f).eng e = f (s.eng e) := by cases e <;> rfl
@[simp] theorem setEng_setEng (s : State) (e : EngId) (x y : Engine) : (s.setEng e x).setEng e y = s.setEng e y := by cases e <;> rfl
@[simp] theorem setEng_self (s : State) (e : EngId) : s.setEng e (s.eng e) = s := by cases e <;> rfl
@[simp] theorem eng_mk (p : Part) (t : Nat) (pw : PowerState) (su : SupState) (fo : FofState) (fl : Vector FwSlot 2) (s : State)
    (fc : Nat) (pe : List Instr) (e : EngId) : (State.mk p t pw su fo fl s.engA s.engB fc pe).eng e = s.eng e := by cases e <;> rfl

/-! ## Events of an engine, of the twins and of the SPI port -/

/-- An event inside an engine that the part has and that is in operation is its effect. -/
theorem onEngine_awake {e : EngId} {s : State} (hf : engFitted s.part e = true) (ha : (s.eng e).awake = true) (f : State → State) :
    onEngine e s f = .next (f s) := by simp [onEngine, hf, ha]

/-- An event inside an engine that has no power or is held in reset has no effect. -/
theorem onEngine_asleep {e : EngId} {s : State} (hf : engFitted s.part e = true) (ha : (s.eng e).awake = false) (f : State → State) :
    onEngine e s f = .next s := by simp [onEngine, hf, ha]

/-- An event inside an engine that the part does not have is refused. -/
theorem onEngine_absent {e : EngId} {s : State} (hf : engFitted s.part e = false) (f : State → State) :
    onEngine e s f = .refused .noSuchUnit := by simp [onEngine, hf]

/-- Everything that an event inside an engine can do. -/
theorem onEngine_next {e : EngId} {s t : State} {f : State → State} (h : onEngine e s f = .next t) :
    engFitted s.part e = true ∧ (((s.eng e).awake = true ∧ t = f s) ∨ ((s.eng e).awake = false ∧ t = s)) := by
  unfold onEngine at h
  split at h
  · split at h
    · exact ⟨‹_›, .inl ⟨‹_›, (Host.Outcome.next.inj h).symm⟩⟩
    · exact ⟨‹_›, .inr ⟨eq_false_of_ne_true ‹_›, (Host.Outcome.next.inj h).symm⟩⟩
  · exact absurd h (by simp)

/-- An event between the twins is its effect on a part that has them. -/
theorem onTwin_twin {s : State} (h : twinPart s.part = true) (f : State → State) : onTwin s f = .next (f s) := by simp [onTwin, h]

/-- It is refused on a part that does not. -/
theorem onTwin_single {s : State} (h : twinPart s.part = false) (f : State → State) : onTwin s f = .refused .noSuchUnit := by
  simp [onTwin, h]

end Sys2Proof.Machine
end

