-- ==== Sys2Proof/Laws/Core.lean ====
section
/-! SUPPORT. Frames: the operations on an engine that leave its role and heartbeat block (`core`) alone, one lemma each. -/

namespace Sys2Proof.Machine

/-- What every step of a fold leaves alone, the fold leaves alone. -/
@[simp] theorem foldl_core {α : Type} (f : Engine → α → Engine) (h : ∀ y a, (f y a).core = y.core) (l : List α) (x : Engine) :
    (l.foldl f x).core = x.core := by
  induction l generalizing x with
  | nil => rfl
  | cons a l ih => simp [ih, h]
theorem foldl_fst_core {α : Type} (f : Engine × List Nat → α → Engine × List Nat) (h : ∀ s a, (f s a).1.core = s.1.core)
    (l : List α) (s : Engine × List Nat) : (l.foldl f s).1.core = s.1.core := by
  induction l generalizing s with
  | nil => rfl
  | cons a l ih => simp [ih, h]
@[simp] theorem Engine.modBuf_core (x : Engine) (f : BufState → BufState) :
    (Engine.modBuf x f).core = x.core := by
  simp [Engine.modBuf]
@[simp] theorem Engine.putFrame_core (x : Engine) (i : Nat) (f : Frame) :
    (Engine.putFrame x i f).core = x.core := by
  simp [Engine.putFrame]
@[simp] theorem Engine.addFrame_core (x : Engine) (f : Frame) :
    (Engine.addFrame x f).2.core = x.core := by
  simp [Engine.addFrame]
@[simp] theorem Engine.bump_core (x : Engine) (i : Nat) :
    (Engine.bump x i).core = x.core := by
  simp [Engine.bump]
@[simp] theorem Engine.bumpN_core (x : Engine) (i : Nat) (n : Nat) :
    (Engine.bumpN x i n).core = x.core := by
  simp [Engine.bumpN]
@[simp] theorem Engine.bumpPort_core (x : Engine) (p : Nat) (k : Nat) :
    (Engine.bumpPort x p k).core = x.core := by
  simp [Engine.bumpPort]
@[simp] theorem Engine.countStall_core (x : Engine) :
    (Engine.countStall x).core = x.core := by
  unfold Engine.countStall; (repeat' split) <;> simp_all
@[simp] theorem Engine.modIn_core (x : Engine) (p : Nat) (c : Nat) (f : Acct → Acct) :
    (Engine.modIn x p c f).core = x.core := by
  simp [Engine.modIn]
@[simp] theorem Engine.countXoff_core (x : Engine) (p : Nat) (c : Nat) :
    (Engine.countXoff x p c).core = x.core := by
  unfold Engine.countXoff; dsimp only; (repeat' split) <;> simp_all
@[simp] theorem Engine.countXoffs_core (x : Engine) :
    (Engine.countXoffs x).core = x.core := by
  simp [Engine.countXoffs]
@[simp] theorem Engine.modPtp_core (x : Engine) (d : Nat) (p : Nat) (f : PtpPort → PtpPort) :
    (Engine.modPtp x d p f).core = x.core := by
  simp [Engine.modPtp]
@[simp] theorem Engine.modPtps_core (x : Engine) (p : ℕ) (f : PtpPort → PtpPort) :
    (Engine.modPtps x p f).core = x.core := by
  simp [Engine.modPtps]
@[simp] theorem Engine.dropAnchors_core (x : Engine) (p : ℕ) :
    (Engine.dropAnchors x p).core = x.core := by
  simp [Engine.dropAnchors]
@[simp] theorem Engine.edge_core (x : Engine) (was : Bool) (now : Bool) (b : Nat) :
    (Engine.edge x was now b).core = x.core := by
  unfold Engine.edge; dsimp only; (repeat' split) <;> simp_all
@[simp] theorem Engine.setQueue_core (x : Engine) (p : Nat) (q : Nat) (l : List Copy) :
    (Engine.setQueue x p q l).core = x.core := by
  simp [Engine.setQueue]
@[simp] theorem Engine.emptyQueues_core (x : Engine) (p : Nat) :
    (Engine.emptyQueues x p).core = x.core := by
  simp [Engine.emptyQueues]
@[simp] theorem Engine.modEgPort_core (x : Engine) (p : Nat) (f : Egress → Egress) :
    (Engine.modEgPort x p f).core = x.core := by
  simp [Engine.modEgPort]
@[simp] theorem Engine.putCtl_core (x : Engine) (p : Nat) (k : Ctl) :
    (Engine.putCtl x p k).core = x.core := by
  simp [Engine.putCtl]
@[simp] theorem Engine.tellPartner_core (x : Engine) (p : Nat) (c : Nat) (quanta : Nat) :
    (Engine.tellPartner x p c quanta).core = x.core := by
  unfold Engine.tellPartner; dsimp only; (repeat' split) <;> simp_all
@[simp] theorem Engine.enterXoff_core (x : Engine) (p : Nat) (c : Nat) :
    (Engine.enterXoff x p c).core = x.core := by
  simp [Engine.enterXoff]
@[simp] theorem Engine.failCal_core (x : Engine) (b : Bool) :
    (Engine.failCal x b).core = x.core := by
  unfold Engine.failCal; (repeat' split) <;> simp_all
@[simp] theorem Engine.irq_core (x : Engine) (b : Nat) :
    (Engine.irq x b).core = x.core := by
  simp [Engine.irq]
@[simp] theorem Engine.modFdb_core (x : Engine) (f : List (Nat × FdbEntry) → List (Nat × FdbEntry)) :
    (Engine.modFdb x f).core = x.core := by
  simp [Engine.modFdb]
@[simp] theorem Engine.noteChange_core (x : Engine) (key : Nat) (v : Option FdbEntry) :
    (Engine.noteChange x key v).core = x.core := by
  unfold Engine.noteChange; (repeat' split) <;> simp_all
@[simp] theorem Engine.learnEntry_core (x : Engine) (key : Nat) (v : FdbEntry) :
    (Engine.learnEntry x key v).core = x.core := by
  simp [Engine.learnEntry]
@[simp] theorem Engine.leaveXoff_core (x : Engine) (p : Nat) (c : Nat) :
    (Engine.leaveXoff x p c).core = x.core := by
  simp [Engine.leaveXoff]
@[simp] theorem Engine.modPort_core (x : Engine) (p : Nat) (f : PortState → PortState) :
    (Engine.modPort x p f).core = x.core := by
  simp [Engine.modPort]
@[simp] theorem Engine.modAhnud_core (x : Engine) (p : Nat) (f : Ahnud → Ahnud) :
    (Engine.modAhnud x p f).core = x.core := by
  simp [Engine.modAhnud]
@[simp] theorem Engine.modArrived_core (x : Engine) (ch : Nat) (f : List Flit → List Flit) :
    (Engine.modArrived x ch f).core = x.core := by
  simp [Engine.modArrived]
@[simp] theorem Engine.modEg_core (x : Engine) (p : Nat) (q : Nat) (f : Acct → Acct) :
    (Engine.modEg x p q f).core = x.core := by
  simp [Engine.modEg]
@[simp] theorem Engine.modFc_core (x : Engine) (p : Nat) (f : PortFc → PortFc) :
    (Engine.modFc x p f).core = x.core := by
  simp [Engine.modFc]
@[simp] theorem Engine.modFlight_core (x : Engine) (ch : Nat) (f : List Flit → List Flit) :
    (Engine.modFlight x ch f).core = x.core := by
  simp [Engine.modFlight]
@[simp] theorem Engine.modNetPort_core (x : Engine) (p : Nat) (f : NetPort → NetPort) :
    (Engine.modNetPort x p f).core = x.core := by
  simp [Engine.modNetPort]
@[simp] theorem Engine.modPath_core (x : Engine) (kind : Nat) (idx : Nat) (f : CalPath → CalPath) :
    (Engine.modPath x kind idx f).core = x.core := by
  simp [Engine.modPath]
@[simp] theorem Engine.modRef_core (x : Engine) (r : Nat) (f : RefState → RefState) :
    (Engine.modRef x r f).core = x.core := by
  simp [Engine.modRef]
@[simp] theorem Engine.modRing_core (x : Engine) (r : Nat) (f : Ring → Ring) :
    (Engine.modRing x r f).core = x.core := by
  simp [Engine.modRing]
@[simp] theorem Engine.modSlot_core (x : Engine) (d : Nat) (f : Slot → Slot) :
    (Engine.modSlot x d f).core = x.core := by
  simp [Engine.modSlot]
@[simp] theorem Engine.modStaging_core (x : Engine) (ch : Nat) (f : List Flit → List Flit) :
    (Engine.modStaging x ch f).core = x.core := by
  simp [Engine.modStaging]
@[simp] theorem Engine.nextSeq_core (x : Engine) (d : Nat) (p : Nat) (k : Nat) :
    (Engine.nextSeq x d p k).2.core = x.core := by
  simp [Engine.nextSeq]
theorem Engine.pickClass_core (x : Engine) (p t25 q : Nat) (y : Engine) (h : x.pickClass p t25 = some (q, y)) : y.core = x.core := by
  unfold Engine.pickClass at h
  dsimp only at h
  repeat' split at h
  all_goals simp only [Option.some.injEq, Prod.mk.injEq, reduceCtorEq] at h
  all_goals (obtain ⟨-, rfl⟩ := h; simp)
@[simp] theorem Engine.putArriving_core (x : Engine) (p : Nat) (a : Arriving) :
    (Engine.putArriving x p a).core = x.core := by
  simp [Engine.putArriving]
@[simp] theorem report_core (m : FaultMsg) (x : Engine) :
    (report m x).core = x.core := by
  simp [report]
@[simp] theorem Engine.raise_core (x : Engine) (source : Nat) (kind : Nat) (cls : Nat) (address : Word) :
    (Engine.raise x source kind cls address).core = x.core := by
  simp [Engine.raise]
@[simp] theorem sendSlot_core (source : ℕ) (x : Engine) :
    (sendSlot source x).core = x.core := by
  simp [sendSlot]
@[simp] theorem Engine.raiseNext_core (x : Engine) (source : ℕ) (kind : ℕ) (cls : ℕ) (address : Word) :
    (Engine.raiseNext x source kind cls address).core = x.core := by
  simp [Engine.raiseNext]
@[simp] theorem Engine.sendOwn_core (x : Engine) (slot : ℕ) (p : ℕ) (cls : ℕ) (stamp : Stamp) (hdrs : List (ℕ × ℕ)) (bytes : List Byte) :
    (Engine.sendOwn x slot p cls stamp hdrs bytes).core = x.core := by
  simp [Engine.sendOwn]
@[simp] theorem Engine.sendPtp_core (x : Engine) (d : ℕ) (p : ℕ) (typ : ℕ) (twoStep : Bool) (corr : ℤ) (seq : ℕ) (ctl : ℕ) (log : ℕ) (stamp : Stamp) (body : List Byte) :
    (Engine.sendPtp x d p typ twoStep corr seq ctl log stamp body).core = x.core := by
  simp [Engine.sendPtp]
@[simp] theorem Engine.setJudge_core (x : Engine) (l : Loop) (j : LoopJudge) :
    (Engine.setJudge x l j).core = x.core := by
  simp [Engine.setJudge]
@[simp] theorem judgeStall_core (x : Engine) :
    (judgeStall x).core = x.core := by
  unfold judgeStall; (repeat' split) <;> simp_all
@[simp] theorem takeEntries_core (l : List Copy) (x : Engine) : (takeEntries l x).core = x.core := by
  induction l generalizing x with
  | nil => rfl
  | cons c l ih => unfold takeEntries; split <;> simp [ih]
@[simp] theorem Engine.setResidue_core (x : Engine) (l : List Copy) :
    (Engine.setResidue x l).core = x.core := by
  simp [Engine.setResidue]
@[simp] theorem putSample_core (e : EngId) (f : Frame) (d : SampleEnd) (x : Engine) :
    (putSample e f d x).core = x.core := by
  unfold putSample; (repeat' split) <;> simp_all
@[simp] theorem stopRing_core (r : Nat) (err : BitVec 4) (x : Engine) :
    (stopRing r err x).core = x.core := by
  simp [stopRing]
@[simp] theorem takesRecord_core (r : ℕ) (n : ℕ) (x : Engine) :
    (takesRecord r n x).2.core = x.core := by
  unfold takesRecord; (repeat' split) <;> simp_all
@[simp] theorem waitRecord_core (r : Nat) (rec : RingRec) (x : Engine) :
    (waitRecord r rec x).core = x.core := by
  simp [waitRecord]
@[simp] theorem fillBuffers_core (r : Nat) (ds : List Desc) (ws : List Word) (first : Bool) (x : Engine) :
    (fillBuffers r ds ws first x).core = x.core := by
  induction ds generalizing ws first x with
  | nil => cases ws <;> simp [fillBuffers]
  | cons d ds ih =>
    cases ws with
    | nil => simp [fillBuffers]
    | cons w ws =>
      simp only [fillBuffers]
      split <;> simp [ih]
@[simp] theorem writeRecord_core (e : EngId) (r : Nat) (rec : RingRec) (x : Engine) : (writeRecord e r rec x).core = x.core := by
  simp [writeRecord]
@[simp] theorem offerRecord_core (e : EngId) (r : Nat) (rec : RingRec) (x : Engine) :
    (offerRecord e r rec x).core = x.core := by
  unfold offerRecord; dsimp only; (repeat' split) <;> simp_all
@[simp] theorem stampRecord_core (e : EngId) (port : Nat) (tag : Nat) (egress : Stamp) (ingress : Stamp) (residence : Int) (x : Engine) :
    (stampRecord e port tag egress ingress residence x).core = x.core := by
  simp [stampRecord]
@[simp] theorem unchargeEg_core (f : Frame) (p : Nat) (q : Nat) (x : Engine) :
    (unchargeEg f p q x).core = x.core := by
  simp [unchargeEg]
@[simp] theorem dropFlits_core (i : Nat) (x : Engine) :
    (dropFlits i x).core = x.core := by
  simp [dropFlits]
@[simp] theorem judgeSpill_core (x : Engine) :
    (judgeSpill x).core = x.core := by
  simp [judgeSpill]
@[simp] theorem judgeXon_core (part : Part) (k : Nat) (x : Engine) :
    (judgeXon part k x).core = x.core := by
  unfold judgeXon; dsimp only; (repeat' split) <;> simp_all
@[simp] theorem judgeXons_core (part : Part) (x : Engine) :
    (judgeXons part x).core = x.core := by
  simp [judgeXons]
@[simp] theorem retireCell_core (c : Nat) (x : Engine) :
    (retireCell c x).core = x.core := by
  unfold retireCell; dsimp only; (repeat' split) <;> simp_all
@[simp] theorem unchargeIn_core (f : Frame) (x : Engine) :
    (unchargeIn f x).core = x.core := by
  unfold unchargeIn; dsimp only; (repeat' split) <;> simp_all
@[simp] theorem dropFrame_core (part : Part) (i : Nat) (x : Engine) :
    (dropFrame part i x).core = x.core := by
  unfold dropFrame; (repeat' split) <;> simp_all
@[simp] theorem unref_core (part : Part) (i : Nat) (x : Engine) :
    (unref part i x).core = x.core := by
  unfold unref; (repeat' split) <;> simp_all
@[simp] theorem discardCopy_core (part : Part) (e : EngId) (cause : Nat) (c : Copy) (x : Engine) :
    (discardCopy part e cause c x).core = x.core := by
  unfold discardCopy; (repeat' split) <;> simp_all
@[simp] theorem takeResidues_core (gone : Copy → Bool) (x : Engine) :
    (takeResidues gone x).2.core = x.core := by
  simp [takeResidues]
@[simp] theorem dropWhere_core (part : Part) (e : EngId) (bad : Copy → Bool) (x : Engine) :
    (dropWhere part e bad x).core = x.core := by
  simp [dropWhere]
@[simp] theorem dropQueues_core (part : Part) (e : EngId) (x : Engine) :
    (dropQueues part e x).core = x.core := by
  simp [dropQueues]
@[simp] theorem mailboxReply_core (r : Reply) (x : Engine) :
    (mailboxReply r x).core = x.core := by
  simp [mailboxReply]
@[simp] theorem mgmtReply_core (a : Arrival) (r : Reply) (x : Engine) :
    (mgmtReply a r x).core = x.core := by
  simp [mgmtReply]
@[simp] theorem ringReply_core (e : EngId) (r : Reply) (x : Engine) :
    (ringReply e r x).core = x.core := by
  unfold ringReply; dsimp only; (repeat' split) <;> simp_all
@[simp] theorem absorb_core (d : Nat) (new : Nat) (x : Engine) :
    (absorb d new x).core = x.core := by
  unfold absorb; (repeat' split) <;> simp_all
@[simp] theorem chargeCopies_core (f : Frame) (cs : List Copy) (x : Engine) :
    (chargeCopies f cs x).core = x.core := by
  simp [chargeCopies]
@[simp] theorem claimTx_core (stomp : Nat) (c : Copy) (x : Engine) :
    (claimTx stomp c x).core = x.core := by
  simp [claimTx]
@[simp] theorem countRefusal_core (p : Nat) (c : Nat) (k : Nat) (x : Engine) :
    (countRefusal p c k x).core = x.core := by
  unfold countRefusal; (repeat' split) <;> simp_all
@[simp] theorem discardEach_core (part : Part) (e : EngId) (cause : Nat) (cs : List Copy) (x : Engine) :
    (discardEach part e cause cs x).core = x.core := by
  simp [discardEach]
@[simp] theorem intoResidue_core (part : Part) (e : EngId) (c : Copy) (x : Engine) :
    (intoResidue part e c x).core = x.core := by
  unfold intoResidue; dsimp only; (repeat' split) <;> simp_all
theorem chargeCell_core (part : Part) (qs : List (Nat × Nat)) (uni : Option (Nat × Nat)) (inU : Bool) (xf : Engine × Frame)
    (r : Engine × Frame) (h : chargeCell part qs uni inU xf = some r) : r.1.core = xf.1.core := by
  unfold chargeCell at h
  dsimp only at h
  split at h
  · cases h
  · simp only [Option.some.injEq] at h
    subst h
    dsimp only
    have k (l : List (Nat × Nat)) (n : Nat) (y : Engine) :
        (l.foldl (fun y (ep, eq) => y.modEg ep eq fun a => { a with occ := a.occ + 1, hrUse := a.hrUse + n }) y).core = y.core :=
      foldl_core _ (fun y a => by simp) _ _
    repeat' split
    all_goals simp only [Engine.enterXoff_core, Engine.modEg_core, k, Engine.modIn_core]
theorem chargeCells_core (part : Part) (qs : List (Nat × Nat)) (uni : Option (Nat × Nat)) (inU : Bool) (n : Nat)
    (xf r : Engine × Frame) (h : chargeCells part qs uni inU n xf = some r) : r.1.core = xf.1.core := by
  induction n generalizing xf with
  | zero => simp only [chargeCells, Option.some.injEq] at h; subst h; rfl
  | succ n ih =>
    simp only [chargeCells] at h
    split at h
    · cases h
    · next xf1 h1 => rw [ih xf1 h, chargeCell_core part qs uni inU xf xf1 h1]
theorem chargeFrame_core (part : Part) (qs : List (Nat × Nat)) (uni : Option (Nat × Nat)) (spill : Bool) (n : Nat) (f : Frame)
    (x : Engine) (r : Bool × Engine × Frame) (h : chargeFrame part qs uni spill n f x = some r) : r.2.1.core = x.core := by
  unfold chargeFrame at h
  split at h
  · cases h
  · next y g h1 =>
    dsimp only at h
    split at h
    · simp only [Option.some.injEq] at h
      subst h
      exact chargeCells_core _ _ _ _ _ _ _ h1
    · rw [Option.map_eq_some_iff] at h
      obtain ⟨k, hk, rfl⟩ := h
      exact chargeCells_core _ _ _ _ _ _ _ hk
@[simp] theorem headroomCells_core (n : ℕ) (x : Engine) :
    (headroomCells n x).core = x.core := by
  simp [headroomCells]
@[simp] theorem spillCells_core (n : Nat) (x : Engine) :
    (spillCells n x).core = x.core := by
  simp [spillCells]
@[simp] theorem writeInjected_core (cs : List Nat) (n : Nat) (x : Engine) :
    (writeInjected cs n x).core = x.core := by
  simp [writeInjected]
theorem storeFrame_core (part : Part) (qs : List (Nat × Nat)) (uni : Option (Nat × Nat)) (spill : Spill) (i : Nat) (x y : Engine)
    (h : storeFrame part qs uni spill i x = some y) : y.core = x.core := by
  unfold storeFrame at h
  split at h
  · cases h
  · next f hf =>
    dsimp only at h
    split at h
    · cases h
    · next under y1 g h1 =>
      have k := chargeFrame_core _ _ _ _ _ _ _ _ h1
      dsimp only at k
      by_cases hc : (if under = true then pickCells y1.takenCells underpassCells (cellsOf f.orig.length) arcadeCells
          else pickCells y1.takenCells arcadeCells (cellsOf f.orig.length) 0).length < cellsOf f.orig.length
      · rw [if_pos hc] at h; cases h
      · rw [if_neg hc] at h
        simp only [Option.some.injEq] at h
        subst h
        simp only [writeInjected_core, judgeXons_core, judgeSpill_core, apply_ite Engine.core, spillCells_core, headroomCells_core,
          Engine.bump_core, ite_self, Engine.putFrame_core]
        exact k
@[simp] theorem admitCopies_core (part : Part) (e : EngId) (i : Nat) (copies : List Copy) (mirror : Option Copy)
    (multi : Bool) (need : Need) (again : Bool) (x : Engine) : (admitCopies part e i copies mirror multi need again x).eng.core = x.core := by
  have drops (g : Engine → Copy → Engine) (h : ∀ y c, (g y c).core = y.core) (l : List Copy) (y : Engine) : (l.foldl g y).core = y.core :=
    foldl_core g h l y
  unfold admitCopies
  extract_lets x0 whole downs ups mir
  have h0 : x0.core = x.core := by unfold x0; simp
  split
  · exact h0
  · extract_lets big first stays spills spill vs mirOk pick x2 x3 x3a x4 downs1 cuts ready residue claim kept uni stored y2 lost
    have h2 : x2.core = x.core := by rw [← h0]; exact foldl_core _ (fun y k => by split <;> simp) _ _
    have h3 : x3.core = x.core := by rw [← h2]; exact drops _ (fun y c => by simp) _ _
    have h3a : x3a.core = x.core := by unfold x3a; split <;> simp [h3]
    have h4 : x4.core = x.core := by
      unfold x4
      split
      · rw [← h3a]; exact drops _ (fun y c => by simp) _ _
      · exact h3a
    have hc (n : Nat) (y : Engine) : (claim n y).core = y.core := drops _ (fun y c => by simp) _ _
    clear_value claim x4 ready residue cuts downs1 kept
    split
    · dsimp only
      split
      · rw [discardEach_core, discardEach_core, countRefusal_core, h4]
      · rw [hc, discardEach_core, countRefusal_core, h4]
    · cases hs : stored with
      | none =>
        have hy : y2.core = x.core := by unfold y2; rw [discardEach_core, Engine.bump_core, h4]
        dsimp only
        split
        · rw [hc, hy]
        · rw [discardEach_core, hy]
      | some y =>
        have k : y.core = x.core := by
          unfold stored at hs
          split at hs
          · simp only [Option.some.injEq] at hs
            rw [← hs, chargeCopies_core, h4]
          · split at hs
            · rw [storeFrame_core _ _ _ _ _ _ _ hs, h4]
            · simp only [Option.some.injEq] at hs
              rw [← hs, h4]
        dsimp only
        rw [drops _ (fun y c => by simp), hc, drops _ (fun y c => by simp), k]
@[simp] theorem noteDecided_core (f : Frame) (cs : List Copy) (x : Engine) :
    (noteDecided f cs x).core = x.core := by
  unfold noteDecided; (repeat' split) <;> simp_all
@[simp] theorem admitFrame_core (part : Part) (e : EngId) (i : Nat) (f : Frame) (copies : List Copy) (mirror : Option Copy)
    (need : Need) (again : Bool) (x : Engine) : (admitFrame part e i f copies mirror need again x).eng.core = x.core := by
  unfold admitFrame
  dsimp only
  split <;> simp
@[simp] theorem toRound_core (i : Nat) (x : Engine) :
    (toRound i x).core = x.core := by
  unfold toRound; dsimp only; (repeat' split) <;> simp_all
@[simp] theorem admitRound_core (x : Engine) :
    (admitRound x).core = x.core := by
  simp [admitRound]
@[simp] theorem enterGcl_core (p : Nat) (w : Word) (x : Engine) :
    (enterGcl p w x).core = x.core := by
  simp [enterGcl]
@[simp] theorem judgeOverrun_core (p : Nat) (before : BitVec 8) (x : Engine) :
    (judgeOverrun p before x).core = x.core := by
  unfold judgeOverrun; (repeat' split) <;> simp_all
@[simp] theorem gclResync_core (p : ℕ) (x : Engine) :
    (gclResync p x).core = x.core := by
  unfold gclResync; dsimp only; (repeat' split) <;> simp_all
@[simp] theorem gatesJumped_core (j : ℤ) (x : Engine) :
    (gatesJumped j x).core = x.core := by
  unfold gatesJumped; (repeat' split) <;> simp_all
@[simp] theorem historyJumped_core (j : Int) (x : Engine) :
    (historyJumped j x).core = x.core := by
  simp [historyJumped]
@[simp] theorem alignNow_core (x : Engine) :
    (alignNow x).core = x.core := by
  simp [alignNow]
@[simp] theorem outputsJumped_core (j : Int) (x0 : Engine) :
    (outputsJumped j x0).core = x0.core := by
  unfold outputsJumped; (repeat' split) <;> simp_all
@[simp] theorem snapJumped_core (j : ℤ) (x : Engine) :
    (snapJumped j x).core = x.core := by
  unfold snapJumped; (repeat' split) <;> simp_all
@[simp] theorem timeJumped_core (j : ℤ) (x : Engine) :
    (timeJumped j x).core = x.core := by
  simp [timeJumped]
@[simp] theorem adoptTime_core (a : TimeState) (x : Engine) :
    (adoptTime a x).core = x.core := by
  simp [adoptTime]
@[simp] theorem ageQueue_core (part : Part) (e : EngId) (k : Nat) (x : Engine) :
    (ageQueue part e k x).core = x.core := by
  unfold ageQueue; dsimp only; (repeat' split) <;> simp_all
@[simp] theorem ageResidue_core (part : Part) (e : EngId) (c : Copy) (x : Engine) :
    (ageResidue part e c x).core = x.core := by
  unfold ageResidue; (repeat' split) <;> simp_all
@[simp] theorem sendAhnud_core (p : ℕ) (msg : ℕ) (chosenL : ℕ) (x : Engine) :
    (sendAhnud p msg chosenL x).core = x.core := by
  unfold sendAhnud; dsimp only; (repeat' split) <;> simp_all
@[simp] theorem levelMoved_core (p : Nat) (l : Nat) (x : Engine) :
    (levelMoved p l x).core = x.core := by
  unfold levelMoved; (repeat' split) <;> simp_all
@[simp] theorem offerEvent_core (e : EngId) (rec : RingRec) (lost : Nat) (x : Engine) :
    (offerEvent e rec lost x).core = x.core := by
  unfold offerEvent; dsimp only; (repeat' split) <;> simp_all
@[simp] theorem portRecord_core (e : EngId) (p : Nat) (event : Nat) (cause : Nat) (x : Engine) :
    (portRecord e p event cause x).core = x.core := by
  simp [portRecord]
@[simp] theorem setLevel_core (e : EngId) (p : Nat) (l : Nat) (settled : Bool) (x : Engine) :
    (setLevel e p l settled x).core = x.core := by
  unfold setLevel; dsimp only; (repeat' split) <;> simp_all
@[simp] theorem ahnudOffering_core (e : EngId) (p : Nat) (m : AhnudMsg) (x : Engine) :
    (ahnudOffering e p m x).core = x.core := by
  unfold ahnudOffering; dsimp only; (repeat' split) <;> simp_all
@[simp] theorem judgeWl_core (p : Nat) (wl : Nat) (x0 : Engine) :
    (judgeWl p wl x0).core = x0.core := by
  unfold judgeWl; dsimp only; (repeat' split) <;> simp_all
@[simp] theorem aligned_core (m : BitVec 12) (x : Engine) :
    (aligned m x).core = x.core := by
  simp [aligned]
@[simp] theorem closeWindow_core (m : FaultMsg) (x : Engine) :
    (closeWindow m x).core = x.core := by
  simp [closeWindow]
@[simp] theorem faultRecord_core (e : EngId) (m : FaultMsg) (kind : Nat) (x : Engine) :
    (faultRecord e m kind x).core = x.core := by
  unfold faultRecord; (repeat' split) <;> simp_all
@[simp] theorem cancelWindows_core (x : Engine) :
    (cancelWindows x).core = x.core := by
  simp [cancelWindows]
@[simp] theorem clearAcks_core (x : Engine) :
    (clearAcks x).core = x.core := by
  simp [clearAcks]
@[simp] theorem dropCommands_core (x : Engine) :
    (dropCommands x).core = x.core := by
  simp [dropCommands]
@[simp] theorem dropSamples_core (x : Engine) :
    (dropSamples x).core = x.core := by
  simp [dropSamples]
@[simp] theorem endCopy_core (part : Part) (e : EngId) (p : Nat) (t : Tx) (c : Copy) (outcome : Nat) (x : Engine) :
    (endCopy part e p t c outcome x).core = x.core := by
  unfold endCopy; (repeat' split) <;> simp_all
@[simp] theorem cutTx_core (part : Part) (e : EngId) (p : Nat) (t : Tx) (x : Engine) :
    (cutTx part e p t x).core = x.core := by
  unfold cutTx; (repeat' split) <;> simp_all
@[simp] theorem cutPort_core (part : Part) (e : EngId) (p : Nat) (x : Engine) : (cutPort part e p x).core = x.core := by
  unfold cutPort
  dsimp only
  rw [foldl_core _ (fun y t => by simp)]
  simp
@[simp] theorem squelch_core (part : Part) (e : EngId) (x : Engine) :
    (squelch part e x).core = x.core := by
  simp [squelch]
@[simp] theorem returnCell_core (c : Nat) (x : Engine) :
    (returnCell c x).core = x.core := by
  simp [returnCell]
@[simp] theorem repairCell_core (v : Nat) (c : Nat) (x : Engine) :
    (repairCell v c x).core = x.core := by
  unfold repairCell; dsimp only; (repeat' split) <;> simp_all
@[simp] theorem repairEntry_core (i : Nat) (x : Engine) :
    (repairEntry i x).core = x.core := by
  unfold repairEntry; dsimp only; (repeat' split) <;> simp_all
@[simp] theorem repairSteps_core (base : ℕ) (n : ℕ) (x : Engine) :
    (repairSteps base n x).core = x.core := by
  simp [repairSteps]
@[simp] theorem dropPaceOn_core (p : BitVec 2) (x : Engine) :
    (dropPaceOn p x).core = x.core := by
  simp [dropPaceOn]
@[simp] theorem simReset_core (b : BlockReset) (m : FaultMsg) (x : Engine) :
    (simReset b m x).core = x.core := by
  simp [simReset]
@[simp] theorem discardAll_core (part : Part) (e : EngId) (cause : Nat) (k : Nat) (cs : List Copy) (x : Engine) :
    (discardAll part e cause k cs x).core = x.core := by
  simp [discardAll]
@[simp] theorem takeQueued_core (i : Nat) (x : Engine) : (takeQueued i x).2.core = x.core := by
  unfold takeQueued
  exact foldl_core _ (fun y q => by dsimp only; split <;> simp) _ _
@[simp] theorem foundBad_core (part : Part) (e : EngId) (i cause : Nat) (x : Engine) : (foundBad part e i cause x).core = x.core := by
  unfold foundBad
  dsimp only
  rw [discardAll_core, takeResidues_core, takeQueued_core]
  refine foldl_core _ (fun y p => ?_) _ _
  rw [Engine.modEgPort_core]
  repeat' split
  all_goals simp only [Engine.modEgPort_core, discardCopy_core, Engine.bumpPort_core]
@[simp] theorem markBad_core (part : Part) (e : EngId) (cause i : Nat) (x : Engine) : (markBad part e cause i x).core = x.core := by
  unfold markBad
  dsimp only
  split <;> simp
@[simp] theorem emptyStaging_core (part : Part) (e : EngId) (ch : Nat) (x : Engine) :
    (emptyStaging part e ch x).core = x.core := by
  simp [emptyStaging]
@[simp] theorem resetSynt_core (x : Engine) :
    (resetSynt x).core = x.core := by
  simp [resetSynt]
@[simp] theorem restartMonitors_core (x : Engine) :
    (restartMonitors x).core = x.core := by
  simp [restartMonitors]
@[simp] theorem resetStart_core (part : Part) (e : EngId) (b : BlockReset) (x : Engine) :
    (resetStart part e b x).core = x.core := by
  unfold resetStart; (repeat' split) <;> simp_all
@[simp] theorem startReset_core (part : Part) (e : EngId) (b : BlockReset) (m : FaultMsg) (x : Engine) :
    (startReset part e b m x).core = x.core := by
  simp [startReset]
@[simp] theorem modRules_core (f : RuleState → RuleState) (x : Engine) :
    (modRules f x).core = x.core := by
  simp [modRules]
@[simp] theorem setClkout_core (ps : List Word) (x : Engine) :
    (setClkout ps x).core = x.core := by
  simp [setClkout]
@[simp] theorem setPpsout_core (ps : List Word) (x0 : Engine) :
    (setPpsout ps x0).core = x0.core := by
  simp [setPpsout]
@[simp] theorem setSynth_core (draw : Nat) (ps : List Word) (x : Engine) :
    (setSynth draw ps x).core = x.core := by
  simp [setSynth]
@[simp] theorem flushPort_core (part : Part) (e : EngId) (p : Nat) (x : Engine) :
    (flushPort part e p x).2.core = x.core := by
  simp [flushPort]
@[simp] theorem expireHold_core (part : Part) (e : EngId) (p : Nat) (x : Engine) :
    (expireHold part e p x).core = x.core := by
  simp [expireHold]
@[simp] theorem enterCoding_core (p : ℕ) (x : Engine) :
    (enterCoding p x).core = x.core := by
  simp [enterCoding]
@[simp] theorem clearFc_core (p : Nat) (x : Engine) :
    (clearFc p x).core = x.core := by
  simp [clearFc]
@[simp] theorem cutArriving_core (part : Part) (e : EngId) (p : ℕ) (x : Engine) :
    (cutArriving part e p x).core = x.core := by
  unfold cutArriving; (repeat' split) <;> simp_all
@[simp] theorem dropResidue_core (part : Part) (e : EngId) (p : Nat) (x : Engine) :
    (dropResidue part e p x).core = x.core := by
  simp [dropResidue]
@[simp] theorem noteLink_core (p : Nat) (x : Engine) :
    (noteLink p x).core = x.core := by
  simp [noteLink]
@[simp] theorem portOff_core (p : Nat) (x : Engine) :
    (portOff p x).core = x.core := by
  simp [portOff]
@[simp] theorem restartUnwrap_core (p : Nat) (x : Engine) :
    (restartUnwrap p x).core = x.core := by
  unfold restartUnwrap; (repeat' split) <;> simp_all
@[simp] theorem goDown_core (part : Part) (e : EngId) (p : Nat) (cause : Nat) (hold : Bool) (x : Engine) :
    (goDown part e p cause hold x).core = x.core := by
  unfold goDown; (repeat' split) <;> simp_all
@[simp] theorem setShort_core (short : List Nat) (p : Nat) (x : Engine) :
    (setShort short p x).core = x.core := by
  unfold setShort; dsimp only; (repeat' split) <;> simp_all
@[simp] theorem recomputeHr_core (part : Part) (changed : Option Nat) (x : Engine) :
    (recomputeHr part changed x).core = x.core := by
  simp [recomputeHr]
@[simp] theorem changeMode_core (part : Part) (e : EngId) (p : Nat) (w : Word) (x : Engine) :
    (changeMode part e p w x).2.core = x.core := by
  simp [changeMode]
@[simp] theorem setClass_core (w : Word) (x : Engine) : (setClass w x).core = x.core := by
  unfold setClass
  dsimp only
  split
  · simp
  · simp only [Engine.modBuf_core]
    exact foldl_core _ (fun y p => by split <;> simp) _ _
@[simp] theorem setMin_core (ps : List Word) (x : Engine) :
    (setMin ps x).core = x.core := by
  unfold setMin; (repeat' split) <;> simp_all
@[simp] theorem setPortFc_core (ps : List Word) (x : Engine) :
    (setPortFc ps x).core = x.core := by
  simp [setPortFc]
theorem eachRef_core (f : Nat → Engine → Engine) (h : ∀ r y, (f r y).core = y.core) (x : Engine) : (eachRef f x).core = x.core := by
  unfold eachRef
  exact foldl_core _ (fun y r => h r y) _ _
@[simp] theorem refEnter_core (e : EngId) (r : Nat) (new : Nat) (cause : Nat) (x : Engine) :
    (refEnter e r new cause x).core = x.core := by
  unfold refEnter; (repeat' split) <;> simp_all
@[simp] theorem markSelected_core (e : EngId) (x : Engine) : (markSelected e x).core = x.core := by
  unfold markSelected
  refine eachRef_core _ (fun r y => ?_) x
  dsimp only
  generalize (if r = 6 then d0Osc y else usedBy y 0 r || usedBy y 1 r) = u
  (repeat' split) <;> simp only [refEnter_core]
@[simp] theorem formHold_core (d : Nat) (sel : Nat) (x : Engine) :
    (formHold d sel x).core = x.core := by
  simp [formHold]
@[simp] theorem setServo_core (d : Nat) (new : Nat) (x : Engine) :
    (setServo d new x).core = x.core := by
  unfold setServo; dsimp only; (repeat' split) <;> simp_all
@[simp] theorem enterHoldover_core (d : Nat) (sel : Nat) (x : Engine) :
    (enterHoldover d sel x).core = x.core := by
  simp [enterHoldover]
@[simp] theorem loseReference_core (d : Nat) (sel : Nat) (x : Engine) :
    (loseReference d sel x).core = x.core := by
  unfold loseReference; dsimp only; (repeat' split) <;> simp_all
@[simp] theorem applySelection_core (d : Nat) (t : Nat) (f : Nat) (adopt : Bool) (x : Engine) :
    (applySelection d t f adopt x).core = x.core := by
  unfold applySelection; dsimp only; (repeat' split) <;> simp_all
@[simp] theorem keepDisagree_core (a : Nat) (b : Nat) (was : Engine) (x : Engine) :
    (keepDisagree a b was x).core = x.core := by
  unfold keepDisagree; dsimp only; (repeat' split) <;> simp_all
@[simp] theorem resolve_core (e : EngId) (d a b : Nat) (was : Engine) (s : Engine × List Nat) :
    (resolve e d a b was s).1.core = s.1.core := by
  unfold resolve
  dsimp only
  repeat' split
  all_goals simp
@[simp] theorem select_core (e : EngId) (d : Nat) (time : Bool) (was x : Engine) : (select e d time was x).1.core = x.core := by
  unfold select
  dsimp only
  split
  · exact foldl_core _ (fun y a => by simp) _ _
  · split
    · exact foldl_core _ (fun y a => by simp) _ _
    · exact foldl_fst_core _ (fun s a => by simp) _ _
@[simp] theorem reselect_core (e : EngId) (d : Nat) (peer : Option Engine) (x : Engine) : (reselect e d peer x).core = x.core := by
  unfold reselect
  extract_lets cleared
  have h : cleared.core = x.core := eachRef_core _ (fun r y => by split <;> simp) x
  clear_value cleared
  split
  next x1 t h1 =>
    have e1 := select_core e d true x cleared
    rw [h1] at e1
    split
    next x2 f h2 =>
      have e2 := select_core e d false x x1
      rw [h2] at e2
      dsimp only at e1 e2 ⊢
      (repeat' split) <;> simp only [applySelection_core, Engine.modSlot_core, e2, e1, h]
@[simp] theorem setInput_core (ps : List Word) (x : Engine) :
    (setInput ps x).core = x.core := by
  simp [setInput]
@[simp] theorem carryD0_core (by_ : ℤ) (x : Engine) :
    (carryD0 by_ x).core = x.core := by
  simp [carryD0]
@[simp] theorem d0External_core (x : Engine) :
    (d0External x).core = x.core := by
  unfold d0External; (repeat' split) <;> simp_all
@[simp] theorem d0Tcxo_core (x : Engine) : (d0Tcxo x).core = x.core := by
  unfold d0Tcxo
  split <;> rfl
@[simp] theorem setSlot_core (ps : List Word) (x : Engine) :
    (setSlot ps x).core = x.core := by
  simp [setSlot]
@[simp] theorem refillPort_core (p : Nat) (x : Engine) :
    (refillPort p x).core = x.core := by
  simp [refillPort]
@[simp] theorem setPair_core (ps : List Word) (x : Engine) :
    (setPair ps x).core = x.core := by
  simp [setPair]
@[simp] theorem passEngine_core (n : Nat) (x : Engine) :
    (passEngine n x).core = x.core := by
  unfold passEngine; (repeat' split) <;> simp_all
@[simp] theorem latchSnapshot_core (onDemand : Bool) (seq : Nat) (x : Engine) :
    (latchSnapshot onDemand seq x).core = x.core := by
  simp [latchSnapshot]
@[simp] theorem takeSnapshot_core (onDemand : Bool) (x0 : Engine) :
    (takeSnapshot onDemand x0).core = x0.core := by
  unfold takeSnapshot; dsimp only; (repeat' split) <;> simp_all
@[simp] theorem periodicSnapshot_core (at_ : ℕ) (x : Engine) :
    (periodicSnapshot at_ x).core = x.core := by
  simp [periodicSnapshot]
@[simp] theorem setSampler_core (ps : List Word) (draw : Nat) (x : Engine) :
    (setSampler ps draw x).core = x.core := by
  simp [setSampler]
@[simp] theorem setPace_core (p : BitVec 2) (x : Engine) :
    (setPace p x).core = x.core := by
  unfold setPace; (repeat' split) <;> simp_all
@[simp] theorem enterFallback_core (e : EngId) (p : Nat) (l : Nat) (x : Engine) :
    (enterFallback e p l x).core = x.core := by
  simp [enterFallback]
@[simp] theorem sweep_core (part : Part) (e : EngId) (p : Nat) (x : Engine) :
    (sweep part e p x).core = x.core := by
  simp [sweep]
theorem asymChange_core (p : Nat) (f : Engine → Engine) (h : ∀ x, (f x).core = x.core) (x : Engine) :
    (asymChange p f x).core = x.core := by
  unfold asymChange
  dsimp only
  split <;> simp [h]
@[simp] theorem writeTrim_core (p : Nat) (ps : Int) (x : Engine) : (writeTrim p ps x).core = x.core :=
  asymChange_core _ _ (fun y => by simp) _
@[simp] theorem markSignal_core (r : Nat) (x : Engine) :
    (markSignal r x).core = x.core := by
  simp [markSignal]
@[simp] theorem takeSample_core (d : Nat) (r : Nat) (at_ : Nat) (theta : Int) (x : Engine) :
    (takeSample d r at_ theta x).core = x.core := by
  unfold takeSample; dsimp only; (repeat' split) <;> simp_all
@[simp] theorem modEvtIn_core (n : Nat) (f : EvtIn → EvtIn) (x : Engine) :
    (modEvtIn n f x).core = x.core := by
  simp [modEvtIn]
@[simp] theorem modEvtOut_core (n : Nat) (f : EvtOut → EvtOut) (x : Engine) :
    (modEvtOut n f x).core = x.core := by
  simp [modEvtOut]
@[simp] theorem formModel_core (p : Nat) (x : Engine) :
    (formModel p x).core = x.core := by
  simp [formModel]
@[simp] theorem setAsym_core (ps : List Word) (x : Engine) : (setAsym ps x).core = x.core := by
  unfold setAsym
  dsimp only
  rw [judgeWl_core, asymChange_core _ _ (fun x => by simp)]
@[simp] theorem clearSlot_core (d : Nat) (x : Engine) : (clearSlot d x).core = x.core := by
  simp [clearSlot]
@[simp] theorem setDomain_core (ps : List Word) (x : Engine) :
    (setDomain ps x).core = x.core := by
  unfold setDomain; dsimp only; (repeat' split) <;> simp_all
@[simp] theorem setPtpPort_core (ps : List Word) (x : Engine) :
    (setPtpPort ps x).core = x.core := by
  unfold setPtpPort; dsimp only; (repeat' split) <;> simp_all
@[simp] theorem setLock_core (i : Nat) (on : Bool) (x : Engine) :
    (setLock i on x).core = x.core := by
  simp [setLock]
@[simp] theorem setLoss_core (i : Nat) (x : Engine) :
    (setLoss i x).core = x.core := by
  simp [setLoss]
@[simp] theorem setLost_core (i : Nat) (on : Bool) (x : Engine) :
    (setLost i on x).core = x.core := by
  simp [setLost]
@[simp] theorem analogWindow_core (l : Loop) (dev : Int) (x : Engine) :
    (analogWindow l dev x).1.core = x.core := by
  unfold analogWindow; dsimp only; (repeat' split) <;> simp_all
@[simp] theorem sendL1Sync_core (d : Nat) (p : Nat) (asks : Bool) (x : Engine) :
    (sendL1Sync d p asks x).core = x.core := by
  simp [sendL1Sync]
@[simp] theorem answerL1Sync_core (d : Nat) (p : Nat) (bs : List Byte) (o : Nat) (x : Engine) :
    (answerL1Sync d p bs o x).core = x.core := by
  unfold answerL1Sync; (repeat' split) <;> simp_all
@[simp] theorem answerPdelay_core (d : Nat) (p : Nat) (bs : List Byte) (o : Nat) (stamp : Stamp) (x : Engine) :
    (answerPdelay d p bs o stamp x).core = x.core := by
  unfold answerPdelay; (repeat' split) <;> simp_all
@[simp] theorem latchInto_core (m : FaultMsg) (x : Engine) :
    (latchInto m x).core = x.core := by
  unfold latchInto; (repeat' split) <;> simp_all
@[simp] theorem openWindow_core (m : FaultMsg) (x : Engine) :
    (openWindow m x).core = x.core := by
  simp [openWindow]
@[simp] theorem latchF4_core (m : FaultMsg) (x : Engine) :
    (latchF4 m x).core = x.core := by
  unfold latchF4; (repeat' split) <;> simp_all
@[simp] theorem freeSync_core (x : Engine) :
    (freeSync x).core = x.core := by
  unfold freeSync; (repeat' split) <;> simp_all
@[simp] theorem countLost_core (p : Nat) (n : Nat) (x : Engine) :
    (countLost p n x).core = x.core := by
  simp [countLost]
@[simp] theorem releasePartner_core (x : Engine) (p : Nat) :
    (releasePartner x p).core = x.core := by
  unfold releasePartner; dsimp only; (repeat' split) <;> simp_all
@[simp] theorem restartDigests_core (now : Nat) (x : Engine) :
    (restartDigests now x).core = x.core := by
  simp [restartDigests]
@[simp] theorem takeSeq_core (r : Nat) (src : Nat) (x : Engine) :
    (takeSeq r src x).2.core = x.core := by
  unfold takeSeq; (repeat' split) <;> simp_all
@[simp] theorem copySeq_core (c : Copy) (f : Frame) (x : Engine) :
    (copySeq c f x).2.1.core = x.core := by
  unfold copySeq; dsimp only; (repeat' split) <;> simp_all
@[simp] theorem countDegraded_core (w : Stamp) (x : Engine) :
    (countDegraded w x).core = x.core := by
  unfold countDegraded; (repeat' split) <;> simp_all
@[simp] theorem noteStarted_core (c : Copy) (f : Frame) (x : Engine) :
    (noteStarted c f x).core = x.core := by
  unfold noteStarted; (repeat' split) <;> simp_all
@[simp] theorem ptpLaunched_core (d : ℕ) (p : ℕ) (bs : List Byte) (hdrs : List (ℕ × ℕ)) (egress : Stamp) (x0 : Engine) :
    (ptpLaunched d p bs hdrs egress x0).core = x0.core := by
  unfold ptpLaunched; (repeat' split) <;> simp_all
@[simp] theorem transparent_core (c : Copy) (f : Frame) (residence : Int) (e : Edit) (x : Engine) :
    (transparent c f residence e x).2.core = x.core := by
  unfold transparent; dsimp only; (repeat' split) <;> simp_all
@[simp] theorem beginCopy_core (p : ℕ) (interp : ℕ) (c : Copy) (ct : Bool) (stomp : ℕ) (x : Engine) :
    (beginCopy p interp c ct stomp x).core = x.core := by
  unfold beginCopy; dsimp only; (repeat' split) <;> simp_all
@[simp] theorem beginCtl_core (p : Nat) (interp : Nat) (k : Ctl) (rest : List Ctl) (x : Engine) :
    (beginCtl p interp k rest x).core = x.core := by
  simp [beginCtl]
@[simp] theorem loseRepair_core (r : RepairRecord) (x : Engine) :
    (loseRepair r x).core = x.core := by
  unfold loseRepair; (repeat' split) <;> simp_all
@[simp] theorem bootRepairs_core (bad : List Nat) (x : Engine) :
    (bootRepairs bad x).core = x.core := by
  simp [bootRepairs]
@[simp] theorem bootTrims_core (bad : List Nat) (x : Engine) : (bootTrims bad x).core = x.core :=
  foldl_core _ (fun y t => by split <;> simp) _ _
@[simp] theorem bootRecords_core (bad : List Nat) (x : Engine) :
    (bootRecords bad x).core = x.core := by
  simp [bootRecords]
@[simp] theorem calibratePath_core (base : Nat) (n : Nat) (kind : Nat) (idx : Nat) (x : Engine) :
    (calibratePath base n kind idx x).core = x.core := by
  simp [calibratePath]
@[simp] theorem chargeEg_core (c : Copy) (f : Frame) (x : Engine) :
    (chargeEg c f x).core = x.core := by
  simp [chargeEg]
@[simp] theorem chargeService_core (p : Nat) (c : Copy) (n : Nat) (x : Engine) :
    (chargeService p c n x).core = x.core := by
  simp [chargeService]
@[simp] theorem clearChan_core (c : Nat) (x : Engine) :
    (clearChan c x).core = x.core := by
  simp [clearChan]
@[simp] theorem clearDrops_core (r : Nat) (x : Engine) :
    (clearDrops r x).core = x.core := by
  simp [clearDrops]
@[simp] theorem clearRS_core (x : Engine) :
    (clearRS x).core = x.core := by
  simp [clearRS]
@[simp] theorem closeDigest_core (b : Nat) (x : Engine) :
    (closeDigest b x).core = x.core := by
  simp [closeDigest]
@[simp] theorem closeReset_core (r : RunningReset) (x : Engine) :
    (closeReset r x).core = x.core := by
  simp [closeReset]
@[simp] theorem compared_core (number : Nat) (boundary : Nat) (ok : Option Bool) (x : Engine) :
    (compared number boundary ok x).core = x.core := by
  unfold compared; (repeat' split) <;> simp_all
@[simp] theorem completeCal_core (kind : Nat) (idx : Nat) (x : Engine) :
    (completeCal kind idx x).core = x.core := by
  simp [completeCal]
@[simp] theorem enterStaged_core (part : Part) (ch : Nat) (x : Engine) :
    (enterStaged part ch x).core = x.core := by
  simp [enterStaged]
@[simp] theorem enterAll_core (part : Part) (x : Engine) :
    (enterAll part x).core = x.core := by
  simp [enterAll]
@[simp] theorem leaveFlit_core (f : Flit) (x : Engine) : (leaveFlit f x).core = x.core := by
  unfold leaveFlit
  exact foldl_core _ (fun y ch => by split <;> simp) _ _
@[simp] theorem completeFirst_core (part : Part) (ch : ℕ) (x : Engine) :
    (completeFirst part ch x).core = x.core := by
  unfold completeFirst; (repeat' split) <;> simp_all
@[simp] theorem completeFlit_core (part : Part) (ch : Nat) (j : Nat) (x : Engine) :
    (completeFlit part ch j x).core = x.core := by
  unfold completeFlit; (repeat' split) <;> simp_all
@[simp] theorem deliverCapture_core (e : EngId) (n : Nat) (x : Engine) :
    (deliverCapture e n x).core = x.core := by
  unfold deliverCapture; dsimp only; (repeat' split) <;> simp_all
@[simp] theorem deliverCaptures_core (e : EngId) (x : Engine) :
    (deliverCaptures e x).core = x.core := by
  simp [deliverCaptures]
@[simp] theorem copyPort_core (part : Part) (d : EngId) (x : Engine) (y : Engine) (p : Nat) :
    (copyPort part d x y p).core = y.core := by
  unfold copyPort; dsimp only; (repeat' split) <;> simp_all
@[simp] theorem copySource_core (x : Engine) (y : Engine) :
    (copySource x y).core = y.core := by
  unfold copySource; (repeat' split) <;> simp_all
@[simp] theorem copyEngine_core (part : Part) (d : EngId) (x : Engine) (y0 : Engine) :
    (copyEngine part d x y0).core = y0.core := by
  simp [copyEngine]
@[simp] theorem countConflict_core (p : Nat) (r : ParseResult) (stomped : Bool) (x : Engine) :
    (countConflict p r stomped x).core = x.core := by
  unfold countConflict; (repeat' split) <;> simp_all
@[simp] theorem countFcs_core (p : Nat) (r : FcsResult) (x : Engine) :
    (countFcs p r x).core = x.core := by
  unfold countFcs; (repeat' split) <;> simp_all
@[simp] theorem countGuard_core (p t25 : Nat) (x : Engine) : (countGuard p t25 x).core = x.core := by
  unfold countGuard
  exact foldl_core _ (fun y q => by (repeat' split) <;> simp) _ _
@[simp] theorem countStomp_core (p : Nat) (ingress : Nat) (cause : Nat) (x : Engine) :
    (countStomp p ingress cause x).core = x.core := by
  simp [countStomp]
@[simp] theorem countTrailer_core (p : Nat) (prp : Bool) (a : Arriving) (x : Engine) :
    (countTrailer p prp a x).core = x.core := by
  unfold countTrailer; dsimp only; (repeat' split) <;> simp_all
@[simp] theorem countWalk_core (p : Nat) (r : ParseResult) (x : Engine) :
    (countWalk p r x).core = x.core := by
  unfold countWalk; (repeat' split) <;> simp_all
@[simp] theorem countWeak_core (w : Nat) (n : Nat) (x : Engine) :
    (countWeak w n x).core = x.core := by
  simp [countWeak]
theorem offerFlit_core (part : Part) (ch : Nat) (f : Flit) (x y : Engine) (h : offerFlit part ch f x = some y) : y.core = x.core := by
  unfold offerFlit at h
  dsimp only at h
  split at h
  · simp only [Option.some.injEq] at h; subst h; simp
  · split at h
    · simp only [Option.some.injEq] at h; subst h; simp
    · split at h
      · cases h
      · by_cases hc : (((completeFirst part ch x).staging ch).length < stagingDepth)
        · rw [if_pos hc] at h
          simp only [Option.some.injEq] at h; subst h; simp
        · rw [if_neg hc] at h; cases h
@[simp] theorem offerFlits_core (part : Part) (ch : Nat) (l : List Flit) (x : Engine) : (offerFlits part ch l x).1.core = x.core := by
  induction l generalizing x with
  | nil => rfl
  | cons f l ih =>
    unfold offerFlits
    split
    · next y h => rw [ih, offerFlit_core _ _ _ _ _ h]
    · rfl
@[simp] theorem stageOverflow_core (ch : Nat) (x : Engine) :
    (stageOverflow ch x).core = x.core := by
  unfold stageOverflow; dsimp only; (repeat' split) <;> simp_all
@[simp] theorem crossFrame_core (part : Part) (ch i n : Nat) (x : Engine) : (crossFrame part ch i n x).1.core = x.core := by
  unfold crossFrame
  split
  next y full h =>
  have k := offerFlits_core part ch (flitsOf i n) x
  rw [h] at k
  dsimp only at k ⊢
  split <;> simp [k]
@[simp] theorem crossArriving_core (part : Part) (e : EngId) (p : ℕ) (i : ℕ) (x : Engine) :
    (crossArriving part e p i x).core = x.core := by
  unfold crossArriving; dsimp only; (repeat' split) <;> simp_all
@[simp] theorem crossWhole_core (part : Part) (e : EngId) (ch : Nat) (i : Nat) (x : Engine) :
    (crossWhole part e ch i x).core = x.core := by
  unfold crossWhole; dsimp only; (repeat' split) <;> simp_all
@[simp] theorem cutAway_core (part : Part) (e : EngId) (p : Nat) (x : Engine) : (cutAway part e p x).core = x.core := by
  unfold cutAway
  dsimp only
  rw [foldl_core _ (fun y t => by (repeat' split) <;> simp)]
  simp
@[simp] theorem d0Return_core (x : Engine) :
    (d0Return x).core = x.core := by
  unfold d0Return; (repeat' split) <;> simp_all
@[simp] theorem decideFrame_core (part : Part) (x : Engine) (i : Nat) (f : Frame) (act : List Word) (red inner : Bool) (da vid : Nat) :
    (decideFrame part x i f act red inner da vid).eng.core = x.core := by
  unfold decideFrame
  dsimp only
  have fold (u : BitVec 34) (y : Engine) :
      ((List.range 32).foldl (fun y p => if u.getLsbD p then y.bump 63 else y) y).core = y.core :=
    foldl_core _ (fun y p => by split <;> simp) _ _
  simp only [apply_ite Engine.core, Engine.bumpPort_core, fold, Engine.bump_core, ite_self]
  repeat' split
  all_goals simp only [Engine.bump_core]
@[simp] theorem deliverRecord_core (e : EngId) (r : Nat) (x : Engine) :
    (deliverRecord e r x).core = x.core := by
  unfold deliverRecord; dsimp only; (repeat' split) <;> simp_all
@[simp] theorem digestFrame_core (part : Part) (f : Frame) (flags : BitVec 8) (queue : Nat) (learn : Nat) (dest : BitVec 34) (x : Engine) :
    (digestFrame part f flags queue learn dest x).core = x.core := by
  unfold digestFrame; (repeat' split) <;> simp_all
@[simp] theorem doorbell_core (r : Nat) (idx : Word) (descs : List Desc) (x : Engine) :
    (doorbell r idx descs x).core = x.core := by
  unfold doorbell; dsimp only; (repeat' split) <;> simp_all
@[simp] theorem sampleNoCopy_core (e : EngId) (f : Frame) (outcome : Nat) (cause : Nat) (x : Engine) :
    (sampleNoCopy e f outcome cause x).core = x.core := by
  simp [sampleNoCopy]
@[simp] theorem sampleEnds_core (e : EngId) (i : Nat) (trap : Nat) (cause : Nat) (x : Engine) :
    (sampleEnds e i trap cause x).core = x.core := by
  unfold sampleEnds; (repeat' split) <;> simp_all
@[simp] theorem stampLost_core (e : EngId) (f : Frame) (tag : Option Nat) (x : Engine) :
    (stampLost e f tag x).core = x.core := by
  unfold stampLost; (repeat' split) <;> simp_all
@[simp] theorem dropRound_core (part : Part) (e : EngId) (k : RoundEntry) (cause : Nat) (x : Engine) :
    (dropRound part e k cause x).core = x.core := by
  unfold dropRound; (repeat' split) <;> simp_all
@[simp] theorem drainDiscard_core (part : Part) (e : EngId) (epoch : Nat) (x : Engine) :
    (drainDiscard part e epoch x).core = x.core := by
  simp [drainDiscard]
@[simp] theorem poisonInjected_core (w : ℕ) (x : Engine) :
    (poisonInjected w x).core = x.core := by
  unfold poisonInjected; (repeat' split) <;> simp_all
@[simp] theorem readEntry_core (scrub : Bool) (k : EccEntry) (x : Engine) :
    (readEntry scrub k x).core = x.core := by
  unfold readEntry; dsimp only; (repeat' split) <;> simp_all
@[simp] theorem reportWord_core (kind : Nat) (cls : Nat) (mixed : Bool) (w : Nat) (x : Engine) :
    (reportWord kind cls mixed w x).core = x.core := by
  simp [reportWord]
@[simp] theorem wordCorrected_core (mixed : Bool) (w : Nat) (x : Engine) :
    (wordCorrected mixed w x).core = x.core := by
  simp [wordCorrected]
@[simp] theorem poisonCell_core (w : Nat) (x : Engine) :
    (poisonCell w x).core = x.core := by
  unfold poisonCell; (repeat' split) <;> simp_all
@[simp] theorem wordUncorrectable_core (scrub : Bool) (mixed : Bool) (w : Nat) (x : Engine) :
    (wordUncorrectable scrub mixed w x).core = x.core := by
  simp [wordUncorrectable]
@[simp] theorem readFlaw_core (k : Nat × WordOutcome) (x : Engine) :
    (readFlaw k x).core = x.core := by
  unfold readFlaw; dsimp only; (repeat' split) <;> simp_all
@[simp] theorem readInjected_core (cs : List Nat) (flaws : List (Nat × WordOutcome)) (x : Engine) :
    (readInjected cs flaws x).core = x.core := by
  simp [readInjected]
@[simp] theorem readPoison_core (cs : List Nat) (x : Engine) :
    (readPoison cs x).core = x.core := by
  unfold readPoison; (repeat' split) <;> simp_all
@[simp] theorem readCells_core (cs : List Nat) (flaws : List (Nat × WordOutcome)) (x : Engine) :
    (readCells cs flaws x).core = x.core := by
  simp [readCells]
@[simp] theorem drainFetch_core (part : Part) (flaws : List (Nat × WordOutcome)) (x : Engine) :
    (drainFetch part flaws x).core = x.core := by
  unfold drainFetch; dsimp only; (repeat' split) <;> simp_all
@[simp] theorem dupCheck_core (p : Nat) (src : Nat) (seq : Nat) (x : Engine) :
    (dupCheck p src seq x).2.core = x.core := by
  unfold dupCheck; dsimp only; (repeat' split) <;> simp_all
@[simp] theorem resetEnd_core (b : BlockReset) (x : Engine) :
    (resetEnd b x).core = x.core := by
  unfold resetEnd; (repeat' split) <;> simp_all
@[simp] theorem endReset_core (b : BlockReset) (x : Engine) :
    (endReset b x).core = x.core := by
  unfold endReset; (repeat' split) <;> simp_all
@[simp] theorem endTx_core (part : Part) (e : EngId) (p : Nat) (x : Engine) :
    (endTx part e p x).core = x.core := by
  unfold endTx; dsimp only; (repeat' split) <;> simp_all
@[simp] theorem enterRound_core (part : Part) (e : EngId) (i : Nat) (entry : RoundEntry) (x0 : Engine) :
    (enterRound part e i entry x0).core = x0.core := by
  unfold enterRound; dsimp only; (repeat' split) <;> simp_all
@[simp] theorem rxCount_core (p : Nat) (n : Nat) (x : Engine) :
    (rxCount p n x).core = x.core := by
  simp [rxCount]
@[simp] theorem judgePause_core (p : Nat) (pause : Bool) (x : Engine) :
    (judgePause p pause x).core = x.core := by
  simp [judgePause]
@[simp] theorem restartAn_core (p : Nat) (x : Engine) :
    (restartAn p x).core = x.core := by
  simp [restartAn]
@[simp] theorem overdueReset_core (part : Part) (b : BlockReset) (x : Engine) :
    (overdueReset part b x).core = x.core := by
  unfold overdueReset; (repeat' split) <;> simp_all
@[simp] theorem scrubWord_core (w : Nat) (outcome : WordOutcome) (x : Engine) : (scrubWord w outcome x).core = x.core := by
  unfold scrubWord
  generalize writtenEntry x w = k
  cases k <;> cases outcome <;> dsimp only <;> (repeat' split) <;> simp only [countWeak_core, wordCorrected_core, retireCell_core,
    wordUncorrectable_core, readEntry_core]
@[simp] theorem takeBack_core (g : ℕ) (x : Engine) :
    (takeBack g x).core = x.core := by
  unfold takeBack; (repeat' split) <;> simp_all
@[simp] theorem latchTime_core (l : LatchId) (x : Engine) :
    (latchTime l x).core = x.core := by
  simp [latchTime]
@[simp] theorem readMonitor_core (k : Nat) (x : Engine) :
    (readMonitor k x).core = x.core := by
  simp [readMonitor]
@[simp] theorem readEffect_core (l : LatchId) (off : Nat) (x : Engine) :
    (readEffect l off x).core = x.core := by
  unfold readEffect; (repeat' split) <;> simp_all
@[simp] theorem takeEdge_core (e : EngId) (n : Nat) (rise : Bool) (at_ : Nat) (stamp : Stamp) (x : Engine) :
    (takeEdge e n rise at_ stamp x).core = x.core := by
  unfold takeEdge; dsimp only; (repeat' split) <;> simp_all
@[simp] theorem markFaulty_core (x : Engine) :
    (markFaulty x).core = x.core := by
  simp [markFaulty]
@[simp] theorem scrubFailed_core (cls : Nat) (words : Nat) (x : Engine) :
    (scrubFailed cls words x).core = x.core := by
  simp [scrubFailed]
@[simp] theorem scrubOver_core (x : Engine) :
    (scrubOver x).core = x.core := by
  simp [scrubOver]
@[simp] theorem learnRecord_core (e : EngId) (port : Nat) (event : Nat) (key : Nat) (x : Engine) :
    (learnRecord e port event key x).core = x.core := by
  unfold learnRecord; (repeat' split) <;> simp_all
@[simp] theorem notifyLearn_core (e : EngId) (port : Nat) (event : Nat) (key : Nat) (x : Engine) :
    (notifyLearn e port event key x).core = x.core := by
  unfold notifyLearn; (repeat' split) <;> simp_all
@[simp] theorem flipBank_core (x : Engine) :
    (flipBank x).core = x.core := by
  unfold flipBank; dsimp only; (repeat' split) <;> simp_all
@[simp] theorem lookupRule_core (x : Engine) (f : Frame) (pass1 : Bool) (meta_ : Nat) (r : ParseResult) (base : Nat) (gone : Nat) :
    (lookupRule x f pass1 meta_ r base gone).eng.core = x.core := by
  unfold lookupRule; dsimp only; (repeat' split) <;> simp_all
@[simp] theorem meterAct_core (act : List Word) (n : Nat) (x : Engine) :
    (meterAct act n x).2.2.core = x.core := by
  unfold meterAct; dsimp only; (repeat' split) <;> simp_all
@[simp] theorem mirrorCopy_core (part : Part) (i : Nat) (f : Frame) (act : List Word) (x : Engine) :
    (mirrorCopy part i f act x).2.core = x.core := by
  unfold mirrorCopy; (repeat' split) <;> simp_all
@[simp] theorem headDecided_core (part : Part) (e : EngId) (p i : Nat) (f : Frame) (a : Arriving) (x : Engine) :
    (headDecided part e p i f a x).core = x.core := by
  unfold headDecided
  extract_lets bs h cls inner
  have h0 : h.eng.core = x.core := lookupRule_core _ _ _ _ _ _ _
  clear_value h cls bs
  split
  next red yellow x1 hm =>
  have h1 : x1.core = x.core := by
    have k := meterAct_core h.act bs.length h.eng
    rw [hm] at k
    rw [← h0]; exact k
  extract_lets f1 trap
  clear_value f1
  split
  next mirror x2 hr =>
  have h2 : x2.core = x.core := by
    rw [← h1]
    split at hr
    · simp only [Prod.mk.injEq] at hr; rw [← hr.2]
    · have k := mirrorCopy_core part i f1 h.act x1
      rw [hr] at k
      exact k
  extract_lets adm y d host several f2 adm2 held
  split
  · rw [Engine.putArriving_core]
    unfold y
    split <;> simp [adm, h2]
  · rw [Engine.putArriving_core, stampLost_core]
    unfold adm2 d
    rw [admitFrame_core, decideFrame_core, h2]
@[simp] theorem goneLookup_core (x : Engine) (f : Frame) (pass1 : Bool) (meta_ : Nat) (r : ParseResult) (base : Nat) (act : Nat) :
    (goneLookup x f pass1 meta_ r base act).eng.core = x.core := by
  unfold goneLookup; (repeat' split) <;> simp_all
@[simp] theorem headGone_core (part : Part) (e : EngId) (p i act reason : Nat) (f : Frame) (a : Arriving) (x : Engine) :
    (headGone part e p i act reason f a x).core = x.core := by
  unfold headGone
  extract_lets h f1 adm
  rw [Engine.putArriving_core]
  unfold adm
  rw [admitFrame_core]
  exact goneLookup_core _ _ _ _ _ _ _
@[simp] theorem headData_core (part : Part) (e : EngId) (p : ℕ) (interp : ℕ) (bs : List Byte) (jabber : Bool) (sample : Option ℕ) (x0 : Engine) :
    (headData part e p interp bs jabber sample x0).core = x0.core := by
  unfold headData; dsimp only; (repeat' split) <;> simp_all
@[simp] theorem sampleChoice_core (draw : ℕ) (p : ℕ) (stamp : Stamp) (x : Engine) :
    (sampleChoice draw p stamp x).2.core = x.core := by
  unfold sampleChoice; dsimp only; (repeat' split) <;> simp_all
@[simp] theorem handshake_core (part : Part) (k : Fin 10 × Nat) (x : Engine) :
    (handshake part k x).core = x.core := by
  unfold handshake; (repeat' split) <;> simp_all
@[simp] theorem handshakes_core (part : Part) (ks : List (Fin 10 × Nat)) (x : Engine) :
    (handshakes part ks x).core = x.core := by
  simp [handshakes]
@[simp] theorem settlePauses_core (p : Nat) (x : Engine) :
    (settlePauses p x).core = x.core := by
  simp [settlePauses]
@[simp] theorem macControl_core (p : Nat) (op : Nat) (vec : BitVec 8) (quanta : Nat → Nat) (x : Engine) :
    (macControl p op vec quanta x).core = x.core := by
  unfold macControl; dsimp only; (repeat' split) <;> simp_all
@[simp] theorem offerTrap_core (part : Part) (i : Nat) (reason : Nat) (x : Engine) :
    (offerTrap part i reason x).core = x.core := by
  unfold offerTrap; dsimp only; (repeat' split) <;> simp_all
@[simp] theorem offerTraps_core (part : Part) (i : Nat) (l : List Nat) (x : Engine) : (offerTraps part i l x).2.core = x.core := by
  induction l generalizing x with
  | nil => rfl
  | cons n rest ih =>
    unfold offerTraps
    extract_lets took
    split
    next m y hy =>
    have k := ih (if n = 0 then x else offerTrap part i n x)
    rw [hy] at k
    dsimp only at k ⊢
    rw [k]
    split
    · rfl
    · simp
@[simp] theorem lateTrap_core (part : Part) (e : EngId) (i reason : Nat) (x : Engine) :
    (lateTrap part e i reason x).2.core = x.core := by
  unfold lateTrap
  split
  · rfl
  · split
    · dsimp only
      split <;> simp
    · simp
@[simp] theorem tailBad_core (part : Part) (e : EngId) (p cause : Nat) (a : Arriving) (x0 : Engine) :
    (tailBad part e p cause a x0).core = x0.core := by
  unfold tailBad
  extract_lets i mark x conf x1 y trapIt
  have h0 : x.core = x0.core := by unfold x; split <;> simp
  have h1 : x1.core = x0.core := by
    unfold x1
    split
    · split <;> simp [h0]
    · exact h0
  have hy : y.core = x0.core := by unfold y; simp [h1]
  clear_value y x1 x trapIt conf mark
  split
  next took z hz =>
  have h2 : z.core = x0.core := by
    split at hz
    · have k := lateTrap_core part e i 2 y
      rw [hz] at k
      rw [← hy]; exact k
    · simp only [Prod.mk.injEq] at hz; rw [← hz.2, hy]
  dsimp only
  rw [unref_core]
  split <;> split <;> simp [h2]
@[simp] theorem learnSource_core (e : EngId) (port : Nat) (vid : Nat) (mac : Nat) (x : Engine) :
    (learnSource e port vid mac x).eng.core = x.core := by
  unfold learnSource; dsimp only; (repeat' split) <;> simp_all
@[simp] theorem queueCopy_core (part : Part) (e : EngId) (c : Copy) (x : Engine) :
    (queueCopy part e c x).core = x.core := by
  unfold queueCopy; (repeat' split) <;> simp_all
@[simp] theorem offerCopy_core (part : Part) (e : EngId) (c : Copy) (x : Engine) :
    (offerCopy part e c x).core = x.core := by
  unfold offerCopy; dsimp only; (repeat' split) <;> simp_all
@[simp] theorem peerAnswer_core (d : Nat) (p : Nat) (bs : List Byte) (o : Nat) (stamp : Stamp) (x : Engine) :
    (peerAnswer d p bs o stamp x).core = x.core := by
  unfold peerAnswer; dsimp only; (repeat' split) <;> simp_all
@[simp] theorem peerMessage_core (d : Nat) (p : Nat) (bs : List Byte) (o : Nat) (stamp : Stamp) (x : Engine) :
    (peerMessage d p bs o stamp x).core = x.core := by
  unfold peerMessage; (repeat' split) <;> simp_all
@[simp] theorem slaveResp_core (d : Nat) (p : Nat) (bs : List Byte) (o : Nat) (x : Engine) :
    (slaveResp d p bs o x).core = x.core := by
  unfold slaveResp; dsimp only; (repeat' split) <;> simp_all
@[simp] theorem lapseSyncs_core (d : Nat) (p : Nat) (x : Engine) :
    (lapseSyncs d p x).core = x.core := by
  unfold lapseSyncs; dsimp only; (repeat' split) <;> simp_all
@[simp] theorem ptpSample_core (d : Nat) (p : Nat) (theta : Int) (phi : Int) (a4 : Int) (x : Engine) :
    (ptpSample d p theta phi a4 x).core = x.core := by
  unfold ptpSample; dsimp only; (repeat' split) <;> simp_all
@[simp] theorem syncDone_core (d : Nat) (p : Nat) (ms : Int) (delta : Int) (phi : Int) (a5 : Int) (x : Engine) :
    (syncDone d p ms delta phi a5 x).core = x.core := by
  unfold syncDone; dsimp only; (repeat' split) <;> simp_all
@[simp] theorem slaveSync_core (d : ℕ) (p : ℕ) (bs : List Byte) (o : ℕ) (stamp : Stamp) (phi : ℤ) (a6 : ℤ) (x0 : Engine) :
    (slaveSync d p bs o stamp phi a6 x0).core = x0.core := by
  unfold slaveSync; dsimp only; (repeat' split) <;> simp_all
@[simp] theorem ptpTaken_core (d : ℕ) (p : ℕ) (bs : List Byte) (o : ℕ) (stamp : Stamp) (phi : ℤ) (a6 : ℤ) (x0 : Engine) :
    (ptpTaken d p bs o stamp phi a6 x0).core = x0.core := by
  unfold ptpTaken; dsimp only; (repeat' split) <;> simp_all
@[simp] theorem tailPtp_core (fate : PtpFate) (p : ℕ) (mpd : ℕ) (f : Frame) (x : Engine) :
    (tailPtp fate p mpd f x).core = x.core := by
  unfold tailPtp; (repeat' split) <;> simp_all
@[simp] theorem tailGood_core (part : Part) (e : EngId) (p mpd : Nat) (a : Arriving) (x : Engine) :
    (tailGood part e p mpd a x).core = x.core := by
  unfold tailGood
  extract_lets i bs gone
  split
  · rfl
  · next f0 _ =>
    extract_lets prp f
    clear_value f prp
    split
    next dup x2 hd =>
    have h2 : x2.core = x.core := by
      cases prp with
      | none => simp only [Prod.mk.injEq] at hd; rw [← hd.2]
      | some n =>
        have k := dupCheck_core p (bytesAt bs 6 6) n x
        dsimp only at hd
        rw [hd] at k
        exact k
    extract_lets x3 l x4 x5 x6
    have h3 : x3.core = x.core := by unfold x3; rw [Engine.putFrame_core, h2]
    have hl : l.eng.core = x.core := by unfold l; split <;> simp [h3]
    have h4 : x4.core = x.core := by unfold x4; split <;> simp [hl]
    have h5 : x5.core = x.core := by unfold x5; simp [h4]
    have h6 : x6.core = x.core := by rw [← h5]; exact foldl_core _ (fun y c => by simp) _ _
    have hg (k c : Nat) (y : Engine) : (gone k c y).core = y.core := by
      unfold gone
      dsimp only
      rw [unref_core, sampleEnds_core]
      have hz : ((a.copies.foldl (fun w k => discardCopy part e c k w) (if k = 0 then y else y.bumpPort p k))).core = y.core := by
        rw [foldl_core _ (fun y c => by simp)]
        split <;> simp
      split <;> simp [hz]
    clear_value x6 x5 x4 l x3 gone
    split
    · rw [hg, digestFrame_core, h3]
    · split
      · rw [unref_core, sampleEnds_core, digestFrame_core, h3]
      · split
        · rw [hg, h4]
        · split
          next took x7a ht =>
          have h7 : x7a.core = x.core := by
            have k := offerTraps_core part i [a.trap, a.host] x6
            rw [ht] at k
            rw [← h6]; exact k
          extract_lets x7
          have h8 : x7.core = x.core := by unfold x7; simp [h7]
          split
          · rw [enterRound_core, h8]
          · rw [unref_core, sampleEnds_core, h8]
@[simp] theorem governor_core (x : Engine) :
    (governor x).core = x.core := by
  unfold governor; dsimp only; (repeat' split) <;> simp_all
@[simp] theorem supFault_core (x : Engine) :
    (supFault x).core = x.core := by
  unfold supFault; (repeat' split) <;> simp_all
@[simp] theorem stopRings_core (x : Engine) :
    (stopRings x).core = x.core := by
  simp [stopRings]
@[simp] theorem sendClassified_core (part : Part) (e : EngId) (h : List Word) (f : Frame) (x : Engine) :
    (sendClassified part e h f x).core = x.core := by
  unfold sendClassified
  split
  next i y hy =>
  have h0 : y.core = x.core := by
    have k := Engine.addFrame_core x f
    rw [hy] at k
    exact k
  extract_lets adm tag refused z r vid l
  have ha : adm.eng.core = x.core := by unfold adm; rw [admitFrame_core, h0]
  have hr (c : Nat) (z : Engine) : (refused c z).core = z.core := by
    unfold refused
    rw [unref_core, stampLost_core, sampleEnds_core]
  have hz : z.core = x.core := by unfold z; rw [crossWhole_core, ha]
  have hl : l.eng.core = x.core := by unfold l; split <;> simp [hz]
  clear_value refused l adm
  repeat' split
  all_goals simp only [hr, ha, hl, enterRound_core]
@[simp] theorem sendDirect_core (part : Part) (e : EngId) (h : List Word) (f0 : Frame) (x : Engine) :
    (sendDirect part e h f0 x).core = x.core := by
  unfold sendDirect
  extract_lets w launch f
  split
  next i y hy =>
  have h0 : y.core = x.core := by
    have k := Engine.addFrame_core x f
    rw [hy] at k
    exact k
  extract_lets c adm
  rw [unref_core, crossWhole_core, foldl_core _ (fun y c => by simp)]
  unfold adm
  rw [admitFrame_core, h0]
@[simp] theorem sendBuffer_core (part : Part) (e : EngId) (j : Nat) (draw : Nat) (bs : List Byte) (x : Engine) :
    (sendBuffer part e j draw bs x).core = x.core := by
  unfold sendBuffer
  extract_lets h frame w y0 data y classify stamp
  have hy : y.core = x.core := by unfold y; simp
  clear_value y
  split
  · split <;> simp [y0]
  · split
    · split <;> simp [hy]
    · split
      next sample z hs =>
      have hz : z.core = x.core := by
        split at hs
        · have k := sampleChoice_core draw 32 stamp y
          rw [hs] at k
          rw [← hy]; exact k
        · simp only [Prod.mk.injEq] at hs
          rw [← hs.2, hy]
      dsimp only
      split <;> simp [hz]
@[simp] theorem sendFetch_core (part : Part) (e : EngId) (j : Nat) (draw : Nat) (x : Engine) :
    (sendFetch part e j draw x).core = x.core := by
  unfold sendFetch; (repeat' split) <;> simp_all
@[simp] theorem loseFine_core (x : Engine) :
    (loseFine x).core = x.core := by
  unfold loseFine; (repeat' split) <;> simp_all
@[simp] theorem fineWindow_core (dev : Int) (x : Engine) :
    (fineWindow dev x).core = x.core := by
  unfold fineWindow; dsimp only; (repeat' split) <;> simp_all
@[simp] theorem pcieDown_core (part : Part) (e : EngId) (x : Engine) :
    (pcieDown part e x).core = x.core := by
  simp [pcieDown]
@[simp] theorem retryResidue_core (part : Part) (e : EngId) (p : Nat) (c : Nat) (x : Engine) :
    (retryResidue part e p c x).core = x.core := by
  unfold retryResidue; (repeat' split) <;> simp_all
@[simp] theorem handOutputs_core (diffs : Vector Int 12) (x0 : Engine) :
    (handOutputs diffs x0).core = x0.core := by
  simp [handOutputs]
@[simp] theorem repeatXoff_core (p : Nat) (x : Engine) : (repeatXoff p x).core = x.core := by
  unfold repeatXoff
  dsimp only
  split
  · rfl
  · split
    · exact foldl_core _ (fun y p => by split <;> simp) _ _
    · split <;> simp
@[simp] theorem judgeOscDrift_core (d : Nat) (x : Engine) :
    (judgeOscDrift d x).core = x.core := by
  unfold judgeOscDrift; dsimp only; (repeat' split) <;> simp_all
@[simp] theorem measure_core (r : Nat) (f ph : Int) (x : Engine) : (measure r f ph x).core = x.core := by
  unfold measure
  extract_lets v y z q d soft steep wide beyond
  have hz : z.core = x.core := by 
    unfold z
    split
    · rw [judgeOscDrift_core]; exact Engine.modRef_core x r _
    · exact Engine.modRef_core x r _
  clear_value z
  repeat' split
  all_goals exact hz
@[simp] theorem repairPass_core (base : Nat) (x : Engine) :
    (repairPass base x).core = x.core := by
  simp [repairPass]
@[simp] theorem leaveRound_core (i : Nat) (x : Engine) :
    (leaveRound i x).core = x.core := by
  unfold leaveRound; (repeat' split) <;> simp_all
@[simp] theorem roundOut_core (part : Part) (e : EngId) (i : Nat) (traps : List Nat) (adm : Admitted) :
    (roundOut part e i traps adm).2.core = adm.eng.core := by
  unfold roundOut
  extract_lets x
  have hx : x.core = adm.eng.core := foldl_core _ (fun y c => by simp) _ _
  clear_value x
  split
  next took y hy =>
  dsimp only
  rw [crossWhole_core, ← hx]
  split at hy
  · have k := offerTraps_core part i traps x
    rw [hy] at k
    exact k
  · simp only [Prod.mk.injEq] at hy; rw [← hy.2]
@[simp] theorem roundDecide_core (part : Part) (e : EngId) (k : RoundEntry) (mpd gone meta_ base : Nat) (r : ParseResult) (f : Frame)
    (x : Engine) : (roundDecide part e k mpd gone meta_ base r f x).core = x.core := by
  unfold roundDecide
  extract_lets i pass1 h act x1 cls inner tag
  have h0 : h.eng.core = x.core := by unfold h; rw [lookupRule_core]; split <;> simp
  have h1 : x1.core = x.core := by unfold x1; split <;> simp [h0]
  clear_value x1 h cls act
  split
  next red yellow x2 hm =>
  have h2 : x2.core = x.core := by
    have := meterAct_core act f.bytes.length x1
    rw [hm] at this
    rw [← h1]; exact this
  extract_lets f1 trap
  clear_value f1
  split
  next mirror x3 hr =>
  have h3 : x3.core = x.core := by
    rw [← h2]
    split at hr
    · simp only [Prod.mk.injEq] at hr; rw [← hr.2]
    · have := mirrorCopy_core part i f1 act x2
      rw [hr] at this
      exact this
  split
  next da vid _ =>
  extract_lets d host copies several f2 flags y adm
  have hd : d.eng.core = x.core := by unfold d; rw [decideFrame_core, h3]
  have hy : y.core = x.core := by unfold y; rw [digestFrame_core, hd]
  have ha : adm.eng.core = x.core := by unfold adm; rw [admitFrame_core, hy]
  clear_value adm y d
  split
  next took w hw =>
  have hr := roundOut_core part e i [trap, host] adm
  rw [hw] at hr
  dsimp only at hr ⊢
  rw [unref_core, sampleEnds_core, tailPtp_core, stampLost_core, hr, ha]
@[simp] theorem roundGone_core (part : Part) (e : EngId) (k : RoundEntry) (meta_ base act reason : Nat) (r : ParseResult) (f : Frame)
    (x0 : Engine) : (roundGone part e k meta_ base act reason r f x0).core = x0.core := by
  unfold roundGone
  extract_lets i pass1 h cls f1 x flags adm
  have h0 : h.eng.core = x0.core := goneLookup_core _ _ _ _ _ _ _
  have h1 : x.core = x0.core := by unfold x; split <;> simp [h0]
  have ha : adm.eng.core = x0.core := by unfold adm; rw [admitFrame_core, digestFrame_core, h1]
  clear_value adm x h
  split
  next took w hw =>
  have hr := roundOut_core part e i [if act = 2 then reason else 0] adm
  rw [hw] at hr
  dsimp only at hr ⊢
  rw [unref_core, sampleEnds_core, stampLost_core, hr, ha]
@[simp] theorem roundParsed_core (part : Part) (e : EngId) (k : RoundEntry) (mpd meta_ base : Nat) (r : ParseResult) (f0 : Frame)
    (x : Engine) : (roundParsed part e k mpd meta_ base r f0 x).core = x.core := by
  unfold roundParsed
  extract_lets p x1 x1a y ps x2 x3 f z
  have h1 : x1.core = x.core := by unfold x1; split <;> simp
  have h1a : x1a.core = x.core := by unfold x1a; split <;> simp [h1]
  have h2 : x2.core = x.core := by unfold x2 y; split <;> simp [h1a]
  clear_value x2
  have h3 : x3.core = x.core := by unfold x3; split <;> simp [h2]
  clear_value x3 f
  split
  next act reason _ =>
  have hz : z.core = x.core := by unfold z; rw [Engine.putFrame_core, h3]
  clear_value z
  split <;> simp [hz]
@[simp] theorem roundOne_core (part : Part) (e : EngId) (mpd : Nat) (k : RoundEntry) (x : Engine) :
    (roundOne part e mpd k x).core = x.core := by
  unfold roundOne
  extract_lets y
  have hy : y.core = x.core := leaveRound_core _ _
  clear_value y
  split
  · exact hy
  · split
    · rw [dropRound_core, hy]
    · split
      · split
        · rw [dropRound_core, Engine.bump_core, hy]
        · dsimp only; rw [roundParsed_core, hy]
      · dsimp only
        rw [roundParsed_core]
        split <;> simp [hy]
@[simp] theorem runningCommit_core (follow : Bool) (x : Engine) (y : Engine) :
    (runningCommit follow x y).core = y.core := by
  simp [runningCommit]
@[simp] theorem sampleRoom_core (x : Engine) :
    (sampleRoom x).2.core = x.core := by
  unfold sampleRoom; (repeat' split) <;> simp_all
@[simp] theorem putSamples_core (e : EngId) (l : List (List Word)) (x : Engine) : (putSamples e l x).2.core = x.core := by
  induction l generalizing x with
  | nil => rfl
  | cons b rest ih =>
    unfold putSamples
    split
    next ok y hy =>
    have k : y.core = x.core := by
      have k := sampleRoom_core x
      rw [hy] at k
      exact k
    split <;> simp [ih, k]
@[simp] theorem moveSamples_core (p : Part) (e : EngId) (x : Engine) : (moveSamples p e x).core = x.core := by
  unfold moveSamples
  dsimp only
  split <;> simp
@[simp] theorem lapseAll_core (x : Engine) : (lapseAll x).core = x.core := by
  unfold lapseAll
  exact foldl_core _ (fun y d => foldl_core _ (fun z p => by split <;> simp) _ _) _ _
@[simp] theorem putPolicies_core (x : Engine) :
    (putPolicies x).core = x.core := by
  simp [putPolicies]
@[simp] theorem refJudge_core (e : EngId) (r : Nat) (x : Engine) :
    (refJudge e r x).core = x.core := by
  unfold refJudge; dsimp only; (repeat' split) <;> simp_all
@[simp] theorem refQualify_core (e : EngId) (r : Nat) (cause : Nat) (period : Nat) (x : Engine) :
    (refQualify e r cause period x).core = x.core := by
  simp [refQualify]
@[simp] theorem refLeave_core (part : Part) (e : EngId) (r : Nat) (x : Engine) : (refLeave part e r x).core = x.core := by
  unfold refLeave
  extract_lets q orphan x1 k
  have h1 : x1.core = x.core := by
    unfold x1
    (repeat' split) <;> simp only [refEnter_core, Engine.modRef_core]
  rw [← h1]
  clear_value x1 k
  repeat' split
  all_goals simp only [refQualify_core, Engine.modRef_core]
@[simp] theorem refLose_core (e : EngId) (r : Nat) (x : Engine) :
    (refLose e r x).core = x.core := by
  unfold refLose; dsimp only; (repeat' split) <;> simp_all
@[simp] theorem refRipen_core (e : EngId) (r : Nat) (x : Engine) :
    (refRipen e r x).core = x.core := by
  unfold refRipen; dsimp only; (repeat' split) <;> simp_all
@[simp] theorem refTransitions_core (part : Part) (e : EngId) (x : Engine) : (refTransitions part e x).core = x.core := by
  unfold refTransitions
  rw [eachRef_core _ (fun r y => refRipen_core _ _ _), eachRef_core _ (fun r y => refJudge_core _ _ _),
    eachRef_core _ (fun r y => refLose_core _ _ _), eachRef_core _ (fun r y => refLeave_core _ _ _ _)]
@[simp] theorem loopStage_core (d : Nat) (x : Engine) :
    (loopStage d x).core = x.core := by
  unfold loopStage; dsimp only; (repeat' split) <;> simp_all
@[simp] theorem loopValues_core (d : Nat) (f : Int) (th : Int) (x : Engine) :
    (loopValues d f th x).core = x.core := by
  simp [loopValues]
@[simp] theorem recordHistory_core (d : Nat) (x : Engine) : (recordHistory d x).core = x.core := by
  unfold recordHistory
  extract_lets
  rw [apply_ite Engine.core, Engine.modSlot_core, Engine.modSlot_core, ite_self]
@[simp] theorem servoLock_core (d : Nat) (x : Engine) :
    (servoLock d x).core = x.core := by
  unfold servoLock; dsimp only; (repeat' split) <;> simp_all
@[simp] theorem servoStep_core (d : Nat) (x : Engine) :
    (servoStep d x).core = x.core := by
  unfold servoStep; dsimp only; (repeat' split) <;> simp_all
@[simp] theorem steerInc_core (inc : Nat) (x : Engine) :
    (steerInc inc x).core = x.core := by
  unfold steerInc; dsimp only; (repeat' split) <;> simp_all
@[simp] theorem runLoops_core (f0 : Int) (th0 : Int) (f1 : Int) (th1 : Int) (inc : Nat) (x : Engine) :
    (runLoops f0 th0 f1 th1 inc x).core = x.core := by
  simp [runLoops]
@[simp] theorem shadowLoops_core (a : Engine) (f0 : Int) (f1 : Int) (inc : Nat) (x : Engine) :
    (shadowLoops a f0 f1 inc x).core = x.core := by
  simp [shadowLoops]
@[simp] theorem slewBuildOut_core (d : Nat) (x : Engine) :
    (slewBuildOut d x).core = x.core := by
  unfold slewBuildOut; dsimp only; (repeat' split) <;> simp_all
@[simp] theorem slewTheta_core (d : Nat) (x : Engine) :
    (slewTheta d x).core = x.core := by
  unfold slewTheta; dsimp only; (repeat' split) <;> simp_all
@[simp] theorem switchInstant_core (was : Engine) (x : Engine) :
    (switchInstant was x).core = x.core := by
  unfold switchInstant; (repeat' split) <;> simp_all
@[simp] theorem servoUpdate_core (part : Part) (e : EngId) (peer : Option Engine) (f0 th0 f1 th1 : Int) (inc : Nat) (x : Engine) :
    (servoUpdate part e peer f0 th0 f1 th1 inc x).core = x.core := by
  unfold servoUpdate
  extract_lets y a b h
  have hy : y.core = x.core := by unfold y; simp
  have ha : a.core = x.core := by unfold a; simp [hy]
  have hb : b.core = x.core := by unfold b; simp [ha]
  have hh : h.core = x.core := by unfold h; split <;> simp [hb]
  rw [Engine.failCal_core, hh]
@[simp] theorem writeSnapshot_core (p : Part) (e : EngId) (x : Engine) : (writeSnapshot p e x).core = x.core := by
  unfold writeSnapshot
  split
  · rfl
  · dsimp only
    split
    · next q _ _ =>
      have h (l : List Nat) (r : Bool × Engine) : (l.foldl (fun r seg =>
          let (ok, w) := if r.1 then takesRecord 3 snapRecordWords r.2 else r
          (ok, if ok then writeRecord e 3 { type := 0x08, body := segmentBody p e q seg } w else w)) r).2.core = r.2.core := by
        induction l generalizing r with
        | nil => rfl
        | cons a l ih =>
          rw [List.foldl_cons, ih]
          dsimp only
          split <;> simp
          all_goals split <;> simp
      split
      · exact h _ _
      · rw [Engine.bump_core]; exact h _ _
    · simp
@[simp] theorem monitorWindow_core (part : Part) (speeds : Vector Nat 12) (x : Engine) :
    (monitorWindow part speeds x).core = x.core := by
  unfold monitorWindow
  extract_lets old ks at_ used m2 floor new inc low s1 y fresh told z s2 s3 w
  have hz : z.core = x.core := by
    cases hf : fresh with
    | nil => simp only [z, hf]; rfl
    | cons a rest =>
      simp only [z, hf]
      rw [foldl_core _ (fun y k => by simp)]
      simp [told, y]
  clear_value z
  split
  · split
    · exact hz
    · split <;> simp [w, hz]
  · exact hz
@[simp] theorem heldWindow_core (part : Part) (speeds : Vector ℕ 12) (x : Engine) :
    (heldWindow part speeds x).core = x.core := by
  simp [heldWindow]
@[simp] theorem restartPort_core (x : Engine) (p : Nat) :
    (restartPort x p).core = x.core := by
  unfold restartPort; dsimp only; (repeat' split) <;> simp_all
@[simp] theorem steeredAway_core (part : Part) (e : EngId) (x : Engine) :
    (steeredAway part e x).core = x.core := by
  simp [steeredAway]
@[simp] theorem syntLost_core (part : Part) (incNew : Nat) (phase : Int) (x : Engine) :
    (syntLost part incNew phase x).core = x.core := by
  unfold syntLost; dsimp only; (repeat' split) <;> simp_all
@[simp] theorem markAm_core (i : Nat) (x : Engine) :
    (markAm i x).core = x.core := by
  simp [markAm]
@[simp] theorem voidEntry_core (t : TableId) (i : Nat) (x : Engine) :
    (voidEntry t i x).core = x.core := by
  unfold voidEntry; (repeat' split) <;> simp_all
@[simp] theorem tableUncorrectable_core (part : Part) (t : TableId) (i : Nat) (x : Engine) :
    (tableUncorrectable part t i x).core = x.core := by
  unfold tableUncorrectable; dsimp only; (repeat' split) <;> simp_all
@[simp] theorem phaseMeasured_core (err : Int) (heldUs : Nat) (a : TimeState) (x : Engine) :
    (phaseMeasured err heldUs a x).core = x.core := by
  unfold phaseMeasured; dsimp only; (repeat' split) <;> simp_all
theorem preempt_core (p interp : Nat) (t : Tx) (x y : Engine) (h : preempt p interp t x = some y) : y.core = x.core := by
  simp only [preempt, Option.ite_none_right_eq_some, Option.some.injEq] at h
  obtain ⟨-, rfl⟩ := h
  split <;> simp
@[simp] theorem resumeCut_core (p : Nat) (t25 : Nat) (x : Engine) :
    (resumeCut p t25 x).core = x.core := by
  unfold resumeCut; dsimp only; (repeat' split) <;> simp_all
@[simp] theorem takeHead.endTrapped_core (part : Part) (e : EngId) (took : Bool) (c : Copy) (x : Engine) :
    (takeHead.endTrapped part e took c x).core = x.core := by
  unfold takeHead.endTrapped; (repeat' split) <;> simp_all
@[simp] theorem takeHead_core (part : Part) (e : EngId) (p : ℕ) (q : ℕ) (interp : ℕ) (flaws : List (ℕ × WordOutcome)) (x : Engine) :
    (takeHead part e p q interp flaws x).1.core = x.core := by
  unfold takeHead; dsimp only; (repeat' split) <;> simp_all
theorem takeLaunch_core (part : Part) (e : EngId) (p interp : Nat) (flaws : List (Nat × WordOutcome)) (x : Engine) (r : Engine × Bool)
    (h : takeLaunch part e p interp flaws x = some r) : r.1.core = x.core := by
  unfold takeLaunch at h
  dsimp only at h
  repeat' split at h
  all_goals simp only [Option.some.injEq, reduceCtorEq] at h
  all_goals (subst h; dsimp only; (repeat' split) <;> simp)
@[simp] theorem serve_core (part : Part) (e : EngId) (p interp : Nat) (flaws : List (Nat × WordOutcome)) (n : Nat) (x : Engine) :
    (serve part e p interp flaws n x).core = x.core := by
  induction n generalizing x flaws with
  | zero => rfl
  | succ n ih =>
    simp only [serve]
    split
    · split <;> simp
    · split
      · next y started h =>
        have k := takeLaunch_core _ _ _ _ _ _ _ h
        split
        · exact k
        · rw [ih]; exact k
      · split
        · next q y h =>
          have k := Engine.pickClass_core _ _ _ _ _ h
          split
          · rw [takeHead_core]; exact k
          · rw [ih, takeHead_core]; exact k
        · simp
@[simp] theorem opportunity_core (part : Part) (e : EngId) (p interp : Nat) (flaws : List (Nat × WordOutcome)) (x : Engine) :
    (opportunity part e p interp flaws x).core = x.core := by
  unfold opportunity
  dsimp only
  repeat' split
  all_goals first
    | (simp only [serve_core, countGuard_core, chargeService_core, beginCopy_core, refillPort_core, Engine.raise_core, Engine.bumpPort_core,
        Engine.modEgPort_core]; done)
    | (rename_i h; simp only [serve_core, countGuard_core, preempt_core _ _ _ _ _ h, refillPort_core])
end Sys2Proof.Machine
end

