-- ==== Sys2Proof/Laws/Calm.lean ====
section
/-! SUPPORT. What no command but those of the supply changes: the part, the queue and the supply (`Calm`), one lemma for every
operation on the module, for every host command (`Tame`) and for every command of the table (`Fine`). -/

namespace Sys2Proof.Machine

/-- A phase that an engine may be in after `s`: out of operation, or one that it may be in because it was in operation in `s`
or has power there. -/
def PhaseFrom (s : State) (e : EngId) (p : EngPhase) : Prop :=
  p = .off ∨ p = .held ∨ (s.eng e).awake = true ∨ (s.power.railsUp = true ∧ engFitted s.part e = true)

/-- What no command but those of the supply changes: the part, the queue, the supply; RAILS_GOOD can only go low, the start-up only
reach its last step, and an engine comes into operation only while the rails are up. -/
structure Calm (s t : State) : Prop where
  part : t.part = s.part
  pending : t.pending = s.pending
  supplyValid : t.power.supplyValid = s.power.supplyValid
  brownOut : t.power.brownOut = s.power.brownOut
  railsUp : t.power.railsUp = s.power.railsUp
  railsGood : t.power.railsGood = true → s.power.railsGood = true
  startStep : t.power.startStep = s.power.startStep ∨ (t.power.startStep = 5 ∧ s.power.railsUp = true)
  phaseA : PhaseFrom s .a t.engA.core.phase
  phaseB : PhaseFrom s .b t.engB.core.phase

theorem phaseFrom_self (s : State) (e : EngId) : PhaseFrom s e (s.eng e).core.phase := by
  unfold PhaseFrom Engine.awake
  cases (s.eng e).core.phase <;> simp

theorem calm_refl (s : State) : Calm s s :=
  ⟨rfl, rfl, rfl, rfl, rfl, id, .inl rfl, phaseFrom_self s .a, phaseFrom_self s .b⟩

theorem Calm.phase {s t : State} (h : Calm s t) (e : EngId) : PhaseFrom s e (t.eng e).core.phase := by
  cases e
  · exact h.phaseA
  · exact h.phaseB

/-- An engine replaced by one whose phase the state before allows. -/
theorem setEng_phase_calm {s0 s : State} {e : EngId} {x : Engine} (hx : PhaseFrom s0 e x.core.phase) (h : Calm s0 s) :
    Calm s0 (s.setEng e x) := by
  cases e with
  | a => exact { h with phaseA := hx }
  | b => exact { h with phaseB := hx }

theorem setEng_calm {s0 s : State} {e : EngId} {x : Engine} (hx : x.core.phase = (s.eng e).core.phase) (h : Calm s0 s) :
    Calm s0 (s.setEng e x) := setEng_phase_calm (hx ▸ h.phase e) h

theorem modEng_calm {s0 s : State} {e : EngId} {f : Engine → Engine} (hf : ∀ x, (f x).core.phase = x.core.phase) (h : Calm s0 s) :
    Calm s0 (s.modEng e f) := setEng_calm (hf _) h

theorem modBoth_calm {s0 s : State} {f : Engine → Engine} (hf : ∀ x, (f x).core.phase = x.core.phase) (h : Calm s0 s) :
    Calm s0 (s.modBoth f) := modEng_calm hf (modEng_calm hf h)

/-- An engine put into the phase of a held reset. -/
theorem modEng_held_calm {s0 s : State} {e : EngId} {f : Engine → Engine} (hf : ∀ x, (f x).core.phase = .held) (h : Calm s0 s) :
    Calm s0 (s.modEng e f) := setEng_phase_calm (.inr (.inl (hf _))) h

/-- An engine in operation moved to any phase. -/
theorem modEng_awake_calm {s0 s : State} {e : EngId} {f : Engine → Engine} (ha : (s.eng e).awake = true) (h : Calm s0 s) :
    Calm s0 (s.modEng e f) := by
  refine setEng_phase_calm ?_ h
  have k := h.phase e
  unfold PhaseFrom at k ⊢
  unfold Engine.awake at ha
  revert ha
  rcases k with k | k | k | k
  · rw [k]; simp
  · rw [k]; simp
  · intro _; exact .inr (.inr (.inl k))
  · intro _; exact .inr (.inr (.inr k))

/-- An engine with power moved to any phase. -/
theorem modEng_powered_calm {s0 s : State} {e : EngId} {f : Engine → Engine} (hr : s.power.railsUp = true) (he : engFitted s.part e = true)
    (h : Calm s0 s) : Calm s0 (s.modEng e f) :=
  setEng_phase_calm (.inr (.inr (.inr ⟨h.railsUp ▸ hr, h.part ▸ he⟩))) h

/-- What `Calm` says, of the parts of a state. -/
def CalmParts (s : State) (p : Part) (pe : List Instr) (sv bo ru rg : Bool) (st : Nat) (a b : EngPhase) : Prop :=
  p = s.part ∧ pe = s.pending ∧ sv = s.power.supplyValid ∧ bo = s.power.brownOut ∧ ru = s.power.railsUp
    ∧ (rg = true → s.power.railsGood = true) ∧ (st = s.power.startStep ∨ (st = 5 ∧ s.power.railsUp = true)) ∧ PhaseFrom s .a a
    ∧ PhaseFrom s .b b

theorem mk_calm {s0 : State} {p : Part} {t : Nat} {pw : PowerState} {su : SupState} {fo : FofState} {fl : Vector FwSlot 2}
    {a b : Engine} {fc : Nat} {pe : List Instr} : Calm s0 (State.mk p t pw su fo fl a b fc pe) ↔
    CalmParts s0 p pe pw.supplyValid pw.brownOut pw.railsUp pw.railsGood pw.startStep a.core.phase b.core.phase :=
  ⟨fun h => ⟨h.part, h.pending, h.supplyValid, h.brownOut, h.railsUp, h.railsGood, h.startStep, h.phaseA, h.phaseB⟩,
   fun ⟨h1, h2, h3, h4, h5, h6, h7, h8, h9⟩ => ⟨h1, h2, h3, h4, h5, h6, h7, h8, h9⟩⟩

theorem parts_calm {s0 s : State} (h : Calm s0 s) : CalmParts s0 s.part s.pending s.power.supplyValid s.power.brownOut s.power.railsUp
    s.power.railsGood s.power.startStep s.engA.core.phase s.engB.core.phase := mk_calm.mp h

/-- The same, with RAILS_GOOD taken away. -/
theorem parts_low_calm {s0 s : State} (h : Calm s0 s) : CalmParts s0 s.part s.pending s.power.supplyValid s.power.brownOut
    s.power.railsUp false s.power.startStep s.engA.core.phase s.engB.core.phase :=
  ⟨h.part, h.pending, h.supplyValid, h.brownOut, h.railsUp, nofun, h.startStep, h.phaseA, h.phaseB⟩

theorem foldl_calm {s0 : State} {α : Type} {f : State → α → State} {l : List α} {s : State}
    (hf : ∀ (y : State) (a : α), Calm s0 y → Calm s0 (f y a)) (h : Calm s0 s) : Calm s0 (l.foldl f s) := by
  induction l generalizing s with
  | nil => exact h
  | cons a l ih => exact ih (hf _ _ h)

theorem takeFree_calm {s0 s : State} (h : Calm s0 s) : Calm s0 (takeFree s).2 := mk_calm.mpr (parts_calm h)

/-- A command whose effect is calm. -/
def Tame (sp : CmdSpec) : Prop := ∀ (c : Ctx) (ps : List Word) (s0 s : State), Calm s0 s → Calm s0 (sp.apply c ps s).state

theorem onSelf_calm {s0 s : State} {c : Ctx} {f : Engine → Engine} (hf : ∀ x, (f x).core.phase = x.core.phase) (h : Calm s0 s) :
    Calm s0 (onSelf c f s).state := modEng_calm hf h

/-- An outcome that is calm where it is a next state. -/
structure Fine (s : State) (o : Host.Outcome State Fault Refusal) : Prop where
  calm : ∀ t, o = .next t → Calm s t

theorem next_fine {s0 s : State} (h : Calm s0 s) : Fine s0 (.next s) := ⟨fun _ ht => Host.Outcome.next.inj ht ▸ h⟩

theorem refused_fine {s0 : State} {r : Refusal} : Fine s0 (.refused r) :=
  ⟨fun _ ht => absurd ht (by simp)⟩

theorem onEngine_fine {s0 s : State} {e : EngId} {f : State → State} (hf : Calm s0 s → (s.eng e).awake = true → Calm s0 (f s))
    (h : Calm s0 s) : Fine s0 (onEngine e s f) := by
  unfold onEngine
  split
  · split
    · exact next_fine (hf h ‹_›)
    · exact next_fine h
  · exact refused_fine

theorem onSpi_fine {s0 s : State} {f : SpiState → SpiState} (h : Calm s0 s) : Fine s0 (onSpi s f) := by
  unfold onSpi
  refine next_fine ?_
  split
  · exact mk_calm.mpr (parts_calm h)
  · exact h

theorem onTwin_fine {s0 s : State} {f : State → State} (hf : Calm s0 s → Calm s0 (f s)) (h : Calm s0 s) : Fine s0 (onTwin s f) := by
  unfold onTwin
  split
  · exact next_fine (hf h)
  · exact refused_fine

theorem onUnit_fine {s0 s : State} {u : UnitId} {f : State → State} (hf : Calm s0 s → Calm s0 (f s)) (h : Calm s0 s) :
    Fine s0 (onUnit u s f) := by
  unfold onUnit
  repeat' split
  · exact next_fine (hf h)
  · exact next_fine (hf h)
  · exact refused_fine

/-! ## The operations -/

@[simp] theorem completed_phase (b : Bool) (r : SwitchRun) (x : Engine) : (completed b r x).core.phase = x.core.phase := by simp [completed]
@[simp] theorem linkLost_phase (x : Engine) : (linkLost x).core.phase = x.core.phase := by unfold linkLost; split <;> simp
@[simp] theorem takeControl_phase (n : Nat) (x : Engine) : (takeControl n x).core.phase = x.core.phase := by simp [takeControl, restartDigests, foldl_core]
@[simp] theorem ite_core_phase (c : Prop) [Decidable c] (x y : CoreState) : (if c then x else y).phase = if c then x.phase else y.phase := by split <;> rfl
@[simp] theorem ite_eng_core (c : Prop) [Decidable c] (x y : Engine) : (if c then x else y).core = if c then x.core else y.core := by split <;> rfl

theorem abandonSession_calm {z0 : State} (e : EngId) (s : State) (h : Calm z0 s) : Calm z0 (abandonSession e s) := by
  unfold abandonSession
  repeat' first
    | with_reducible first | exact h | apply modEng_calm
    | (simp only [mk_calm]; with_reducible refine parts_calm ?_)
    | (intro _; (repeat' split) <;> simp; done)
    | split
theorem abandonAll_calm {z0 : State} (s : State) (h : Calm z0 s) : Calm z0 (abandonAll s) := by
  unfold abandonAll
  repeat' first
    | with_reducible first | exact h | apply abandonSession_calm
    | (simp only [mk_calm]; with_reducible refine parts_calm ?_)
    | split
    | dsimp only
theorem deliver_calm {z0 : State} (a : Arrival) (r : Reply) (s : State) (h : Calm z0 s) : Calm z0 (deliver a r s) := by
  unfold deliver
  repeat' first
    | with_reducible first | exact h | apply modEng_calm
    | (simp only [mk_calm]; with_reducible refine parts_calm ?_)
    | (intro _; (repeat' split) <;> simp; done)
    | split
theorem flushWaiting_calm {z0 : State} (e : EngId) (s : State) (h : Calm z0 s) : Calm z0 (flushWaiting e s) := by
  unfold flushWaiting
  repeat' first
    | with_reducible first | exact h | apply deliver_calm | apply modEng_calm | apply foldl_calm
    | (intro _; (repeat' split) <;> simp; done)
    | intro _
theorem complete_calm {z0 : State} (e : EngId) (c : Await) (st : Status) (body : Engine → Waiting → List Word) (s : State) (h : Calm z0 s) : Calm z0 (complete e c st body s) := by
  unfold complete
  repeat' first
    | with_reducible first | exact h | apply flushWaiting_calm | apply setEng_calm
    | (simp; done)
theorem flushSup_calm {z0 : State} (s : State) (h : Calm z0 s) : Calm z0 (flushSup s) := by
  unfold flushSup
  repeat' first
    | with_reducible first | exact h | apply deliver_calm | apply foldl_calm
    | (simp only [mk_calm]; with_reducible refine parts_calm ?_)
    | intro _
theorem completeSup_calm {z0 : State} (c : Await) (st : Status) (body : List Word) (s : State) (h : Calm z0 s) : Calm z0 (completeSup c st body s) := by
  unfold completeSup
  repeat' first
    | with_reducible first | exact h | apply flushSup_calm
    | (simp only [mk_calm]; with_reducible refine parts_calm ?_)
theorem endPlan_calm {z0 : State} (st : Status) (s : State) (h : Calm z0 s) : Calm z0 (endPlan st s) := by
  unfold endPlan
  repeat' first
    | with_reducible first | exact h | apply complete_calm | apply completeSup_calm | apply modBoth_calm
    | (simp only [mk_calm]; with_reducible refine parts_calm ?_)
    | (intro _; (repeat' split) <;> simp; done)
    | split
theorem failSchedule_calm {z0 : State} (s : State) (h : Calm z0 s) : Calm z0 (failSchedule s) := by
  unfold failSchedule
  repeat' first
    | with_reducible first | exact h | apply modEng_calm
    | (simp only [mk_calm]; with_reducible refine parts_calm ?_)
    | (intro _; (repeat' split) <;> simp; done)
    | split
theorem abandonSwap_calm {z0 : State} (plan : SwapPlan) (st : Status) (s : State) (h : Calm z0 s) : Calm z0 (abandonSwap plan st s) := by
  unfold abandonSwap
  repeat' first
    | with_reducible first | exact h | apply endPlan_calm | apply failSchedule_calm | apply modEng_calm
    | (intro _; (repeat' split) <;> simp; done)
    | split
theorem modFw_calm {z0 : State} (u : UnitId) (f : FwUnit → FwUnit) (s : State) (h : Calm z0 s) : Calm z0 (modFw u f s) := by
  unfold modFw
  repeat' first
    | with_reducible first | exact h | apply modEng_calm
    | (simp only [mk_calm]; with_reducible refine parts_calm ?_)
    | (intro _; (repeat' split) <;> simp; done)
    | split
theorem modSlot_calm {z0 : State} (u : UnitId) (i : Nat) (f : FwSlot → FwSlot) (s : State) (h : Calm z0 s) : Calm z0 (modSlot u i f s) := by
  unfold modSlot
  repeat' first
    | with_reducible first | exact h
    | (simp only [mk_calm]; with_reducible refine parts_calm ?_)
    | split
theorem abandonUnit_calm {z0 : State} (u : UnitId) (s : State) (h : Calm z0 s) : Calm z0 (abandonUnit u s) := by
  unfold abandonUnit
  repeat' first
    | with_reducible first | exact h | apply modFw_calm | apply modSlot_calm
    | split
theorem holdCmd_calm {z0 : State} (sp : CmdSpec) (a : Arrival) (ps : List Word) (behind : List (BitVec 16)) (s : State) (h : Calm z0 s) : Calm z0 (holdCmd sp a ps behind s) := by
  unfold holdCmd
  repeat' first
    | with_reducible first | exact h | apply deliver_calm | apply modEng_calm
    | (simp only [mk_calm]; with_reducible refine parts_calm ?_)
    | (intro _; (repeat' split) <;> simp; done)
    | split
theorem bumpStat_calm {z0 : State} (e : EngId) (c : Channel) (f : ChanStat → ChanStat) (s : State) (h : Calm z0 s) : Calm z0 (bumpStat e c f s) := by
  unfold bumpStat
  repeat' first
    | with_reducible first | exact h | apply modEng_calm
    | (intro _; (repeat' split) <;> simp; done)
theorem countDup_calm {z0 : State} (a : Arrival) (s : State) (h : Calm z0 s) : Calm z0 (countDup a s) := by
  unfold countDup
  repeat' first
    | with_reducible first | exact h | apply bumpStat_calm
    | (simp only [mk_calm]; with_reducible refine parts_calm ?_)
    | split
theorem dropReplay_calm {z0 : State} (a : Arrival) (s : State) (h : Calm z0 s) : Calm z0 (dropReplay a s) := by
  unfold dropReplay
  repeat' first
    | with_reducible first | exact h | apply modEng_calm
    | (simp only [mk_calm]; with_reducible refine parts_calm ?_)
    | (intro _; (repeat' split) <;> simp; done)
    | split
theorem takeTag_calm {z0 : State} (a : Arrival) (s : State) (h : Calm z0 s) : Calm z0 (takeTag a s) := by
  unfold takeTag
  repeat' first
    | with_reducible first | exact h | apply modEng_calm
    | (simp only [mk_calm]; with_reducible refine parts_calm ?_)
    | (intro _; (repeat' split) <;> simp; done)
    | split
theorem intake_calm {s0 : State} (a : Arrival) (go : List (BitVec 16) → State → State) (s : State)
    (hg : ∀ l t, Calm s0 t → Calm s0 (go l t)) (h : Calm s0 s) : Calm s0 (intake a go s) := by
  unfold intake
  dsimp only
  repeat' split
  · exact countDup_calm _ _ h
  · exact countDup_calm _ _ h
  · exact deliver_calm _ _ _ (takeTag_calm _ _ h)
  · exact hg _ _ (takeTag_calm _ _ (dropReplay_calm _ _ h))
theorem addWaiting_calm {z0 : State} (u : UnitId) (w : Waiting) (s : State) (h : Calm z0 s) : Calm z0 (addWaiting u w s) := by
  unfold addWaiting
  repeat' first
    | with_reducible first | exact h | apply modEng_calm
    | (simp only [mk_calm]; with_reducible refine parts_calm ?_)
    | (intro _; (repeat' split) <;> simp; done)
    | split
theorem commit_calm {z0 : State} (e : EngId) (op : BitVec 16) (ps : List Word) (settled : Option Int) (s : State) (h : Calm z0 s) : Calm z0 (commit e op ps settled s) := by
  unfold commit
  repeat' first
    | with_reducible first | exact h | apply modEng_calm | apply setEng_calm
    | (simp only [mk_calm]; with_reducible refine parts_calm ?_)
    | (intro _; (repeat' split) <;> simp; done)
    | split
    | dsimp only
theorem perform_calm {s0 : State} (sp : CmdSpec) (u : UnitId) (a : Arrival) (fwd : Bool) (ps : List Word) (s : State)
    (ht : Tame sp) (h : Calm s0 s) : Calm s0 (perform sp u a fwd ps s) := by
  unfold perform
  extract_lets r s1 ack rep
  have hr : Calm s0 r.state := ht _ _ _ _ h
  have h1 : Calm s0 s1 := by
    cases u with
    | sup => exact hr
    | eng e =>
      show Calm s0 (if _ then _ else _)
      split
      · exact commit_calm _ _ _ _ _ hr
      · exact hr
  split
  · exact deliver_calm _ _ _ h1
  · exact addWaiting_calm _ _ _ h1
theorem execute_calm {s0 : State} (sp : CmdSpec) (u : UnitId) (a : Arrival) (fwd : Bool) (ps : List Word) (s : State)
    (ht : Tame sp) (h : Calm s0 s) : Calm s0 (execute sp u a fwd ps s) := by
  unfold execute
  split
  · exact deliver_calm _ _ _ h
  · exact perform_calm _ _ _ _ _ _ ht h
theorem routeExec_calm {s0 : State} (sp : CmdSpec) (a : Arrival) (ps : List Word) (s : State) (ht : Tame sp) (h : Calm s0 s) :
    Calm s0 (routeExec sp a ps s) := by
  unfold routeExec
  split
  · exact deliver_calm _ _ _ h
  · exact execute_calm _ _ _ _ _ _ ht h
theorem accept_calm {s0 : State} (sp : CmdSpec) (a : Arrival) (ps : List Word) (s : State) (ht : Tame sp) (h : Calm s0 s) :
    Calm s0 (accept sp a ps s) := by
  unfold accept
  refine intake_calm _ _ _ (fun l t k => ?_) h
  split
  · exact holdCmd_calm _ _ _ _ _ k
  · exact routeExec_calm _ _ _ _ ht k
theorem acceptStep_calm {z0 : State} (c : Ctx) (delta : Int) (applyAt : Nat) (rate : Nat) (s : State) (h : Calm z0 s) : Calm z0 (acceptStep c delta applyAt rate s).state := by
  unfold acceptStep
  repeat' first
    | with_reducible first | exact h | apply modEng_calm
    | (intro _; (repeat' split) <;> simp; done)
    | split
    | dsimp only [Applied.now]
theorem lastMarker_calm {z0 : State} (s : State) (h : Calm z0 s) : Calm z0 (lastMarker s) := by
  unfold lastMarker
  split
  · exact h
  · dsimp only [takeFree]
    split <;> exact mk_calm.mpr (parts_calm h)
theorem activeStops_calm {z0 : State} (e : EngId) (s : State) (h : Calm z0 s) : Calm z0 (activeStops e s) := by
  unfold activeStops
  repeat' first
    | with_reducible first | exact h | apply lastMarker_calm
    | split
theorem enterOffering_calm {s0 : State} (e : EngId) (p : Nat) (fresh : Bool) (s : State) (h : Calm s0 s) :
    Calm s0 (enterOffering e p fresh s) := by
  unfold enterOffering
  cases fresh
  · exact modEng_calm (fun x => by simp) h
  · exact modEng_calm (fun x => by simp) (takeFree_calm h)
theorem ahnudHandle_calm {z0 : State} (e : EngId) (p : Nat) (m : AhnudMsg) (s : State) (h : Calm z0 s) : Calm z0 (ahnudHandle e p m s) := by
  unfold ahnudHandle
  repeat' first
    | with_reducible first | exact h | apply enterOffering_calm | apply modEng_calm
    | (intro _; (repeat' split) <;> simp; done)
    | split
    | dsimp only
theorem ahnudFrame_calm {z0 : State} (e : EngId) (p : Nat) (bs : List Byte) (fcsOk : Bool) (s : State) (h : Calm z0 s) : Calm z0 (ahnudFrame e p bs fcsOk s) := by
  unfold ahnudFrame
  repeat' first
    | with_reducible first | exact h | apply ahnudHandle_calm | apply modEng_calm
    | (intro _; (repeat' split) <;> simp; done)
    | split
    | dsimp only
theorem calGetStatusSpec_calm : Tame calGetStatusSpec := by
  intro c ps s0 s h
  show Calm s0 (calGetStatusSpec.apply c ps s).state
  simp only [calGetStatusSpec, Applied.now, onSelf, readSpec]
  repeat' first
    | with_reducible first | exact h
theorem calRepairSpec_calm : Tame calRepairSpec := by
  intro c ps s0 s h
  show Calm s0 (calRepairSpec.apply c ps s).state
  simp only [calRepairSpec, Applied.now, onSelf, readSpec]
  repeat' first
    | with_reducible first | exact h | apply modEng_calm
    | (intro _; (repeat' split) <;> simp; done)
theorem calRunSpec_calm : Tame calRunSpec := by
  intro c ps s0 s h
  show Calm s0 (calRunSpec.apply c ps s).state
  simp only [calRunSpec, Applied.now, onSelf, readSpec]
  repeat' first
    | with_reducible first | exact h | apply modEng_calm
    | (intro _; (repeat' split) <;> simp; done)
theorem calSetSpec_calm : Tame calSetSpec := by
  intro c ps s0 s h
  show Calm s0 (calSetSpec.apply c ps s).state
  simp only [calSetSpec, Applied.now, onSelf, configSpec]
  repeat' first
    | with_reducible first | exact h | apply modEng_calm
    | (intro _; (repeat' split) <;> simp; done)
theorem dropSwitch_calm {z0 : State} (e : EngId) (s : State) (h : Calm z0 s) : Calm z0 (dropSwitch e s) := by
  unfold dropSwitch
  repeat' first
    | with_reducible first | exact h | apply endPlan_calm
    | (simp only [mk_calm]; with_reducible refine parts_calm ?_)
    | split
theorem lowBalls_calm {z0 : State} (e : EngId) (s : State) (h : Calm z0 s) : Calm z0 (lowBalls e s) := by
  unfold lowBalls
  repeat' first
    | with_reducible first | exact h
    | (simp only [mk_calm]; with_reducible first | refine parts_calm ?_ | refine parts_low_calm ?_)
    | split
theorem reportRole_calm {z0 : State} (e : EngId) (s : State) (h : Calm z0 s) : Calm z0 (reportRole e s) := by
  unfold reportRole
  repeat' first
    | with_reducible first | exact h | apply modEng_calm
    | (simp only [mk_calm]; with_reducible refine parts_calm ?_)
    | (intro _; (repeat' split) <;> simp; done)
    | split
    | dsimp only
theorem setCopy_calm {z0 : State} (c : Nat) (s : State) (h : Calm z0 s) : Calm z0 (setCopy c s) := by
  unfold setCopy
  repeat' first
    | with_reducible first | exact h | apply modBoth_calm
    | (intro _; (repeat' split) <;> simp; done)
theorem idleCopy_calm {z0 : State} (s : State) (h : Calm z0 s) : Calm z0 (idleCopy s) := by
  unfold idleCopy
  repeat' first
    | with_reducible first | exact h | apply setCopy_calm
    | (simp only [mk_calm]; with_reducible refine parts_calm ?_)
    | (intro _; (repeat' split) <;> simp; done)
    | split
    | dsimp only
theorem setRole_calm {z0 : State} (e : EngId) (r : Nat) (s : State) (h : Calm z0 s) : Calm z0 (setRole e r s) := by
  unfold setRole
  repeat' first
    | with_reducible first | exact h | apply idleCopy_calm | apply reportRole_calm | apply modEng_calm
    | (simp only [mk_calm]; with_reducible refine parts_calm ?_)
    | (intro _; (repeat' split) <;> simp; done)
    | split
    | dsimp only
theorem muteCommands_calm {z0 : State} (e : EngId) (s : State) (h : Calm z0 s) : Calm z0 (muteCommands e s) := by
  unfold muteCommands
  repeat' first
    | with_reducible first | exact h | apply modEng_calm
    | (simp only [mk_calm]; with_reducible refine parts_calm ?_)
    | (intro _; (repeat' split) <;> simp; done)
    | split
    | dsimp only
theorem stopRepair_calm {z0 : State} (e : EngId) (s : State) (h : Calm z0 s) : Calm z0 (stopRepair e s) := by
  unfold stopRepair
  dsimp only
  split
  · exact mk_calm.mpr (parts_calm (modEng_calm (fun x => by simp) (takeFree_calm h)))
  · exact h
theorem enterCul_calm {z0 : State} (e : EngId) (s : State) (h : Calm z0 s) : Calm z0 (enterCul e s) := by
  unfold enterCul
  repeat' first
    | with_reducible first | exact h | apply muteCommands_calm | apply stopRepair_calm | apply abandonSession_calm | apply dropSwitch_calm | apply lowBalls_calm | apply setRole_calm | apply modEng_calm
    | (simp only [mk_calm]; with_reducible refine parts_calm ?_)
    | (intro _; (repeat' split) <;> simp; done)
    | split
    | dsimp only
theorem logEntry_calm {z0 : State} (e : EngId) (msg : BitVec 64) (s : State) (h : Calm z0 s) : Calm z0 (logEntry e msg s) := by
  unfold logEntry
  repeat' first
    | with_reducible first | exact h
    | (simp only [mk_calm]; with_reducible refine parts_calm ?_)
theorem cutEngineBurn_calm {z0 : State} (e : EngId) (s : State) (h : Calm z0 s) : Calm z0 (cutEngineBurn e s) := by
  unfold cutEngineBurn
  split
  · exact h
  · exact modEng_calm (fun _ => rfl) (takeFree_calm h)
theorem resetLink_calm {z0 : State} (e : EngId) (s : State) (h : Calm z0 s) : Calm z0 (resetLink e s) := by
  unfold resetLink
  repeat' first
    | with_reducible first | exact h | apply activeStops_calm | apply modEng_calm
    | (simp only [mk_calm]; with_reducible refine parts_calm ?_)
    | (intro _; (repeat' split) <;> simp; done)
    | split
theorem resetEngine_calm {z0 : State} (e : EngId) (s : State) (h : Calm z0 s) : Calm z0 (resetEngine e s) := by
  have h1 := cutEngineBurn_calm e _ (resetLink_calm e _ h)
  have h3 := modEng_held_calm (e := e) (f := engineAfterReset e) (fun _ => rfl)
    (muteCommands_calm e _ (lowBalls_calm e _ (dropSwitch_calm e _ (abandonSession_calm e _ h1))))
  exact setRole_calm e 0 _ (mk_calm.mpr (parts_calm h3))
theorem twinEvent_calm {z0 : State} (e : EngId) (event : Nat) (cause : Nat) (about : EngId) (scrub : Nat) (status : Nat) (genB : Nat) (s : State) (h : Calm z0 s) : Calm z0 (twinEvent e event cause about scrub status genB s) := by
  unfold twinEvent
  repeat' first
    | with_reducible first | exact h | apply modEng_calm
    | (intro _; (repeat' split) <;> simp; done)
theorem fenceEngine_calm {z0 : State} (e : EngId) (s : State) (h : Calm z0 s) : Calm z0 (fenceEngine e s) := by
  unfold fenceEngine
  repeat' first
    | with_reducible first | exact h | apply resetEngine_calm | apply twinEvent_calm | apply modEng_calm
    | (simp only [mk_calm]; with_reducible refine parts_calm ?_)
    | (intro _; (repeat' split) <;> simp; done)
theorem resetOrFence_calm {z0 : State} (e : EngId) (s : State) (h : Calm z0 s) : Calm z0 (resetOrFence e s) := by
  unfold resetOrFence
  repeat' first
    | with_reducible first | exact h | apply fenceEngine_calm | apply resetEngine_calm
    | (simp only [mk_calm]; with_reducible refine parts_calm ?_)
    | split
    | dsimp only
theorem giveUp_calm {z0 : State} (e : EngId) (s : State) (h : Calm z0 s) : Calm z0 (giveUp e s) := by
  unfold giveUp
  repeat' first
    | with_reducible first | exact h | apply muteCommands_calm | apply stopRepair_calm | apply abandonSession_calm | apply activeStops_calm | apply dropSwitch_calm | apply enterCul_calm | apply logEntry_calm | apply resetOrFence_calm | apply setCopy_calm | apply setRole_calm | apply modEng_calm
    | (simp only [mk_calm]; with_reducible refine parts_calm ?_)
    | (intro _; (repeat' split) <;> simp; done)
    | split
    | dsimp only
theorem paceDrop_calm {z0 : State} (e : EngId) (s : State) (h : Calm z0 s) : Calm z0 (paceDrop e s) := by
  unfold paceDrop
  repeat' first
    | with_reducible first | exact h | apply modEng_calm
    | (intro _; (repeat' split) <;> simp; done)
    | split
    | dsimp only
theorem reactF2_calm {z0 : State} (e : EngId) (m : FaultMsg) (s : State) (h : Calm z0 s) : Calm z0 (reactF2 e m s) := by
  unfold reactF2
  repeat' first
    | with_reducible first | exact h | apply giveUp_calm | apply paceDrop_calm | apply modEng_calm
    | (intro _; (repeat' split) <;> simp; done)
    | split
    | dsimp only
theorem reactF3_calm {z0 : State} (e : EngId) (m : FaultMsg) (s : State) (h : Calm z0 s) : Calm z0 (reactF3 e m s) := by
  unfold reactF3
  repeat' first
    | with_reducible first | exact h | apply giveUp_calm | apply modEng_calm
    | (intro _; (repeat' split) <;> simp; done)
    | split
theorem faultActNowSpec_calm : Tame faultActNowSpec := by
  intro c ps s0 s h
  show Calm s0 (faultActNowSpec.apply c ps s).state
  simp only [faultActNowSpec, Applied.now, onSelf, configSpec]
  repeat' first
    | with_reducible first | exact h | apply reactF2_calm | apply reactF3_calm | apply modEng_calm
    | (intro _; (repeat' split) <;> simp; done)
    | split
theorem faultClearInjSpec_calm : Tame faultClearInjSpec := by
  intro c ps s0 s h
  exact (modEng_calm (e := injTarget c ps) (f := fun x => { x with fault := { x.fault with ecc := [] } }) (fun _ => rfl) h :)
theorem faultGetFirstSpec_calm : Tame faultGetFirstSpec := by
  intro c ps s0 s h
  show Calm s0 (faultGetFirstSpec.apply c ps s).state
  simp only [faultGetFirstSpec, Applied.now, onSelf, readSpec]
  repeat' first
    | with_reducible first | exact h
theorem faultInjectEccSpec_calm : Tame faultInjectEccSpec := by
  intro c ps s0 s h
  exact (modEng_calm (e := injTarget c ps) (f := fun x => { x with fault := { x.fault with ecc := x.fault.ecc ++ [eccEntryOf ps] } }) (fun _ => rfl) h :)
theorem faultInjectSpec_calm : Tame faultInjectSpec := by
  intro c ps s0 s h
  show Calm s0 (s.modEng (injTarget c ps) _)
  exact modEng_calm (fun x => by simp) h
theorem faultReadLogSpec_calm : Tame faultReadLogSpec := by
  intro c ps s0 s h
  show Calm s0 (faultReadLogSpec.apply c ps s).state
  simp only [faultReadLogSpec, Applied.now, onSelf, supSpec]
  repeat' first
    | with_reducible first | exact h
theorem leaveReset_calm {s0 : State} (e : EngId) (s : State) (h : Calm s0 s) : Calm s0 (leaveReset e s) := by
  unfold leaveReset
  split
  · have k : engFitted s.part e = true ∧ s.power.railsUp = true := by
      have k := ‹mayLeave e s = true›
      unfold mayLeave at k
      simp only [Bool.and_eq_true] at k
      exact ⟨k.1.1.1.1.1.1, k.1.1.1.1.1.2⟩
    refine modEng_powered_calm (s := { s with power := { s.power with startStep := 5 } }) k.2 k.1 (mk_calm.mpr ?_)
    exact ⟨h.part, h.pending, h.supplyValid, h.brownOut, h.railsUp, h.railsGood, .inr ⟨rfl, h.railsUp ▸ k.2⟩, h.phaseA, h.phaseB⟩
  · exact h
theorem faultReleaseSpec_calm : Tame faultReleaseSpec := by
  intro c ps s0 s h
  exact leaveReset_calm _ _ (resetEngine_calm _ _ h)
theorem faultSetEventsSpec_calm : Tame faultSetEventsSpec := by
  intro c ps s0 s h
  show Calm s0 (faultSetEventsSpec.apply c ps s).state
  simp only [faultSetEventsSpec, Applied.now, onSelf, configSpec]
  repeat' first
    | with_reducible first | exact h | apply modEng_calm
    | (intro _; (repeat' split) <;> simp; done)
theorem faultSetWindowsSpec_calm : Tame faultSetWindowsSpec := by
  intro c ps s0 s h
  show Calm s0 (faultSetWindowsSpec.apply c ps s).state
  simp only [faultSetWindowsSpec, Applied.now, onSelf, configSpec]
  repeat' first
    | with_reducible first | exact h | apply modEng_calm
    | (intro _; (repeat' split) <;> simp; done)
theorem fwGetInfoSpec_calm : Tame fwGetInfoSpec := by
  intro c ps s0 s h
  show Calm s0 (fwGetInfoSpec.apply c ps s).state
  simp only [fwGetInfoSpec, Applied.now, onSelf, fwSpec]
  repeat' first
    | with_reducible first | exact h
theorem fwRestartSpec_calm : Tame fwRestartSpec := by
  intro c ps s0 s h
  show Calm s0 (fwRestartSpec.apply c ps s).state
  simp only [fwRestartSpec, Applied.now, onSelf, fwSpec]
  repeat' first
    | with_reducible first | exact h | apply abandonUnit_calm | apply modFw_calm
theorem fwSelectSlotSpec_calm : Tame fwSelectSlotSpec := by
  intro c ps s0 s h
  show Calm s0 (fwSelectSlotSpec.apply c ps s).state
  simp only [fwSelectSlotSpec, Applied.now, onSelf, fwSpec]
  repeat' first
    | with_reducible first | exact h | apply modFw_calm
    | split
theorem verifySlot_calm {z0 : State} (u : UnitId) (slot : Nat) (s : State) (h : Calm z0 s) : Calm z0 (verifySlot u slot s) := by
  unfold verifySlot
  repeat' first
    | with_reducible first | exact h | apply modFw_calm | apply modSlot_calm
    | split
    | dsimp only
theorem fwVerifyImageSpec_calm : Tame fwVerifyImageSpec := by
  intro c ps s0 s h
  show Calm s0 (fwVerifyImageSpec.apply c ps s).state
  simp only [fwVerifyImageSpec, Applied.now, onSelf, fwSpec]
  repeat' first
    | with_reducible first | exact h | apply verifySlot_calm
theorem fwWriteImageSpec_calm : Tame fwWriteImageSpec := by
  intro c ps s0 s h
  show Calm s0 (fwWriteImageSpec.apply c ps s).state
  simp only [fwWriteImageSpec, Applied.now, onSelf, fwSpec]
  repeat' first
    | with_reducible first | exact h | apply modFw_calm | apply modSlot_calm
theorem fwdAddSpec_calm : Tame fwdAddSpec := by
  intro c ps s0 s h
  show Calm s0 (fwdAddSpec.apply c ps s).state
  simp only [fwdAddSpec, Applied.now, onSelf, configSpec]
  repeat' first
    | with_reducible first | exact h | apply modEng_calm
    | (intro _; (repeat' split) <;> simp; done)
theorem fwdDeleteSpec_calm : Tame fwdDeleteSpec := by
  intro c ps s0 s h
  show Calm s0 (fwdDeleteSpec.apply c ps s).state
  simp only [fwdDeleteSpec, Applied.now, onSelf, configSpec]
  repeat' first
    | with_reducible first | exact h | apply modEng_calm
    | (intro _; (repeat' split) <;> simp; done)
theorem fwdFlushSpec_calm : Tame fwdFlushSpec := by
  intro c ps s0 s h
  show Calm s0 (fwdFlushSpec.apply c ps s).state
  simp only [fwdFlushSpec, Applied.now, onSelf, configSpec]
  repeat' first
    | with_reducible first | exact h | apply modEng_calm
    | (intro _; (repeat' split) <;> simp; done)
theorem fwdLookupSpec_calm : Tame fwdLookupSpec := by
  intro c ps s0 s h
  show Calm s0 (fwdLookupSpec.apply c ps s).state
  simp only [fwdLookupSpec, Applied.now, onSelf, readSpec]
  repeat' first
    | with_reducible first | exact h
    | split
theorem fwdSetAgeingSpec_calm : Tame fwdSetAgeingSpec := by
  intro c ps s0 s h
  show Calm s0 (fwdSetAgeingSpec.apply c ps s).state
  simp only [fwdSetAgeingSpec, Applied.now, onSelf, configSpec]
  repeat' first
    | with_reducible first | exact h | apply modEng_calm
    | (intro _; (repeat' split) <;> simp; done)
theorem fwdSetLearnSpec_calm : Tame fwdSetLearnSpec := by
  intro c ps s0 s h
  show Calm s0 (fwdSetLearnSpec.apply c ps s).state
  simp only [fwdSetLearnSpec, Applied.now, onSelf, portSpec]
  repeat' first
    | with_reducible first | exact h | apply modEng_calm
    | (intro _; (repeat' split) <;> simp; done)
theorem fwdSetMcResidueSpec_calm : Tame fwdSetMcResidueSpec := by
  intro c ps s0 s h
  show Calm s0 (fwdSetMcResidueSpec.apply c ps s).state
  simp only [fwdSetMcResidueSpec, Applied.now, onSelf, configSpec]
  repeat' first
    | with_reducible first | exact h | apply modEng_calm
    | (intro _; (repeat' split) <;> simp; done)
theorem fwdSetSpreadSpec_calm : Tame fwdSetSpreadSpec := by
  intro c ps s0 s h
  show Calm s0 (fwdSetSpreadSpec.apply c ps s).state
  simp only [fwdSetSpreadSpec, Applied.now, onSelf, configSpec]
  repeat' first
    | with_reducible first | exact h | apply modEng_calm
    | (intro _; (repeat' split) <;> simp; done)
theorem fwdSetVlanSpec_calm : Tame fwdSetVlanSpec := by
  intro c ps s0 s h
  show Calm s0 (fwdSetVlanSpec.apply c ps s).state
  simp only [fwdSetVlanSpec, Applied.now, onSelf, configSpec]
  repeat' first
    | with_reducible first | exact h | apply modEng_calm
    | (intro _; (repeat' split) <;> simp; done)
theorem fwdWriteIndirectSpec_calm : Tame fwdWriteIndirectSpec := by
  intro c ps s0 s h
  show Calm s0 (fwdWriteIndirectSpec.apply c ps s).state
  simp only [fwdWriteIndirectSpec, Applied.now, onSelf, configSpec]
  repeat' first
    | with_reducible first | exact h | apply modEng_calm
    | (intro _; (repeat' split) <;> simp; done)
theorem fwdWriteMcastSpec_calm : Tame fwdWriteMcastSpec := by
  intro c ps s0 s h
  show Calm s0 (fwdWriteMcastSpec.apply c ps s).state
  simp only [fwdWriteMcastSpec, Applied.now, onSelf, configSpec]
  repeat' first
    | with_reducible first | exact h | apply modEng_calm
    | (intro _; (repeat' split) <;> simp; done)
theorem outSetClkoutSpec_calm : Tame outSetClkoutSpec := by
  intro c ps s0 s h
  show Calm s0 (outSetClkoutSpec.apply c ps s).state
  simp only [outSetClkoutSpec, Applied.now, onSelf, configSpec]
  repeat' first
    | with_reducible first | exact h | apply modEng_calm
    | (intro _; (repeat' split) <;> simp; done)
theorem outSetPpsoutSpec_calm : Tame outSetPpsoutSpec := by
  intro c ps s0 s h
  show Calm s0 (outSetPpsoutSpec.apply c ps s).state
  simp only [outSetPpsoutSpec, Applied.now, onSelf, configSpec]
  repeat' first
    | with_reducible first | exact h | apply modEng_calm
    | (intro _; (repeat' split) <;> simp; done)
theorem outSetSynthSpec_calm : Tame outSetSynthSpec := by
  intro c ps s0 s h
  exact onSelf_calm (fun x => by simp) (takeFree_calm h)
theorem parseCommitSpec_calm : Tame parseCommitSpec := by
  intro c ps s0 s h
  show Calm s0 (parseCommitSpec.apply c ps s).state
  simp only [parseCommitSpec, Applied.now, onSelf, configSpec]
  repeat' first
    | with_reducible first | exact h | apply modEng_calm
    | (intro _; (repeat' split) <;> simp; done)
theorem parseLoadDefaultsSpec_calm : Tame parseLoadDefaultsSpec := by
  intro c ps s0 s h
  show Calm s0 (parseLoadDefaultsSpec.apply c ps s).state
  simp only [parseLoadDefaultsSpec, Applied.now, onSelf, configSpec]
  repeat' first
    | with_reducible first | exact h | apply modEng_calm
    | (intro _; (repeat' split) <;> simp; done)
theorem parseReadNodeSpec_calm : Tame parseReadNodeSpec := by
  intro c ps s0 s h
  show Calm s0 (parseReadNodeSpec.apply c ps s).state
  simp only [parseReadNodeSpec, Applied.now, onSelf, readSpec]
  repeat' first
    | with_reducible first | exact h
theorem parseSetPortSpec_calm : Tame parseSetPortSpec := by
  intro c ps s0 s h
  show Calm s0 (parseSetPortSpec.apply c ps s).state
  simp only [parseSetPortSpec, Applied.now, onSelf, portSpec]
  repeat' first
    | with_reducible first | exact h | apply modEng_calm
    | (intro _; (repeat' split) <;> simp; done)
theorem parseWriteNodeSpec_calm : Tame parseWriteNodeSpec := by
  intro c ps s0 s h
  show Calm s0 (parseWriteNodeSpec.apply c ps s).state
  simp only [parseWriteNodeSpec, Applied.now, onSelf, configSpec]
  repeat' first
    | with_reducible first | exact h | apply modEng_calm
    | (intro _; (repeat' split) <;> simp; done)
theorem portSetAhnudEtypeSpec_calm : Tame portSetAhnudEtypeSpec := by
  intro c ps s0 s h
  show Calm s0 (portSetAhnudEtypeSpec.apply c ps s).state
  simp only [portSetAhnudEtypeSpec, Applied.now, onSelf, configSpec]
  repeat' first
    | with_reducible first | exact h | assumption | apply enterOffering_calm | apply modEng_calm | apply foldl_calm
    | (intro _; (repeat' split) <;> simp; done)
    | intro _
    | split
theorem portSetCutThroughSpec_calm : Tame portSetCutThroughSpec := by
  intro c ps s0 s h
  show Calm s0 (portSetCutThroughSpec.apply c ps s).state
  simp only [portSetCutThroughSpec, Applied.now, onSelf, portSpec]
  repeat' first
    | with_reducible first | exact h | apply modEng_calm
    | (intro _; (repeat' split) <;> simp; done)
theorem portSetLinkTimersSpec_calm : Tame portSetLinkTimersSpec := by
  intro c ps s0 s h
  show Calm s0 (portSetLinkTimersSpec.apply c ps s).state
  simp only [portSetLinkTimersSpec, Applied.now, onSelf, portSpec]
  repeat' first
    | with_reducible first | exact h | apply modEng_calm
    | (intro _; (repeat' split) <;> simp; done)
theorem portSetModeSpec_calm : Tame portSetModeSpec := by
  intro c ps s0 s h
  show Calm s0 (portSetModeSpec.apply c ps s).state
  simp only [portSetModeSpec, Applied.now, onSelf, portSpec]
  repeat' first
    | with_reducible first | exact h | apply setEng_calm
    | (simp; done)
    | split
theorem localChanged_calm {z0 : State} (e : EngId) (p : Nat) (s : State) (h : Calm z0 s) : Calm z0 (localChanged e p s) := by
  unfold localChanged
  repeat' first
    | with_reducible first | exact h | apply enterOffering_calm | apply modEng_calm
    | (intro _; (repeat' split) <;> simp; done)
    | split
    | dsimp only
theorem portSetTimeLevelsSpec_calm : Tame portSetTimeLevelsSpec := by
  intro c ps s0 s h
  show Calm s0 (portSetTimeLevelsSpec.apply c ps s).state
  simp only [portSetTimeLevelsSpec, Applied.now, onSelf, portSpec]
  repeat' first
    | with_reducible first | exact h | apply localChanged_calm | apply modEng_calm
    | (intro _; (repeat' split) <;> simp; done)
    | split
theorem queueGetOccupancySpec_calm : Tame queueGetOccupancySpec := by
  intro c ps s0 s h
  show Calm s0 (queueGetOccupancySpec.apply c ps s).state
  simp only [queueGetOccupancySpec, Applied.now, onSelf, readSpec]
  repeat' first
    | with_reducible first | exact h
theorem queueSetAgeSpec_calm : Tame queueSetAgeSpec := by
  intro c ps s0 s h
  show Calm s0 (queueSetAgeSpec.apply c ps s).state
  simp only [queueSetAgeSpec, Applied.now, onSelf, portSpec]
  repeat' first
    | with_reducible first | exact h | apply modEng_calm
    | (intro _; (repeat' split) <;> simp; done)
theorem queueSetBufferModeSpec_calm : Tame queueSetBufferModeSpec := by
  intro c ps s0 s h
  show Calm s0 (queueSetBufferModeSpec.apply c ps s).state
  simp only [queueSetBufferModeSpec, Applied.now, onSelf, configSpec]
  repeat' first
    | with_reducible first | exact h | apply setEng_calm
    | (simp; done)
theorem queueSetClassSpec_calm : Tame queueSetClassSpec := by
  intro c ps s0 s h
  show Calm s0 (queueSetClassSpec.apply c ps s).state
  simp only [queueSetClassSpec, Applied.now, onSelf, configSpec]
  repeat' first
    | with_reducible first | exact h | apply setEng_calm
    | (simp; done)
theorem queueSetMinSpec_calm : Tame queueSetMinSpec := by
  intro c ps s0 s h
  show Calm s0 (queueSetMinSpec.apply c ps s).state
  simp only [queueSetMinSpec, Applied.now, onSelf, portSpec]
  repeat' first
    | with_reducible first | exact h | apply setEng_calm
    | (simp; done)
theorem queueSetPortFcSpec_calm : Tame queueSetPortFcSpec := by
  intro c ps s0 s h
  show Calm s0 (queueSetPortFcSpec.apply c ps s).state
  simp only [queueSetPortFcSpec, Applied.now, onSelf, portSpec]
  repeat' first
    | with_reducible first | exact h | apply setEng_calm
    | (simp; done)
theorem refForceSpec_calm : Tame refForceSpec := by
  intro c ps s0 s h
  show Calm s0 (refForceSpec.apply c ps s).state
  simp only [refForceSpec, Applied.now, onSelf, configSpec]
  repeat' first
    | with_reducible first | exact h | apply modEng_calm
    | (intro _; (repeat' split) <;> simp; done)
theorem refGetStatusSpec_calm : Tame refGetStatusSpec := by
  intro c ps s0 s h
  show Calm s0 (refGetStatusSpec.apply c ps s).state
  simp only [refGetStatusSpec, Applied.now, onSelf, readSpec]
  repeat' first
    | with_reducible first | exact h
theorem refSetInputSpec_calm : Tame refSetInputSpec := by
  intro c ps s0 s h
  show Calm s0 (refSetInputSpec.apply c ps s).state
  simp only [refSetInputSpec, Applied.now, onSelf, configSpec]
  repeat' first
    | with_reducible first | exact h | apply modEng_calm
    | (intro _; (repeat' split) <;> simp; done)
theorem refSetOscSpec_calm : Tame refSetOscSpec := by
  intro c ps s0 s h
  show Calm s0 (refSetOscSpec.apply c ps s).state
  simp only [refSetOscSpec, Applied.now, onSelf, configSpec]
  repeat' first
    | with_reducible first | exact h | apply modEng_calm
    | (intro _; (repeat' split) <;> simp; done)
theorem refSetSlotSpec_calm : Tame refSetSlotSpec := by
  intro c ps s0 s h
  show Calm s0 (refSetSlotSpec.apply c ps s).state
  simp only [refSetSlotSpec, Applied.now, onSelf, configSpec]
  repeat' first
    | with_reducible first | exact h | apply modEng_calm
    | (intro _; (repeat' split) <;> simp; done)
theorem ruleClearBankSpec_calm : Tame ruleClearBankSpec := by
  intro c ps s0 s h
  show Calm s0 (ruleClearBankSpec.apply c ps s).state
  simp only [ruleClearBankSpec, Applied.now, onSelf, configSpec]
  repeat' first
    | with_reducible first | exact h | apply modEng_calm
    | (intro _; (repeat' split) <;> simp; done)
theorem ruleFlipBankSpec_calm : Tame ruleFlipBankSpec := by
  intro c ps s0 s h
  show Calm s0 (ruleFlipBankSpec.apply c ps s).state
  simp only [ruleFlipBankSpec, Applied.now, onSelf, configSpec]
  repeat' first
    | with_reducible first | exact h | apply modEng_calm
    | (intro _; (repeat' split) <;> simp; done)
theorem ruleLoadDefaultsSpec_calm : Tame ruleLoadDefaultsSpec := by
  intro c ps s0 s h
  show Calm s0 (ruleLoadDefaultsSpec.apply c ps s).state
  simp only [ruleLoadDefaultsSpec, Applied.now, onSelf, configSpec]
  repeat' first
    | with_reducible first | exact h | apply modEng_calm
    | (intro _; (repeat' split) <;> simp; done)
theorem ruleReadEntrySpec_calm : Tame ruleReadEntrySpec := by
  intro c ps s0 s h
  show Calm s0 (ruleReadEntrySpec.apply c ps s).state
  simp only [ruleReadEntrySpec, Applied.now, onSelf, readSpec]
  repeat' first
    | with_reducible first | exact h
    | split
theorem ruleSetMirrorSpec_calm : Tame ruleSetMirrorSpec := by
  intro c ps s0 s h
  show Calm s0 (ruleSetMirrorSpec.apply c ps s).state
  simp only [ruleSetMirrorSpec, Applied.now, onSelf, configSpec]
  repeat' first
    | with_reducible first | exact h | apply modEng_calm
    | (intro _; (repeat' split) <;> simp; done)
theorem ruleSetOrgSpec_calm : Tame ruleSetOrgSpec := by
  intro c ps s0 s h
  show Calm s0 (ruleSetOrgSpec.apply c ps s).state
  simp only [ruleSetOrgSpec, Applied.now, onSelf, configSpec]
  repeat' first
    | with_reducible first | exact h | apply modEng_calm
    | (intro _; (repeat' split) <;> simp; done)
theorem ruleSetPortSpec_calm : Tame ruleSetPortSpec := by
  intro c ps s0 s h
  show Calm s0 (ruleSetPortSpec.apply c ps s).state
  simp only [ruleSetPortSpec, Applied.now, onSelf, portSpec]
  repeat' first
    | with_reducible first | exact h | apply modEng_calm
    | (intro _; (repeat' split) <;> simp; done)
theorem ruleWriteEntrySpec_calm : Tame ruleWriteEntrySpec := by
  intro c ps s0 s h
  show Calm s0 (ruleWriteEntrySpec.apply c ps s).state
  simp only [ruleWriteEntrySpec, Applied.now, onSelf, configSpec]
  repeat' first
    | with_reducible first | exact h | apply modEng_calm
    | (intro _; (repeat' split) <;> simp; done)
theorem ruleWriteMeterSpec_calm : Tame ruleWriteMeterSpec := by
  intro c ps s0 s h
  show Calm s0 (ruleWriteMeterSpec.apply c ps s).state
  simp only [ruleWriteMeterSpec, Applied.now, onSelf, configSpec]
  repeat' first
    | with_reducible first | exact h | apply modEng_calm
    | (intro _; (repeat' split) <;> simp; done)
theorem ruleWriteProfileSpec_calm : Tame ruleWriteProfileSpec := by
  intro c ps s0 s h
  show Calm s0 (ruleWriteProfileSpec.apply c ps s).state
  simp only [ruleWriteProfileSpec, Applied.now, onSelf, configSpec]
  repeat' first
    | with_reducible first | exact h | apply modEng_calm
    | (intro _; (repeat' split) <;> simp; done)
theorem ruleWriteRewriteSpec_calm : Tame ruleWriteRewriteSpec := by
  intro c ps s0 s h
  show Calm s0 (ruleWriteRewriteSpec.apply c ps s).state
  simp only [ruleWriteRewriteSpec, Applied.now, onSelf, configSpec]
  repeat' first
    | with_reducible first | exact h | apply modEng_calm
    | (intro _; (repeat' split) <;> simp; done)
theorem schedCommitGclSpec_calm : Tame schedCommitGclSpec := by
  intro c ps s0 s h
  show Calm s0 (schedCommitGclSpec.apply c ps s).state
  simp only [schedCommitGclSpec, Applied.now, onSelf, portSpec]
  repeat' first
    | with_reducible first | exact h | apply setEng_calm
    | (simp; done)
theorem schedSetClassSpec_calm : Tame schedSetClassSpec := by
  intro c ps s0 s h
  show Calm s0 (schedSetClassSpec.apply c ps s).state
  simp only [schedSetClassSpec, Applied.now, onSelf, portSpec]
  repeat' first
    | with_reducible first | exact h | apply modEng_calm
    | (intro _; (repeat' split) <;> simp; done)
theorem schedSetLaunchSpec_calm : Tame schedSetLaunchSpec := by
  intro c ps s0 s h
  show Calm s0 (schedSetLaunchSpec.apply c ps s).state
  simp only [schedSetLaunchSpec, Applied.now, onSelf, portSpec]
  repeat' first
    | with_reducible first | exact h | apply modEng_calm
    | (intro _; (repeat' split) <;> simp; done)
theorem schedSetPortShaperSpec_calm : Tame schedSetPortShaperSpec := by
  intro c ps s0 s h
  show Calm s0 (schedSetPortShaperSpec.apply c ps s).state
  simp only [schedSetPortShaperSpec, Applied.now, onSelf, portSpec]
  repeat' first
    | with_reducible first | exact h | apply modEng_calm
    | (intro _; (repeat' split) <;> simp; done)
theorem schedSetPreemptSpec_calm : Tame schedSetPreemptSpec := by
  intro c ps s0 s h
  show Calm s0 (schedSetPreemptSpec.apply c ps s).state
  simp only [schedSetPreemptSpec, Applied.now, onSelf, portSpec]
  repeat' first
    | with_reducible first | exact h | apply modEng_calm
    | (intro _; (repeat' split) <;> simp; done)
theorem schedSetRedundancySpec_calm : Tame schedSetRedundancySpec := by
  intro c ps s0 s h
  show Calm s0 (schedSetRedundancySpec.apply c ps s).state
  simp only [schedSetRedundancySpec, Applied.now, onSelf, configSpec]
  repeat' first
    | with_reducible first | exact h | apply modEng_calm
    | (intro _; (repeat' split) <;> simp; done)
theorem schedWriteGclSpec_calm : Tame schedWriteGclSpec := by
  intro c ps s0 s h
  show Calm s0 (schedWriteGclSpec.apply c ps s).state
  simp only [schedWriteGclSpec, Applied.now, onSelf, portSpec]
  repeat' first
    | with_reducible first | exact h | apply modEng_calm
    | (intro _; (repeat' split) <;> simp; done)
theorem pass_calm {z0 : State} (n : Nat) (s : State) (h : Calm z0 s) : Calm z0 (pass n s) := by
  unfold pass
  repeat' first
    | with_reducible first | exact h | apply modBoth_calm
    | (simp only [mk_calm]; with_reducible refine parts_calm ?_)
    | (intro _; (repeat' split) <;> simp; done)
theorem clearOn_calm {z0 : State} (e : EngId) (first count : Nat) (s : State) (h : Calm z0 s) : Calm z0 (clearOn e first count s) := by
  unfold clearOn
  repeat' first
    | with_reducible first | exact h | apply pass_calm | apply setEng_calm
    | (simp only [mk_calm]; with_reducible refine parts_calm ?_)
    | (intro _; (repeat' split) <;> simp; done)
    | (split <;> simp; done)
    | (simp; done)
    | split
    | dsimp only
theorem statsClearSpec_calm : Tame statsClearSpec := by
  intro c ps s0 s h
  show Calm s0 (statsClearSpec.apply c ps s).state
  exact clearOn_calm _ _ _ _ h
theorem statsReadSpec_calm : Tame statsReadSpec := by
  intro c ps s0 s h
  show Calm s0 (statsReadSpec.apply c ps s).state
  simp only [statsReadSpec, Applied.now, onSelf, readSpec]
  repeat' first
    | with_reducible first | exact h | apply setEng_calm
    | (simp; done)
theorem statsSetChainSpec_calm : Tame statsSetChainSpec := by
  intro c ps s0 s h
  show Calm s0 (statsSetChainSpec.apply c ps s).state
  simp only [statsSetChainSpec, Applied.now, onSelf, configSpec]
  repeat' first
    | with_reducible first | exact h | apply modEng_calm
    | (intro _; (repeat' split) <;> simp; done)
theorem statsSetSamplerSpec_calm : Tame statsSetSamplerSpec := by
  intro c ps s0 s h
  exact onSelf_calm (fun x => by simp) (takeFree_calm h)
theorem statsSetSnapshotSpec_calm : Tame statsSetSnapshotSpec := by
  intro c ps s0 s h
  show Calm s0 (statsSetSnapshotSpec.apply c ps s).state
  simp only [statsSetSnapshotSpec, Applied.now, onSelf, configSpec]
  repeat' first
    | with_reducible first | exact h | apply modEng_calm
    | (intro _; (repeat' split) <;> simp; done)
theorem statsSnapNowSpec_calm : Tame statsSnapNowSpec := by
  intro c ps s0 s h
  show Calm s0 (statsSnapNowSpec.apply c ps s).state
  simp only [statsSnapNowSpec, Applied.now, onSelf, readSpec]
  repeat' first
    | with_reducible first | exact h | apply pass_calm | apply modEng_calm
    | (intro _; (repeat' split) <;> simp; done)
theorem sysNopSpec_calm : Tame sysNopSpec := by
  intro c ps s0 s h
  show Calm s0 (sysNopSpec.apply c ps s).state
  simp only [sysNopSpec, Applied.now, onSelf]
  repeat' first
    | with_reducible first | exact h
theorem readLeaves_calm {z0 : State} (l : LatchId) (e : EngId) (off : Nat) (s : State) (h : Calm z0 s) : Calm z0 (readLeaves l e off s) := by
  unfold readLeaves
  repeat' first
    | with_reducible first | exact h | apply modEng_calm
    | (simp only [mk_calm]; with_reducible refine parts_calm ?_)
    | (intro _; (repeat' split) <;> simp; done)
    | split
    | dsimp only
theorem readRegs_calm {s0 : State} (l : LatchId) (e : EngId) (n off : Nat) (s : State) (h : Calm s0 s) :
    Calm s0 (readRegs l e n off s).2 := by
  induction n generalizing off s with
  | zero => exact h
  | succ n ih => exact ih _ _ (readLeaves_calm l e off s h)
theorem sysReadRegSpec_calm : Tame sysReadRegSpec := by
  intro c ps s0 s h
  show Calm s0 (sysReadRegSpec.apply c ps s).state
  simp only [sysReadRegSpec]
  split
  · exact h
  · exact readRegs_calm _ _ _ _ _ h
theorem sysSetIrqSpec_calm : Tame sysSetIrqSpec := by
  intro c ps s0 s h
  show Calm s0 (sysSetIrqSpec.apply c ps s).state
  simp only [sysSetIrqSpec, Applied.now, onSelf, setupSpec]
  repeat' first
    | with_reducible first | exact h | apply modEng_calm
    | (intro _; (repeat' split) <;> simp; done)
theorem sysSetMgmtSpec_calm : Tame sysSetMgmtSpec := by
  intro c ps s0 s h
  show Calm s0 (sysSetMgmtSpec.apply c ps s).state
  simp only [sysSetMgmtSpec, Applied.now, onSelf, setupSpec]
  repeat' first
    | with_reducible first | exact h | apply modEng_calm
    | (intro _; (repeat' split) <;> simp; done)
theorem sysSetPaceSpec_calm : Tame sysSetPaceSpec := by
  intro c ps s0 s h
  show Calm s0 (sysSetPaceSpec.apply c ps s).state
  simp only [sysSetPaceSpec, Applied.now, onSelf, configSpec]
  repeat' first
    | with_reducible first | exact h | apply modEng_calm
    | (intro _; (repeat' split) <;> simp; done)
    | split
theorem startAhnud_calm {z0 : State} (e : EngId) (p : Nat) (s : State) (h : Calm z0 s) : Calm z0 (startAhnud e p s) := by
  unfold startAhnud
  repeat' first
    | with_reducible first | exact h | apply enterOffering_calm | apply modEng_calm
    | (intro _; (repeat' split) <;> simp; done)
    | split
    | dsimp only
theorem goUp_calm {z0 : State} (e : EngId) (p : Nat) (s : State) (h : Calm z0 s) : Calm z0 (goUp e p s) := by
  unfold goUp
  repeat' first
    | with_reducible first | exact h | apply startAhnud_calm | apply modEng_calm
    | (intro _; (repeat' split) <;> simp; done)
theorem settle_calm {z0 : State} (e : EngId) (p : Nat) (s : State) (h : Calm z0 s) : Calm z0 (settle e p s) := by
  unfold settle
  repeat' first
    | with_reducible first | exact h | apply goUp_calm | apply modEng_calm
    | (intro _; (repeat' split) <;> simp; done)
    | split
    | dsimp only
theorem judgeH0_calm {z0 : State} (e : EngId) (s : State) (h : Calm z0 s) : Calm z0 (judgeH0 e s) := by
  unfold judgeH0
  repeat' first
    | with_reducible first | exact h | apply settle_calm | apply setEng_calm
    | (simp; done)
    | split
    | dsimp only
theorem sysSetRingSpec_calm : Tame sysSetRingSpec := by
  intro c ps s0 s h
  show Calm s0 (sysSetRingSpec.apply c ps s).state
  simp only [sysSetRingSpec, Applied.now, onSelf, setupSpec]
  repeat' first
    | with_reducible first | exact h | apply judgeH0_calm | apply modEng_calm
    | (intro _; (repeat' split) <;> simp; done)
theorem timeAlignOutputsSpec_calm : Tame timeAlignOutputsSpec := by
  intro c ps s0 s h
  show Calm s0 (timeAlignOutputsSpec.apply c ps s).state
  simp only [timeAlignOutputsSpec, Applied.now, onSelf, configSpec]
  repeat' first
    | with_reducible first | exact h | apply modEng_calm
    | (intro _; (repeat' split) <;> simp; done)
    | split
theorem timeCalAsymSpec_calm : Tame timeCalAsymSpec := by
  intro c ps s0 s h
  show Calm s0 (timeCalAsymSpec.apply c ps s).state
  simp only [timeCalAsymSpec, Applied.now, onSelf, portSpec]
  repeat' first
    | with_reducible first | exact h | apply modEng_calm
    | (intro _; (repeat' split) <;> simp; done)
    | split
theorem timeGetSpec_calm : Tame timeGetSpec := by
  intro c ps s0 s h
  show Calm s0 (timeGetSpec.apply c ps s).state
  simp only [timeGetSpec, Applied.now, onSelf]
  repeat' first
    | with_reducible first | exact h
theorem timePutSampleSpec_calm : Tame timePutSampleSpec := by
  intro c ps s0 s h
  show Calm s0 (timePutSampleSpec.apply c ps s).state
  simp only [timePutSampleSpec, Applied.now, onSelf, configSpec]
  repeat' first
    | with_reducible first | exact h | apply modEng_calm
    | (intro _; (repeat' split) <;> simp; done)
theorem timeReadEventsSpec_calm : Tame timeReadEventsSpec := by
  intro c ps s0 s h
  show Calm s0 (timeReadEventsSpec.apply c ps s).state
  simp only [timeReadEventsSpec, Applied.now, onSelf]
  repeat' first
    | with_reducible first | exact h | apply modEng_calm
    | (intro _; (repeat' split) <;> simp; done)
theorem timeSchedEdgeSpec_calm : Tame timeSchedEdgeSpec := by
  intro c ps s0 s h
  show Calm s0 (timeSchedEdgeSpec.apply c ps s).state
  simp only [timeSchedEdgeSpec, Applied.now, onSelf]
  repeat' first
    | with_reducible first | exact h | apply modEng_calm
    | (intro _; (repeat' split) <;> simp; done)
theorem timeSetAsymSpec_calm : Tame timeSetAsymSpec := by
  intro c ps s0 s h
  show Calm s0 (timeSetAsymSpec.apply c ps s).state
  simp only [timeSetAsymSpec, Applied.now, onSelf, portSpec]
  repeat' first
    | with_reducible first | exact h | apply modEng_calm
    | (intro _; (repeat' split) <;> simp; done)
theorem timeSetBoardDelaySpec_calm : Tame timeSetBoardDelaySpec := by
  intro c ps s0 s h
  show Calm s0 (timeSetBoardDelaySpec.apply c ps s).state
  simp only [timeSetBoardDelaySpec, Applied.now, onSelf]
  repeat' first
    | with_reducible first | exact h | apply modEng_calm
    | (intro _; (repeat' split) <;> simp; done)
theorem timeSetDomainSpec_calm : Tame timeSetDomainSpec := by
  intro c ps s0 s h
  show Calm s0 (timeSetDomainSpec.apply c ps s).state
  simp only [timeSetDomainSpec, Applied.now, onSelf, configSpec]
  repeat' first
    | with_reducible first | exact h | apply modEng_calm
    | (intro _; (repeat' split) <;> simp; done)
theorem timeSetEvtinSpec_calm : Tame timeSetEvtinSpec := by
  intro c ps s0 s h
  show Calm s0 (timeSetEvtinSpec.apply c ps s).state
  simp only [timeSetEvtinSpec, Applied.now, onSelf]
  repeat' first
    | with_reducible first | exact h | apply modEng_calm
    | (intro _; (repeat' split) <;> simp; done)
theorem timeSetPtpPortSpec_calm : Tame timeSetPtpPortSpec := by
  intro c ps s0 s h
  show Calm s0 (timeSetPtpPortSpec.apply c ps s).state
  simp only [timeSetPtpPortSpec, Applied.now, onSelf, portSpec]
  repeat' first
    | with_reducible first | exact h | apply modEng_calm
    | (intro _; (repeat' split) <;> simp; done)
theorem timeSetSpec_calm : Tame timeSetSpec := by
  intro c ps s0 s h
  show Calm s0 (timeSetSpec.apply c ps s).state
  simp only [timeSetSpec, Applied.now, onSelf]
  repeat' first
    | with_reducible first | exact h | apply acceptStep_calm
theorem timeSetTcSpec_calm : Tame timeSetTcSpec := by
  intro c ps s0 s h
  show Calm s0 (timeSetTcSpec.apply c ps s).state
  simp only [timeSetTcSpec, Applied.now, onSelf, portSpec]
  repeat' first
    | with_reducible first | exact h | apply modEng_calm
    | (intro _; (repeat' split) <;> simp; done)
theorem timeStepSpec_calm : Tame timeStepSpec := by
  intro c ps s0 s h
  show Calm s0 (timeStepSpec.apply c ps s).state
  simp only [timeStepSpec, Applied.now, onSelf]
  repeat' first
    | with_reducible first | exact h | apply acceptStep_calm
theorem timeSwitchDomainSpec_calm : Tame timeSwitchDomainSpec := by
  intro c ps s0 s h
  show Calm s0 (timeSwitchDomainSpec.apply c ps s).state
  simp only [timeSwitchDomainSpec, Applied.now, onSelf, configSpec]
  repeat' first
    | with_reducible first | exact h | apply modEng_calm
    | (intro _; (repeat' split) <;> simp; done)
    | split
theorem releaseAcks_calm {z0 : State} (e : EngId) (s : State) (h : Calm z0 s) : Calm z0 (releaseAcks e s) := by
  unfold releaseAcks
  repeat' first
    | with_reducible first | exact h | apply flushWaiting_calm | apply modEng_calm
    | (intro _; (repeat' split) <;> simp; done)
theorem releaseActive_calm {z0 : State} (s : State) (h : Calm z0 s) : Calm z0 (releaseActive s) := by
  unfold releaseActive
  repeat' first
    | with_reducible first | exact h | apply releaseAcks_calm
    | split
theorem twinFenceSpec_calm : Tame twinFenceSpec := by
  intro c ps s0 s h
  show Calm s0 (twinFenceSpec.apply c ps s).state
  simp only [twinFenceSpec, Applied.now, onSelf, twinSpec]
  repeat' first
    | with_reducible first | exact h | apply fenceEngine_calm | apply releaseActive_calm | apply setCopy_calm
theorem twinGetStateSpec_calm : Tame twinGetStateSpec := by
  intro c ps s0 s h
  show Calm s0 (twinGetStateSpec.apply c ps s).state
  simp only [twinGetStateSpec, Applied.now, onSelf, twinSpec]
  repeat' first
    | with_reducible first | exact h
theorem twinRejoinSpec_calm : Tame twinRejoinSpec := by
  intro c ps s0 s h
  exact leaveReset_calm _ _ (modEng_calm (fun _ => rfl) (mk_calm.mpr (parts_calm h)))
theorem twinSetSwapSpec_calm : Tame twinSetSwapSpec := by
  intro c ps s0 s h
  show Calm s0 (twinSetSwapSpec.apply c ps s).state
  simp only [twinSetSwapSpec, Applied.now, onSelf, twinSpec]
  repeat' first
    | with_reducible first | exact h
    | (simp only [mk_calm]; with_reducible refine parts_calm ?_)
theorem twinSwapRolesSpec_calm : Tame twinSwapRolesSpec := by
  intro c ps s0 s h
  show Calm s0 (twinSwapRolesSpec.apply c ps s).state
  simp only [twinSwapRolesSpec, Applied.now, onSelf, twinSpec]
  repeat' first
    | with_reducible first | exact h
    | (simp only [mk_calm]; with_reducible refine parts_calm ?_)
theorem allSpecs_tame : ∀ sp ∈ allSpecs, Tame sp := by
  unfold allSpecs sysSpecs portSpecs parseSpecs ruleSpecs fwdSpecs queueSpecs schedSpecs timeSpecs refSpecs outSpecs twinSpecs faultSpecs calSpecs statsSpecs fwSpecs
  simp only [List.cons_append, List.nil_append, List.forall_mem_cons]
  exact ⟨sysReadRegSpec_calm, sysSetPaceSpec_calm, sysSetRingSpec_calm, sysSetIrqSpec_calm, sysNopSpec_calm, sysSetMgmtSpec_calm, portSetModeSpec_calm, portSetLinkTimersSpec_calm, portSetTimeLevelsSpec_calm, portSetAhnudEtypeSpec_calm, portSetCutThroughSpec_calm, parseSetPortSpec_calm, parseWriteNodeSpec_calm, parseReadNodeSpec_calm, parseCommitSpec_calm, parseLoadDefaultsSpec_calm, ruleWriteEntrySpec_calm, ruleReadEntrySpec_calm, ruleWriteProfileSpec_calm, ruleClearBankSpec_calm, ruleFlipBankSpec_calm, ruleSetOrgSpec_calm, ruleLoadDefaultsSpec_calm, ruleSetPortSpec_calm, ruleWriteRewriteSpec_calm, ruleWriteMeterSpec_calm, ruleSetMirrorSpec_calm, fwdAddSpec_calm, fwdDeleteSpec_calm, fwdLookupSpec_calm, fwdFlushSpec_calm, fwdSetLearnSpec_calm, fwdSetAgeingSpec_calm, fwdSetVlanSpec_calm, fwdWriteMcastSpec_calm, fwdSetSpreadSpec_calm, fwdWriteIndirectSpec_calm, fwdSetMcResidueSpec_calm, queueSetClassSpec_calm, queueSetPortFcSpec_calm, queueSetMinSpec_calm, queueSetAgeSpec_calm, queueSetBufferModeSpec_calm, queueGetOccupancySpec_calm, schedSetClassSpec_calm, schedSetPortShaperSpec_calm, schedWriteGclSpec_calm, schedCommitGclSpec_calm, schedSetPreemptSpec_calm, schedSetLaunchSpec_calm, schedSetRedundancySpec_calm, timeGetSpec_calm, timeSetSpec_calm, timeStepSpec_calm, timeSetBoardDelaySpec_calm, timeSetEvtinSpec_calm, timeReadEventsSpec_calm, timeSchedEdgeSpec_calm, timeSetDomainSpec_calm, timeSetPtpPortSpec_calm, timeSetTcSpec_calm, timeSetAsymSpec_calm, timeCalAsymSpec_calm, timeSwitchDomainSpec_calm, timePutSampleSpec_calm, timeAlignOutputsSpec_calm, refSetInputSpec_calm, refSetSlotSpec_calm, refForceSpec_calm, refGetStatusSpec_calm, refSetOscSpec_calm, outSetSynthSpec_calm, outSetClkoutSpec_calm, outSetPpsoutSpec_calm, twinGetStateSpec_calm, twinSwapRolesSpec_calm, twinSetSwapSpec_calm, twinRejoinSpec_calm, twinFenceSpec_calm, faultSetWindowsSpec_calm, faultSetEventsSpec_calm, faultGetFirstSpec_calm, faultActNowSpec_calm, faultInjectSpec_calm, faultInjectEccSpec_calm, faultClearInjSpec_calm, faultReleaseSpec_calm, faultReadLogSpec_calm, calSetSpec_calm, calGetStatusSpec_calm, calRunSpec_calm, calRepairSpec_calm, statsReadSpec_calm, statsClearSpec_calm, statsSetChainSpec_calm, statsSetSnapshotSpec_calm, statsSnapNowSpec_calm, statsSetSamplerSpec_calm, fwGetInfoSpec_calm, fwWriteImageSpec_calm, fwVerifyImageSpec_calm, fwSelectSlotSpec_calm, fwRestartSpec_calm, nofun⟩
theorem specOf_tame {op : BitVec 16} {sp : CmdSpec} (h : specOf op = some sp) : Tame sp :=
  allSpecs_tame sp (List.mem_of_find?_eq_some h)
theorem answerEarly_calm {z0 : State} (a : Arrival) (op : BitVec 16) (st : Status) (s : State) (h : Calm z0 s) : Calm z0 (answerEarly a op st s) := by
  unfold answerEarly
  repeat' first
    | with_reducible first | exact h | apply deliver_calm | apply takeTag_calm
    | (simp only [mk_calm]; with_reducible refine parts_calm ?_)
    | (intro _; (repeat' split) <;> simp; done)
    | split
    | dsimp only
theorem answerRun_calm {z0 : State} (e : EngId) (kind : Fin 7) (idx : Nat) (done : Bool) (s : State) (h : Calm z0 s) : Calm z0 (answerRun e kind idx done s) := by
  unfold answerRun
  repeat' first
    | with_reducible first | exact h | apply complete_calm
theorem applyMirror_calm {s0 : State} (sp : CmdSpec) (d : EngId) (c : Commit) (s : State) (ht : Tame sp) (h : Calm s0 s) :
    Calm s0 (applyMirror sp d c s) := by
  unfold applyMirror
  exact modEng_calm (fun _ => rfl) (ht _ _ _ _ h)
theorem applyCommit_calm {s0 : State} (d : EngId) (s : State) (c : Commit) (h : Calm s0 s) : Calm s0 (applyCommit d s c) := by
  unfold applyCommit
  repeat' split
  · exact applyMirror_calm _ _ _ _ (specOf_tame ‹_›) h
  · exact h
  · exact h
theorem applyInFlight_calm {z0 : State} (d : EngId) (s : State) (h : Calm z0 s) : Calm z0 (applyInFlight d s) := by
  unfold applyInFlight
  repeat' first
    | with_reducible first | exact h | apply applyCommit_calm | apply foldl_calm
    | (simp only [mk_calm]; with_reducible refine parts_calm ?_)
    | split
theorem enterCulAll_calm {z0 : State} (s : State) (h : Calm z0 s) : Calm z0 (enterCulAll s) := by
  unfold enterCulAll
  repeat' first
    | with_reducible first | exact h | apply endPlan_calm | apply enterCul_calm | apply modBoth_calm
    | (simp only [mk_calm]; with_reducible refine parts_calm ?_)
    | (intro _; (repeat' split) <;> simp; done)
    | split
    | dsimp only
theorem reactF4_calm {z0 : State} (e : EngId) (m : FaultMsg) (s : State) (h : Calm z0 s) : Calm z0 (reactF4 e m s) := by
  unfold reactF4
  repeat' first
    | with_reducible first | exact h | apply enterCulAll_calm | apply logEntry_calm | apply modEng_calm
    | (intro _; (repeat' split) <;> simp; done)
    | split
theorem startWindow_calm {z0 : State} (e : EngId) (m : FaultMsg) (s : State) (h : Calm z0 s) : Calm z0 (startWindow e m s) := by
  unfold startWindow
  repeat' first
    | with_reducible first | exact h | apply reactF2_calm | apply reactF3_calm | apply reactF4_calm | apply modEng_calm
    | (intro _; (repeat' split) <;> simp; done)
    | split
    | dsimp only
theorem collect_calm {z0 : State} (e : EngId) (m : FaultMsg) (s : State) (h : Calm z0 s) : Calm z0 (collect e m s) := by
  unfold collect
  repeat' first
    | with_reducible first | exact h | apply startWindow_calm | apply modEng_calm
    | (intro _; (repeat' split) <;> simp; done)
    | split
    | dsimp only
theorem arriveFault_calm {z0 : State} (e : EngId) (s : State) (h : Calm z0 s) : Calm z0 (arriveFault e s) := by
  unfold arriveFault
  repeat' first
    | with_reducible first | exact h | apply collect_calm | apply modEng_calm
    | (intro _; (repeat' split) <;> simp; done)
    | split
theorem attemptFrom_calm {z0 : State} (s1 : State) (h : Calm z0 s1) : Calm z0 (attemptFrom s1) := by
  unfold attemptFrom
  repeat' first
    | with_reducible first | exact h | apply failSchedule_calm
    | (simp only [mk_calm]; with_reducible refine parts_calm ?_)
    | split
theorem passTo_calm {z0 : State} (e : EngId) (t : Nat) (s : State) (h : Calm z0 s) : Calm z0 (passTo e t s) := by
  unfold passTo
  repeat' first
    | with_reducible first | exact h | apply pass_calm
    | split
    | dsimp only
theorem attemptSwap_calm {z0 : State} (t : Nat) (s : State) (h : Calm z0 s) : Calm z0 (attemptSwap t s) := by
  unfold attemptSwap
  repeat' first
    | with_reducible first | exact h | apply attemptFrom_calm | apply passTo_calm
theorem staleTakeover_calm {z0 : State} (dst : EngId) (seen : Nat) (s : State) (h : Calm z0 s) : Calm z0 (staleTakeover dst seen s) := by
  unfold staleTakeover
  repeat' first
    | with_reducible first | exact h | apply twinEvent_calm | apply modEng_calm
    | (intro _; (repeat' split) <;> simp; done)
theorem grantControl_calm {z0 : State} (cause : Nat) (src : EngId) (dst : EngId) (lost : Nat) (s : State) (h : Calm z0 s) : Calm z0 (grantControl cause src dst lost s) := by
  unfold grantControl
  repeat' first
    | with_reducible first | exact h | apply setRole_calm | apply staleTakeover_calm | apply modEng_calm | apply modBoth_calm
    | (simp only [mk_calm]; with_reducible refine parts_calm ?_)
    | (intro _; (repeat' split) <;> simp; done)
    | split
theorem startSwitch_calm {z0 : State} (cause : Nat) (src : EngId) (dst : EngId) (s : State) (h : Calm z0 s) : Calm z0 (startSwitch cause src dst s) := by
  unfold startSwitch
  repeat' first
    | with_reducible first | exact h | apply activeStops_calm | apply applyInFlight_calm | apply endPlan_calm | apply grantControl_calm | apply setCopy_calm | apply modEng_calm
    | (intro _; (repeat' split) <;> simp; done)
theorem judgeActive_calm {z0 : State} (waited : Bool) (s : State) (h : Calm z0 s) : Calm z0 (judgeActive waited s) := by
  unfold judgeActive
  repeat' first
    | with_reducible first | exact h | apply startSwitch_calm
    | split
theorem beatOnFof_calm {z0 : State} (e : EngId) (giveUp : Bool) (s : State) (h : Calm z0 s) : Calm z0 (beatOnFof e giveUp s) := by
  unfold beatOnFof
  repeat' first
    | with_reducible first | exact h | apply judgeActive_calm | apply modEng_calm
    | (simp only [mk_calm]; with_reducible refine parts_calm ?_)
    | (intro _; (repeat' split) <;> simp; done)
    | split
    | dsimp only
theorem grantSwap_calm {z0 : State} (s : State) (h : Calm z0 s) : Calm z0 (grantSwap s) := by
  unfold grantSwap
  repeat' first
    | with_reducible first | exact h | apply grantControl_calm
    | (simp only [mk_calm]; with_reducible refine parts_calm ?_)
    | (intro _; (repeat' split) <;> simp; done)
    | split
    | dsimp only
theorem beatToSup_calm {z0 : State} (e : EngId) (giveUp : Bool) (s : State) (h : Calm z0 s) : Calm z0 (beatToSup e giveUp s) := by
  unfold beatToSup
  repeat' first
    | with_reducible first | exact h | apply grantSwap_calm | apply judgeActive_calm
    | (simp only [mk_calm]; with_reducible refine parts_calm ?_)
    | (intro _; (repeat' split) <;> simp; done)
    | split
    | dsimp only
theorem becomeActive_calm {z0 : State} (e : EngId) (s0 : State) (h : Calm z0 s0) : Calm z0 (becomeActive e s0) := by
  unfold becomeActive
  repeat' first
    | with_reducible first | exact h | apply setRole_calm | apply modEng_calm
    | (simp only [mk_calm]; with_reducible refine parts_calm ?_)
    | (intro _; (repeat' split) <;> simp; done)
theorem bootUnit_calm {z0 : State} (u : UnitId) (s : State) (h : Calm z0 s) : Calm z0 (bootUnit u s) := by
  unfold bootUnit
  repeat' first
    | with_reducible first | exact h | apply modFw_calm
    | split
    | dsimp only
theorem burnDone_calm {z0 : State} (u : UnitId) (s : State) (h : Calm z0 s) : Calm z0 (burnDone u s) := by
  unfold burnDone
  repeat' first
    | with_reducible first | exact h | apply complete_calm | apply completeSup_calm | apply modFw_calm
    | split
theorem countCrc_calm {z0 : State} (a : Arrival) (s : State) (h : Calm z0 s) : Calm z0 (countCrc a s) := by
  unfold countCrc
  repeat' first
    | with_reducible first | exact h | apply bumpStat_calm
    | (simp only [mk_calm]; with_reducible refine parts_calm ?_)
    | split
theorem countFraming_calm {z0 : State} (a : Arrival) (s : State) (h : Calm z0 s) : Calm z0 (countFraming a s) := by
  unfold countFraming
  repeat' first
    | with_reducible first | exact h | apply bumpStat_calm
    | (simp only [mk_calm]; with_reducible refine parts_calm ?_)
    | split
theorem takeHeader_calm {s0 : State} (a : Arrival) (bs : List Byte) (s : State) (h : Calm s0 s) : Calm s0 (takeHeader a bs s) := by
  unfold takeHeader
  dsimp only
  repeat' split
  · exact answerEarly_calm _ _ _ _ h
  · exact accept_calm _ _ _ _ (specOf_tame ‹_›) h
  · exact intake_calm _ _ _ (fun _ _ k => deliver_calm _ _ _ k) h
theorem takePacket_calm {z0 : State} (via : UnitId) (chan : Channel) (src : BitVec 48) (vlan : Option Word) (largest : Nat) (padded : Bool) (bytes : List Byte) (s : State) (h : Calm z0 s) : Calm z0 (takePacket via chan src vlan largest padded bytes s) := by
  unfold takePacket
  repeat' first
    | with_reducible first | exact h | apply answerEarly_calm | apply countCrc_calm | apply countDup_calm | apply countFraming_calm | apply takeHeader_calm
    | split
    | dsimp only
theorem releaseHeld_calm {s0 : State} (k : HeldCmd) (s : State) (h : Calm s0 s) : Calm s0 (releaseHeld k s) := by
  unfold releaseHeld
  repeat' split
  · exact execute_calm _ _ _ _ _ _ (specOf_tame ‹_›) h
  · exact deliver_calm _ _ _ h
  · exact h
theorem checkerFault_calm {z0 : State} (e : EngId) (kind : Nat) (s : State) (h : Calm z0 s) : Calm z0 (checkerFault e kind s) := by
  unfold checkerFault
  repeat' first
    | with_reducible first | exact h | apply enterCulAll_calm | apply logEntry_calm | apply modEng_calm
    | (intro _; (repeat' split) <;> simp; done)
theorem commitAck_calm {z0 : State} (s : State) (h : Calm z0 s) : Calm z0 (commitAck s) := by
  unfold commitAck
  repeat' first
    | with_reducible first | exact h | apply flushWaiting_calm | apply modEng_calm
    | (simp only [mk_calm]; with_reducible refine parts_calm ?_)
    | (intro _; (repeat' split) <;> simp; done)
    | split
theorem copyTimeout_calm {z0 : State} (s : State) (h : Calm z0 s) : Calm z0 (copyTimeout s) := by
  unfold copyTimeout
  repeat' first
    | with_reducible first | exact h | apply releaseAcks_calm | apply setCopy_calm | apply modEng_calm
    | (simp only [mk_calm]; with_reducible refine parts_calm ?_)
    | (intro _; (repeat' split) <;> simp; done)
    | split
theorem cutBurns_calm {z0 : State} (s : State) (h : Calm z0 s) : Calm z0 (cutBurns s) := by
  have h1 := cutEngineBurn_calm .b _ (cutEngineBurn_calm .a _ h)
  unfold cutBurns
  dsimp only
  split
  · exact h1
  · exact mk_calm.mpr (parts_calm (takeFree_calm h1))
theorem endCopyRun_calm {z0 : State} (a : EngId) (d : EngId) (s : State) (h : Calm z0 s) : Calm z0 (endCopyRun a d s) := by
  unfold endCopyRun
  repeat' first
    | with_reducible first | exact h | apply applyCommit_calm | apply setCopy_calm | apply twinEvent_calm | apply modEng_calm | apply modBoth_calm | apply setEng_calm | apply foldl_calm
    | (simp only [mk_calm]; with_reducible refine parts_calm ?_)
    | (intro _; (repeat' split) <;> simp; done)
    | (simp; done)
    | split
theorem endDrain_calm {z0 : State} (e : EngId) (s : State) (h : Calm z0 s) : Calm z0 (endDrain e s) := by
  unfold endDrain
  repeat' first
    | with_reducible first | exact h | apply complete_calm | apply passTo_calm | apply modEng_calm
    | (intro _; (repeat' split) <;> simp; done)
    | split
theorem endF2_calm {z0 : State} (e : EngId) (source : Byte) (kind : Byte) (inj : Bool) (s : State) (h : Calm z0 s) : Calm z0 (endF2 e source kind inj s) := by
  unfold endF2
  repeat' first
    | with_reducible first | exact h | apply reactF2_calm | apply modEng_calm
    | (intro _; (repeat' split) <;> simp; done)
    | split
theorem endF3_calm {z0 : State} (e : EngId) (inj : Bool) (s : State) (h : Calm z0 s) : Calm z0 (endF3 e inj s) := by
  unfold endF3
  repeat' first
    | with_reducible first | exact h | apply reactF3_calm | apply modEng_calm
    | (intro _; (repeat' split) <;> simp; done)
    | split
theorem endRun_calm {z0 : State} (s : State) (h : Calm z0 s) : Calm z0 (endRun s) := by
  unfold endRun
  repeat' first
    | with_reducible first | exact h
    | (simp only [mk_calm]; with_reducible refine parts_calm ?_)
theorem endSlew_calm {z0 : State} (e : EngId) (s : State) (h : Calm z0 s) : Calm z0 (endSlew e s) := by
  unfold endSlew
  repeat' first
    | with_reducible first | exact h | apply pass_calm
    | split
theorem endSwap_calm {z0 : State} (r : SwitchRun) (s : State) (h : Calm z0 s) : Calm z0 (endSwap r s) := by
  unfold endSwap
  repeat' first
    | with_reducible first | exact h | apply complete_calm | apply completeSup_calm | apply modBoth_calm
    | (simp only [mk_calm]; with_reducible refine parts_calm ?_)
    | (intro _; (repeat' split) <;> simp; done)
    | split
theorem nextSchedule_calm {z0 : State} (r : SwitchRun) (s : State) (h : Calm z0 s) : Calm z0 (nextSchedule r s) := by
  unfold nextSchedule
  repeat' first
    | with_reducible first | exact h
    | (simp only [mk_calm]; with_reducible refine parts_calm ?_)
theorem endSwitch_calm {z0 : State} (r : SwitchRun) (s : State) (h : Calm z0 s) : Calm z0 (endSwitch r s) := by
  unfold endSwitch
  repeat' first
    | with_reducible first | exact h | apply endSwap_calm | apply nextSchedule_calm | apply twinEvent_calm | apply modEng_calm | apply modBoth_calm
    | (simp only [mk_calm]; with_reducible refine parts_calm ?_)
    | (intro _; (repeat' split) <;> simp; done)
theorem enterMaint_calm {s0 : State} (e : EngId) (cause : Nat) (s : State) (ha : (s.eng e).awake = true) (h : Calm s0 s) :
    Calm s0 (enterMaint e cause s) := setRole_calm _ _ _ (modEng_awake_calm ha h)
theorem execAgeCheck_calm {z0 : State} (e : EngId) (s : State) (h : Calm z0 s) : Fine z0 (execAgeCheck e s) := by
  unfold execAgeCheck
  repeat' first
    | with_reducible first | exact h | apply onEngine_fine | apply modEng_calm
    | (intro _; (repeat' split) <;> simp; done)
    | intro _
theorem execAhnudAnegWait_calm {z0 : State} (e : EngId) (port : Fin 32) (s : State) (h : Calm z0 s) : Fine z0 (execAhnudAnegWait e port s) := by
  unfold execAhnudAnegWait
  repeat' first
    | with_reducible first | exact h | apply onEngine_fine | apply modEng_calm
    | (intro _; (repeat' split) <;> simp; done)
    | intro _
theorem execAhnudFrameReceived_calm {z0 : State} (e : EngId) (port : Fin 32) (bytes : List Byte) (fcs : Word) (s : State) (h : Calm z0 s) : Fine z0 (execAhnudFrameReceived e port bytes fcs s) := by
  unfold execAhnudFrameReceived
  repeat' first
    | with_reducible first | exact h | apply onEngine_fine | apply ahnudFrame_calm | apply modEng_calm
    | (intro _; (repeat' split) <;> simp; done)
    | intro _
theorem execAhnudKeepTimer_calm {z0 : State} (e : EngId) (port : Fin 32) (s : State) (h : Calm z0 s) : Fine z0 (execAhnudKeepTimer e port s) := by
  unfold execAhnudKeepTimer
  repeat' first
    | with_reducible first | exact h | apply onEngine_fine | apply modEng_calm
    | (intro _; (repeat' split) <;> simp; done)
    | intro _
theorem execAhnudOfferTimer_calm {z0 : State} (e : EngId) (port : Fin 32) (s : State) (h : Calm z0 s) : Fine z0 (execAhnudOfferTimer e port s) := by
  unfold execAhnudOfferTimer
  repeat' first
    | with_reducible first | exact h | apply onEngine_fine | apply modEng_calm
    | (intro _; (repeat' split) <;> simp; done)
    | intro _
theorem execAhnudPartnerTimeout_calm {z0 : State} (e : EngId) (port : Fin 32) (s : State) (h : Calm z0 s) : Fine z0 (execAhnudPartnerTimeout e port s) := by
  unfold execAhnudPartnerTimeout
  repeat' first
    | with_reducible first | exact h | apply onEngine_fine | apply modEng_calm
    | (intro _; (repeat' split) <;> simp; done)
    | intro _
theorem execAnFailure_calm {z0 : State} (e : EngId) (port : Fin 34) (s : State) (h : Calm z0 s) : Fine z0 (execAnFailure e port s) := by
  unfold execAnFailure
  repeat' first
    | with_reducible first | exact h | apply onEngine_fine | apply modEng_calm
    | (intro _; (repeat' split) <;> simp; done)
    | intro _
theorem execAnResolved_calm {z0 : State} (e : EngId) (port : Fin 34) (partner : AnPartner) (pause : Bool) (s : State) (h : Calm z0 s) : Fine z0 (execAnResolved e port partner pause s) := by
  unfold execAnResolved
  repeat' first
    | with_reducible first | exact h | apply onEngine_fine | apply modEng_calm
    | (simp; done)
    | intro _
    | split
    | dsimp only
theorem execAnRestart_calm {z0 : State} (e : EngId) (port : Fin 34) (s : State) (h : Calm z0 s) : Fine z0 (execAnRestart e port s) := by
  unfold execAnRestart
  repeat' first
    | with_reducible first | exact h | apply onEngine_fine | apply modEng_calm
    | (intro _; (repeat' split) <;> simp; done)
    | intro _
theorem execAnchorReset_calm {z0 : State} (e : EngId) (port : Fin 32) (s : State) (h : Calm z0 s) : Fine z0 (execAnchorReset e port s) := by
  unfold execAnchorReset
  repeat' first
    | with_reducible first | exact h | apply onEngine_fine | apply modEng_calm
    | (intro _; (repeat' split) <;> simp; done)
    | intro _
theorem execAnchorSample_calm {z0 : State} (e : EngId) (port : Fin 32) (phi : Int) (s : State) (h : Calm z0 s) : Fine z0 (execAnchorSample e port phi s) := by
  unfold execAnchorSample
  repeat' first
    | with_reducible first | exact h | apply onEngine_fine | apply modEng_calm
    | (intro _; (repeat' split) <;> simp; done)
    | intro _
theorem execAsymModelRecompute_calm {z0 : State} (e : EngId) (port : Fin 32) (s : State) (h : Calm z0 s) :
    Fine z0 (execAsymModelRecompute e port s) := by
  unfold execAsymModelRecompute
  exact onEngine_fine (fun h _ => modEng_calm (fun x => by rw [asymChange_core _ _ (fun y => by simp)]) h) h
theorem execBlockLockChange_calm {z0 : State} (e : EngId) (port : Fin 34) (cond : PcsCond) (met : Bool) (s : State) (h : Calm z0 s) : Fine z0 (execBlockLockChange e port cond met s) := by
  unfold execBlockLockChange
  repeat' first
    | with_reducible first | exact h | apply onEngine_fine | apply settle_calm | apply modEng_calm
    | (intro _; (repeat' split) <;> simp; done)
    | intro _
    | split
    | dsimp only
theorem rowBlockResetOverdue_calm {z0 : State} (e : EngId) (reset : BlockReset) (s : State) (h : Calm z0 s) : Fine z0 (rowBlockResetOverdue e reset s) := by
  unfold rowBlockResetOverdue
  repeat' first
    | with_reducible first | exact h | apply onEngine_fine | apply modEng_calm
    | (intro _; (repeat' split) <;> simp; done)
    | intro _
theorem finishPace_calm {z0 : State} (s : State) (h : Calm z0 s) : Calm z0 (finishPace s) := by
  unfold finishPace
  repeat' first
    | with_reducible first | exact h | apply complete_calm
theorem tieGraph_calm {z0 : State} (s : State) (h : Calm z0 s) : Calm z0 (tieGraph s) := by
  unfold tieGraph
  repeat' first
    | with_reducible first | exact h | apply applyCommit_calm | apply foldl_calm
    | (simp only [mk_calm]; with_reducible refine parts_calm ?_)
    | split
theorem flushAll_calm {z0 : State} (s0 : State) (h : Calm z0 s0) : Calm z0 (flushAll s0) := by
  unfold flushAll
  repeat' first
    | with_reducible first | exact h | apply finishPace_calm | apply flushSup_calm | apply flushWaiting_calm | apply tieGraph_calm
    | split
theorem releaseOn_calm {s0 : State} (e : EngId) (s : State) (h : Calm s0 s) : ∀ t, releaseOn e s = some t → Calm s0 t := by
  intro t ht
  unfold releaseOn at ht
  split at ht
  · rw [← Option.some.inj ht]; exact releaseHeld_calm _ _ (modEng_calm (fun _ => rfl) h)
  · exact absurd ht (by simp)
theorem releaseSup_calm {s0 : State} (s : State) (h : Calm s0 s) : ∀ t, releaseSup s = some t → Calm s0 t := by
  intro t ht
  unfold releaseSup at ht
  split at ht
  · rw [← Option.some.inj ht]; exact releaseHeld_calm _ _ (mk_calm.mpr (parts_calm h))
  · exact absurd ht (by simp)
theorem fetchOn_calm {s0 : State} (e : EngId) (s : State) (h : Calm s0 s) : ∀ t, fetchOn e s = some t → Calm s0 t := by
  intro t ht
  unfold fetchOn at ht
  dsimp only at ht
  repeat' split at ht
  · exact absurd ht (by simp)
  · exact absurd ht (by simp)
  · rw [← Option.some.inj ht]; exact setEng_calm (by simp) h
  · rw [← Option.some.inj ht]; exact setEng_calm (by simp) h
  · rw [← Option.some.inj ht]; exact setEng_calm (by simp) h
  · rw [← Option.some.inj ht]; exact takePacket_calm _ _ _ _ _ _ _ _ (setEng_calm (by simp) h)
theorem firstState_calm {s0 : State} (l : List (Option State)) (hl : ∀ o ∈ l, ∀ t, o = some t → Calm s0 t) :
    ∀ t, firstState l = some t → Calm s0 t := by
  induction l with
  | nil => intro t ht; exact absurd ht (by simp [firstState])
  | cons o l ih =>
    cases o with
    | none => exact fun t ht => ih (fun o ho => hl o (.tail _ ho)) t ht
    | some u => exact fun t ht => hl (some u) (.head _) t ht
theorem channelStep_calm {s0 : State} (s : State) (h : Calm s0 s) : ∀ t, channelStep s = some t → Calm s0 t := by
  unfold channelStep
  refine firstState_calm _ ?_
  simp only [List.forall_mem_cons]
  exact ⟨releaseOn_calm _ _ h, releaseOn_calm _ _ h, releaseSup_calm _ h, fetchOn_calm _ _ h, fetchOn_calm _ _ h,
    fun _ k => absurd k List.not_mem_nil⟩
theorem channelRun_calm {s0 : State} (n : Nat) (s : State) (h : Calm s0 s) : Calm s0 (channelRun n s) := by
  induction n generalizing s with
  | zero => exact h
  | succ n ih =>
    unfold channelRun
    split
    · exact ih _ (flushAll_calm _ (channelStep_calm _ h _ ‹_›))
    · exact h
theorem settled_calm {s0 : State} (s : State) (h : Calm s0 s) : Calm s0 (settled s) := channelRun_calm _ _ (flushAll_calm _ h)
theorem settledOut_fine {s0 : State} {o : Host.Outcome State Fault Refusal} (h : Fine s0 o) : Fine s0 (settledOut o) := by
  cases o with
  | next s => exact next_fine (settled_calm _ (h.calm _ rfl))
  | fault f => exact h
  | refused r => exact h
theorem execBlockResetOverdue_calm {z0 : State} (e : EngId) (reset : BlockReset) (s : State) (h : Calm z0 s) : Fine z0 (execBlockResetOverdue e reset s) := by
  unfold execBlockResetOverdue
  repeat' first
    | with_reducible first | exact h | apply settledOut_fine | apply rowBlockResetOverdue_calm
theorem execBlockResetReady_calm {z0 : State} (e : EngId) (reset : BlockReset) (s : State) (h : Calm z0 s) : Fine z0 (execBlockResetReady e reset s) := by
  unfold execBlockResetReady
  repeat' first
    | with_reducible first | exact h | apply onEngine_fine | apply modEng_calm
    | (intro _; (repeat' split) <;> simp; done)
    | intro _
theorem execBufferScrub_calm {z0 : State} (e : EngId) (store : Store) (wordNo : Nat) (outcome : WordOutcome) (late : Bool) (s : State) (h : Calm z0 s) : Fine z0 (execBufferScrub e store wordNo outcome late s) := by
  unfold execBufferScrub
  repeat' first
    | with_reducible first | exact h | apply onEngine_fine | apply modEng_calm
    | (intro _; (repeat' split) <;> simp; done)
    | intro _
theorem execBuildOutSlewDone_calm {z0 : State} (e : EngId) (s : State) (h : Calm z0 s) : Fine z0 (execBuildOutSlewDone e s) := by
  unfold execBuildOutSlewDone
  repeat' first
    | with_reducible first | exact h | apply onEngine_fine | apply modEng_calm
    | (intro _; (repeat' split) <;> simp; done)
    | intro _
theorem retract_calm {z0 : State} (e : EngId) (g : Nat) (s : State) (h : Calm z0 s) : Calm z0 (retract e g s) := by
  unfold retract
  repeat' first
    | with_reducible first | exact h | apply modBoth_calm
    | (simp only [mk_calm]; with_reducible refine parts_calm ?_)
    | (intro _; (repeat' split) <;> simp; done)
    | split
    | dsimp only
theorem settleCommit_calm {z0 : State} (g : Nat) (v : Int) (s : State) (h : Calm z0 s) : Calm z0 (settleCommit g v s) := by
  unfold settleCommit
  repeat' first
    | with_reducible first | exact h | apply modBoth_calm
    | (simp only [mk_calm]; with_reducible refine parts_calm ?_)
    | (intro _; (repeat' split) <;> simp; done)
    | split
    | dsimp only
theorem rowCalAsymWindowEnd_calm {z0 : State} (e : EngId) (s : State) (h : Calm z0 s) : Fine z0 (rowCalAsymWindowEnd e s) := by
  unfold rowCalAsymWindowEnd
  repeat' first
    | with_reducible first | exact h | apply onEngine_fine | apply complete_calm | apply retract_calm | apply settleCommit_calm | apply modEng_calm
    | (simp only [mk_calm]; with_reducible refine parts_calm ?_)
    | (intro _; (repeat' split) <;> simp; done)
    | intro _
    | split
    | dsimp only
theorem execCalAsymWindowEnd_calm {z0 : State} (e : EngId) (s : State) (h : Calm z0 s) : Fine z0 (execCalAsymWindowEnd e s) := by
  unfold execCalAsymWindowEnd
  repeat' first
    | with_reducible first | exact h | apply settledOut_fine | apply rowCalAsymWindowEnd_calm
theorem execCalDue_calm {z0 : State} (e : EngId) (kind : Fin 7) (idx : Nat) (s : State) (h : Calm z0 s) : Fine z0 (execCalDue e kind idx s) := by
  unfold execCalDue
  repeat' first
    | with_reducible first | exact h | apply onEngine_fine | apply modEng_calm
    | (intro _; (repeat' split) <;> simp; done)
    | intro _
theorem submit_calm {s0 : State} (sp : CmdSpec) (a : Arrival) (ps : List Word) (s : State) (ht : Tame sp) (h : Calm s0 s) :
    Calm s0 (submit sp a ps s) := by
  unfold submit
  split
  · exact accept_calm _ _ _ _ ht h
  · exact h
theorem takeCommand_calm {s0 : State} (sp : CmdSpec) (a : Arrival) (ps : List Word) (s : State) (ht : Tame sp) (h : Calm s0 s) :
    Calm s0 (takeCommand sp a ps s) := settled_calm _ (submit_calm _ _ _ _ ht h)
theorem execCalGetStatus_calm {z0 : State} (a : Arrival) (ps : List Word) (s : State) (h : Calm z0 s) : Fine z0 (execCalGetStatus a ps s) := by
  unfold execCalGetStatus
  repeat' first
    | with_reducible first | exact h | apply next_fine | apply calGetStatusSpec_calm | apply takeCommand_calm
theorem rowCalProbe_calm {z0 : State} (e : EngId) (kind : Fin 7) (idx : Nat) (ok : Bool) (value : Int) (s : State) (h : Calm z0 s) : Fine z0 (rowCalProbe e kind idx ok value s) := by
  unfold rowCalProbe
  repeat' first
    | with_reducible first | exact h | apply onEngine_fine | apply answerRun_calm | apply setEng_calm
    | (simp; done)
    | intro _
    | split
    | dsimp only
theorem execCalProbe_calm {z0 : State} (e : EngId) (kind : Fin 7) (idx : Nat) (ok : Bool) (value : Int) (s : State) (h : Calm z0 s) : Fine z0 (execCalProbe e kind idx ok value s) := by
  unfold execCalProbe
  repeat' first
    | with_reducible first | exact h | apply settledOut_fine | apply rowCalProbe_calm
theorem execCalRepair_calm {z0 : State} (a : Arrival) (ps : List Word) (s : State) (h : Calm z0 s) : Fine z0 (execCalRepair a ps s) := by
  unfold execCalRepair
  repeat' first
    | with_reducible first | exact h | apply next_fine | apply calRepairSpec_calm | apply takeCommand_calm
theorem execCalRun_calm {z0 : State} (a : Arrival) (ps : List Word) (s : State) (h : Calm z0 s) : Fine z0 (execCalRun a ps s) := by
  unfold execCalRun
  repeat' first
    | with_reducible first | exact h | apply next_fine | apply calRunSpec_calm | apply takeCommand_calm
theorem execCalSet_calm {z0 : State} (a : Arrival) (ps : List Word) (s : State) (h : Calm z0 s) : Fine z0 (execCalSet a ps s) := by
  unfold execCalSet
  repeat' first
    | with_reducible first | exact h | apply next_fine | apply calSetSpec_calm | apply takeCommand_calm
theorem rowCalStarve_calm {z0 : State} (e : EngId) (kind : Fin 7) (idx : Nat) (s : State) (h : Calm z0 s) : Fine z0 (rowCalStarve e kind idx s) := by
  unfold rowCalStarve
  repeat' first
    | with_reducible first | exact h | apply onEngine_fine | apply answerRun_calm | apply setEng_calm
    | (simp; done)
    | intro _
    | split
    | dsimp only
theorem execCalStarve_calm {z0 : State} (e : EngId) (kind : Fin 7) (idx : Nat) (s : State) (h : Calm z0 s) : Fine z0 (execCalStarve e kind idx s) := by
  unfold execCalStarve
  repeat' first
    | with_reducible first | exact h | apply settledOut_fine | apply rowCalStarve_calm
theorem execChannelStatRead_calm {z0 : State} (e : EngId) (ch : Fin 4) (s : State) (h : Calm z0 s) : Fine z0 (execChannelStatRead e ch s) := by
  unfold execChannelStatRead
  repeat' first
    | with_reducible first | exact h | apply onEngine_fine | apply readLeaves_calm
    | (simp only [mk_calm]; with_reducible refine parts_calm ?_)
    | (intro _; (repeat' split) <;> simp; done)
    | intro _
    | split
    | dsimp only
theorem rowCollectorCheck_calm {z0 : State} (e : EngId) (s : State) (h : Calm z0 s) : Fine z0 (rowCollectorCheck e s) := by
  unfold rowCollectorCheck
  repeat' first
    | with_reducible first | exact h | apply onEngine_fine | apply checkerFault_calm
    | intro _
theorem execCollectorCheck_calm {z0 : State} (e : EngId) (s : State) (h : Calm z0 s) : Fine z0 (execCollectorCheck e s) := by
  unfold execCollectorCheck
  repeat' first
    | with_reducible first | exact h | apply settledOut_fine | apply rowCollectorCheck_calm
theorem execCommitAckReceived_calm {z0 : State} (s : State) (h : Calm z0 s) : Fine z0 (execCommitAckReceived s) := by
  unfold execCommitAckReceived
  repeat' first
    | with_reducible first | exact h | apply onTwin_fine | apply settledOut_fine | apply commitAck_calm
theorem execCommitMarkerReceived_calm {z0 : State} (s : State) (h : Calm z0 s) : Fine z0 (execCommitMarkerReceived s) := by
  unfold execCommitMarkerReceived
  repeat' first
    | with_reducible first | exact h | apply onTwin_fine | apply applyCommit_calm
    | (simp only [mk_calm]; with_reducible refine parts_calm ?_)
    | intro _
    | split
theorem execCopyTimeout_calm {z0 : State} (s : State) (h : Calm z0 s) : Fine z0 (execCopyTimeout s) := by
  unfold execCopyTimeout
  repeat' first
    | with_reducible first | exact h | apply onTwin_fine | apply settledOut_fine | apply copyTimeout_calm
theorem execCopyTransmitEnd_calm {z0 : State} (e : EngId) (port : Fin 34) (s : State) (h : Calm z0 s) : Fine z0 (execCopyTransmitEnd e port s) := by
  unfold execCopyTransmitEnd
  repeat' first
    | with_reducible first | exact h | apply onEngine_fine | apply modEng_calm
    | (intro _; (repeat' split) <;> simp; done)
    | intro _
theorem execCrossStall_calm {z0 : State} (e : EngId) (channel : Fin 10) (s : State) (h : Calm z0 s) : Fine z0 (execCrossStall e channel s) := by
  unfold execCrossStall
  repeat' first
    | with_reducible first | exact h | apply onEngine_fine | apply modEng_calm
    | (intro _; (repeat' split) <;> simp; done)
    | intro _
theorem execD0Lost_calm {z0 : State} (e : EngId) (s : State) (h : Calm z0 s) : Fine z0 (execD0Lost e s) := by
  unfold execD0Lost
  repeat' first
    | with_reducible first | exact h | apply onEngine_fine | apply modEng_calm
    | (intro _; (repeat' split) <;> simp; done)
    | intro _
theorem execDieTempRead_calm {z0 : State} (e : EngId) (raw : Int) (s : State) (h : Calm z0 s) : Fine z0 (execDieTempRead e raw s) := by
  unfold execDieTempRead
  repeat' first
    | with_reducible first | exact h | apply onEngine_fine | apply modEng_calm
    | (intro _; (repeat' split) <;> simp; done)
    | intro _
theorem execDigestCompare_calm {z0 : State} (s : State) (h : Calm z0 s) : Fine z0 (execDigestCompare s) := by
  unfold execDigestCompare
  repeat' first
    | with_reducible first | exact h | apply onTwin_fine | apply passTo_calm | apply modEng_calm | apply modBoth_calm | apply setEng_calm
    | (intro _; (repeat' split) <;> simp; done)
    | (simp; done)
    | intro _
    | split
    | dsimp only
theorem execDigestWindowClose_calm {z0 : State} (s : State) (h : Calm z0 s) : Fine z0 (execDigestWindowClose s) := by
  unfold execDigestWindowClose
  repeat' first
    | with_reducible first | exact h | apply onTwin_fine | apply passTo_calm | apply modEng_calm
    | (intro _; (repeat' split) <;> simp; done)
    | intro _
    | split
theorem execDomainLossClear_calm {z0 : State} (e : EngId) (mask : Word) (s : State) (h : Calm z0 s) : Fine z0 (execDomainLossClear e mask s) := by
  unfold execDomainLossClear
  repeat' first
    | with_reducible first | exact h | apply onEngine_fine | apply modEng_calm
    | (intro _; (repeat' split) <;> simp; done)
    | intro _
theorem rowDrainEnd_calm {z0 : State} (e : EngId) (s : State) (h : Calm z0 s) : Fine z0 (rowDrainEnd e s) := by
  unfold rowDrainEnd
  repeat' first
    | with_reducible first | exact h | apply onEngine_fine | apply endDrain_calm
    | intro _
theorem execDrainEnd_calm {z0 : State} (e : EngId) (s : State) (h : Calm z0 s) : Fine z0 (execDrainEnd e s) := by
  unfold execDrainEnd
  repeat' first
    | with_reducible first | exact h | apply settledOut_fine | apply rowDrainEnd_calm
theorem execDrainFetchDone_calm {z0 : State} (fetch : DrainFetch) (s : State) (h : Calm z0 s) : Fine z0 (execDrainFetchDone fetch s) := by
  unfold execDrainFetchDone
  repeat' first
    | with_reducible first | exact h | apply onEngine_fine | apply modEng_calm
    | (intro _; (repeat' split) <;> simp; done)
    | intro _
theorem execDupForget_calm {z0 : State} (e : EngId) (s : State) (h : Calm z0 s) : Fine z0 (execDupForget e s) := by
  unfold execDupForget
  repeat' first
    | with_reducible first | exact h | apply onEngine_fine | apply passTo_calm | apply modEng_calm
    | (intro _; (repeat' split) <;> simp; done)
    | intro _
    | split
theorem refuseCopy_calm {z0 : State} (e : EngId) (s : State) (h : Calm z0 s) : Calm z0 (refuseCopy e s) := by
  unfold refuseCopy
  repeat' first
    | with_reducible first | exact h | apply twinEvent_calm | apply setCopy_calm | apply modEng_calm
    | (simp only [mk_calm]; with_reducible refine parts_calm ?_)
    | (intro _; (repeat' split) <;> simp; done)
    | split
    | dsimp only
theorem joinStandby_calm {z0 : State} (e : EngId) (s : State) (h : Calm z0 s) : Calm z0 (joinStandby e s) := by
  unfold joinStandby
  repeat' first
    | with_reducible first | exact h | apply refuseCopy_calm | apply setCopy_calm | apply setRole_calm | apply twinEvent_calm | apply modEng_calm
    | (simp only [mk_calm]; with_reducible refine parts_calm ?_)
    | (intro _; (repeat' split) <;> simp; done)
    | split
    | dsimp only
theorem setSteer_calm {z0 : State} (e : EngId) (s : State) (h : Calm z0 s) : Calm z0 (setSteer e s) := by
  unfold setSteer
  repeat' first
    | with_reducible first | exact h | apply modBoth_calm
    | (simp only [mk_calm]; with_reducible refine parts_calm ?_)
    | (intro _; (repeat' split) <;> simp; done)
    | split
theorem grantOne_calm {s0 : State} (e : EngId) (s : State) (h : Calm s0 s) : Calm s0 (grantOne e s) := by
  unfold grantOne
  dsimp only
  repeat' split
  · exact h
  · exact becomeActive_calm _ _ h
  · exact joinStandby_calm _ _ h
  · exact setSteer_calm _ _ (becomeActive_calm _ _ h)
  · exact setSteer_calm _ _ (becomeActive_calm _ _ h)
  · exact h
theorem judgeGrants_calm {z0 : State} (s : State) (h : Calm z0 s) : Calm z0 (judgeGrants s) := by
  unfold judgeGrants
  repeat' first
    | with_reducible first | exact h | apply grantOne_calm
theorem execEngineBStartTimeout_calm {z0 : State} (s : State) (h : Calm z0 s) : Fine z0 (execEngineBStartTimeout s) := by
  unfold execEngineBStartTimeout
  repeat' first
    | with_reducible first | exact h | apply onTwin_fine | apply judgeGrants_calm
    | (simp only [mk_calm]; with_reducible refine parts_calm ?_)
    | intro _
theorem judgeLevel_calm {z0 : State} (e : EngId) (s : State) (h : Calm z0 s) : Calm z0 (judgeLevel e s) := by
  unfold judgeLevel
  repeat' first
    | with_reducible first | exact h
    | (simp only [mk_calm]; with_reducible refine parts_calm ?_)
theorem startFirmware_calm {s0 : State} (e : EngId) (bad : List Nat) (s : State) (ha : (s.eng e).awake = true) (h : Calm s0 s) :
    Calm s0 (startFirmware e bad s) := modEng_awake_calm ha h
theorem modFw_eng_core (u : UnitId) (f : FwUnit → FwUnit) (s : State) (e : EngId) : ((modFw u f s).eng e).core = (s.eng e).core := by
  cases u with
  | sup => cases e <;> rfl
  | eng d => cases d <;> cases e <;> rfl
theorem bootUnit_eng_core (u : UnitId) (s : State) (e : EngId) : ((bootUnit u s).eng e).core = (s.eng e).core := by
  unfold bootUnit
  dsimp only
  split <;> simp only [modFw_eng_core]
theorem judgeLevel_eng_core (d : EngId) (s : State) (e : EngId) : ((judgeLevel d s).eng e).core = (s.eng e).core := by
  cases e <;> rfl
theorem execEngineBoot_calm {z0 : State} (e : EngId) (recordsBad : List Nat) (s : State) (h : Calm z0 s) : Fine z0 (execEngineBoot e recordsBad s) := by
  unfold execEngineBoot
  split
  · exact refused_fine
  · split
    · exact next_fine h
    · next hp =>
      extract_lets maint s1 s2
      have h1 : Calm z0 s1 := judgeLevel_calm _ _ (bootUnit_calm _ _ h)
      have c1 : (s1.eng e).core = (s.eng e).core := by rw [judgeLevel_eng_core, bootUnit_eng_core]
      have a1 : (s1.eng e).awake = true := by
        unfold Engine.awake
        rw [c1, Classical.not_not.mp hp]
      clear_value s1
      have h2 : Calm z0 s2 := startFirmware_calm _ _ _ a1 h1
      have a2 : (s2.eng e).awake = true := by
        have c2 : (s2.eng e).core.phase = .firmware := by simp [s2, startFirmware, foldl_core]
        unfold Engine.awake
        rw [c2]
      clear_value s2
      split
      · refine next_fine (judgeGrants_calm _ ?_)
        split
        · exact enterCul_calm _ _ h1
        · exact enterMaint_calm _ _ _ a1 h1
      · split
        · exact next_fine (judgeGrants_calm _ (enterCul_calm _ _ h2))
        · split
          · exact next_fine (judgeGrants_calm _ (enterMaint_calm _ _ _ a2 h2))
          · split
            · exact next_fine (judgeGrants_calm _ (enterMaint_calm _ _ _ a2 h2))
            · exact next_fine h2
theorem execEngineLeaveReset_calm {z0 : State} (e : EngId) (s : State) (h : Calm z0 s) : Fine z0 (execEngineLeaveReset e s) := by
  unfold execEngineLeaveReset
  repeat' first
    | with_reducible first | exact h | apply next_fine | exact refused_fine | apply leaveReset_calm
    | split
theorem execEngineReady_calm {z0 : State} (e : EngId) (s : State) (h : Calm z0 s) : Fine z0 (execEngineReady e s) := by
  unfold execEngineReady
  refine onEngine_fine (fun h ha => ?_) h
  dsimp only
  split
  · refine judgeGrants_calm _ (mk_calm.mpr (parts_calm (modEng_awake_calm ha h)))
  · exact h
theorem execEvtStatusClear_calm {z0 : State} (e : EngId) (mask : Word) (s : State) (h : Calm z0 s) : Fine z0 (execEvtStatusClear e mask s) := by
  unfold execEvtStatusClear
  repeat' first
    | with_reducible first | exact h | apply onEngine_fine | apply modEng_calm
    | (intro _; (repeat' split) <;> simp; done)
    | intro _
theorem passAfter_calm {z0 : State} (after : Nat) (s : State) (h : Calm z0 s) : Calm z0 (passAfter after s) := by
  unfold passAfter
  repeat' first
    | with_reducible first | exact h | apply pass_calm
theorem execEvtinEdge_calm {z0 : State} (e : EngId) (input : Fin 8) (rise : Bool) (heldNs : Nat) (after : Nat) (s : State) (h : Calm z0 s) : Fine z0 (execEvtinEdge e input rise heldNs after s) := by
  unfold execEvtinEdge
  repeat' first
    | with_reducible first | exact h | apply onEngine_fine | apply passAfter_calm | apply modEng_calm
    | (intro _; (repeat' split) <;> simp; done)
    | intro _
theorem execEvtoutEdge_calm {z0 : State} (e : EngId) (out : Fin 8) (s : State) (h : Calm z0 s) : Fine z0 (execEvtoutEdge e out s) := by
  unfold execEvtoutEdge
  repeat' first
    | with_reducible first | exact h | apply onEngine_fine | apply passTo_calm | apply modEng_calm
    | (simp only [mk_calm]; with_reducible refine parts_calm ?_)
    | (intro _; (repeat' split) <;> simp; done)
    | intro _
    | split
    | dsimp only
theorem rowF2WindowEnd_calm {z0 : State} (e : EngId) (source : Byte) (kind : Byte) (inj : Bool) (s : State) (h : Calm z0 s) : Fine z0 (rowF2WindowEnd e source kind inj s) := by
  unfold rowF2WindowEnd
  repeat' first
    | with_reducible first | exact h | apply onEngine_fine | apply endF2_calm
    | intro _
theorem execF2WindowEnd_calm {z0 : State} (e : EngId) (source : Byte) (kind : Byte) (inj : Bool) (s : State) (h : Calm z0 s) : Fine z0 (execF2WindowEnd e source kind inj s) := by
  unfold execF2WindowEnd
  repeat' first
    | with_reducible first | exact h | apply settledOut_fine | apply rowF2WindowEnd_calm
theorem rowF3WindowEnd_calm {z0 : State} (e : EngId) (inj : Bool) (s : State) (h : Calm z0 s) : Fine z0 (rowF3WindowEnd e inj s) := by
  unfold rowF3WindowEnd
  repeat' first
    | with_reducible first | exact h | apply onEngine_fine | apply endF3_calm
    | intro _
theorem execF3WindowEnd_calm {z0 : State} (e : EngId) (inj : Bool) (s : State) (h : Calm z0 s) : Fine z0 (execF3WindowEnd e inj s) := by
  unfold execF3WindowEnd
  repeat' first
    | with_reducible first | exact h | apply settledOut_fine | apply rowF3WindowEnd_calm
theorem execFastScrubEnd_calm {z0 : State} (activeWords : Nat) (standbyWords : Nat) (s : State) (h : Calm z0 s) : Fine z0 (execFastScrubEnd activeWords standbyWords s) := by
  unfold execFastScrubEnd
  repeat' first
    | with_reducible first | exact h | apply onTwin_fine | apply giveUp_calm | apply twinEvent_calm | apply modEng_calm | apply modBoth_calm
    | (intro _; (repeat' split) <;> simp; done)
    | intro _
    | split
    | dsimp only
theorem execFaultActNow_calm {z0 : State} (a : Arrival) (ps : List Word) (s : State) (h : Calm z0 s) : Fine z0 (execFaultActNow a ps s) := by
  unfold execFaultActNow
  repeat' first
    | with_reducible first | exact h | apply next_fine | apply faultActNowSpec_calm | apply takeCommand_calm
theorem execFaultClearInj_calm {z0 : State} (a : Arrival) (ps : List Word) (s : State) (h : Calm z0 s) : Fine z0 (execFaultClearInj a ps s) := by
  unfold execFaultClearInj
  repeat' first
    | with_reducible first | exact h | apply next_fine | apply faultClearInjSpec_calm | apply takeCommand_calm
theorem execFaultGetFirst_calm {z0 : State} (a : Arrival) (ps : List Word) (s : State) (h : Calm z0 s) : Fine z0 (execFaultGetFirst a ps s) := by
  unfold execFaultGetFirst
  repeat' first
    | with_reducible first | exact h | apply next_fine | apply faultGetFirstSpec_calm | apply takeCommand_calm
theorem execFaultInject_calm {z0 : State} (a : Arrival) (ps : List Word) (s : State) (h : Calm z0 s) : Fine z0 (execFaultInject a ps s) := by
  unfold execFaultInject
  repeat' first
    | with_reducible first | exact h | apply next_fine | apply faultInjectSpec_calm | apply takeCommand_calm
theorem execFaultInjectEcc_calm {z0 : State} (a : Arrival) (ps : List Word) (s : State) (h : Calm z0 s) : Fine z0 (execFaultInjectEcc a ps s) := by
  unfold execFaultInjectEcc
  repeat' first
    | with_reducible first | exact h | apply next_fine | apply faultInjectEccSpec_calm | apply takeCommand_calm
theorem rowFaultMessageArrival_calm {z0 : State} (e : EngId) (s : State) (h : Calm z0 s) : Fine z0 (rowFaultMessageArrival e s) := by
  unfold rowFaultMessageArrival
  repeat' first
    | with_reducible first | exact h | apply onEngine_fine | apply arriveFault_calm
    | intro _
theorem execFaultMessageArrival_calm {z0 : State} (e : EngId) (s : State) (h : Calm z0 s) : Fine z0 (execFaultMessageArrival e s) := by
  unfold execFaultMessageArrival
  repeat' first
    | with_reducible first | exact h | apply settledOut_fine | apply rowFaultMessageArrival_calm
theorem execFaultReadLog_calm {z0 : State} (a : Arrival) (ps : List Word) (s : State) (h : Calm z0 s) : Fine z0 (execFaultReadLog a ps s) := by
  unfold execFaultReadLog
  repeat' first
    | with_reducible first | exact h | apply next_fine | apply faultReadLogSpec_calm | apply takeCommand_calm
theorem execFaultRelease_calm {z0 : State} (a : Arrival) (ps : List Word) (s : State) (h : Calm z0 s) : Fine z0 (execFaultRelease a ps s) := by
  unfold execFaultRelease
  repeat' first
    | with_reducible first | exact h | apply next_fine | apply faultReleaseSpec_calm | apply takeCommand_calm
theorem execFaultSetEvents_calm {z0 : State} (a : Arrival) (ps : List Word) (s : State) (h : Calm z0 s) : Fine z0 (execFaultSetEvents a ps s) := by
  unfold execFaultSetEvents
  repeat' first
    | with_reducible first | exact h | apply next_fine | apply faultSetEventsSpec_calm | apply takeCommand_calm
theorem execFaultSetWindows_calm {z0 : State} (a : Arrival) (ps : List Word) (s : State) (h : Calm z0 s) : Fine z0 (execFaultSetWindows a ps s) := by
  unfold execFaultSetWindows
  repeat' first
    | with_reducible first | exact h | apply next_fine | apply faultSetWindowsSpec_calm | apply takeCommand_calm
theorem execFdbAgeSweep_calm {z0 : State} (e : EngId) (s : State) (h : Calm z0 s) : Fine z0 (execFdbAgeSweep e s) := by
  unfold execFdbAgeSweep
  repeat' first
    | with_reducible first | exact h | apply onEngine_fine | apply modEng_calm
    | (intro _; (repeat' split) <;> simp; done)
    | intro _
theorem execFirstValidClear_calm {z0 : State} (e : EngId) (s : State) (h : Calm z0 s) : Fine z0 (execFirstValidClear e s) := by
  unfold execFirstValidClear
  repeat' first
    | with_reducible first | exact h | apply onEngine_fine | apply modEng_calm
    | (intro _; (repeat' split) <;> simp; done)
    | intro _
theorem execFlipAt_calm {z0 : State} (e : EngId) (s : State) (h : Calm z0 s) : Fine z0 (execFlipAt e s) := by
  unfold execFlipAt
  repeat' first
    | with_reducible first | exact h | apply onEngine_fine | apply passTo_calm | apply modEng_calm
    | (intro _; (repeat' split) <;> simp; done)
    | intro _
    | split
theorem fofDown_calm {z0 : State} (s : State) (h : Calm z0 s) : Calm z0 (fofDown s) := by
  unfold fofDown
  repeat' first
    | with_reducible first | exact h | apply releaseActive_calm | apply setCopy_calm | apply twinEvent_calm | apply modEng_calm | apply modBoth_calm
    | (simp only [mk_calm]; with_reducible refine parts_calm ?_)
    | (intro _; (repeat' split) <;> simp; done)
    | split
    | dsimp only
theorem linkDown_calm {z0 : State} (s : State) (h : Calm z0 s) : Calm z0 (linkDown s) := by
  unfold linkDown
  repeat' first
    | with_reducible first | exact h | apply fofDown_calm | apply judgeActive_calm
    | (simp only [mk_calm]; with_reducible refine parts_calm ?_)
    | (intro _; (repeat' split) <;> simp; done)
    | split
    | dsimp only
theorem execFofLinkDown_calm {z0 : State} (s : State) (h : Calm z0 s) : Fine z0 (execFofLinkDown s) := by
  unfold execFofLinkDown
  repeat' first
    | with_reducible first | exact h | apply onTwin_fine | apply settledOut_fine | apply linkDown_calm
theorem fofBack_calm {z0 : State} (s : State) (h : Calm z0 s) : Calm z0 (fofBack s) := by
  unfold fofBack
  repeat' first
    | with_reducible first | exact h | apply refuseCopy_calm | apply setCopy_calm | apply twinEvent_calm | apply modEng_calm
    | (simp only [mk_calm]; with_reducible refine parts_calm ?_)
    | (intro _; (repeat' split) <;> simp; done)
    | split
    | dsimp only
theorem execFofLinkUp_calm {z0 : State} (s : State) (h : Calm z0 s) : Fine z0 (execFofLinkUp s) := by
  unfold execFofLinkUp
  repeat' first
    | with_reducible first | exact h | apply onTwin_fine | apply fofBack_calm
theorem execFofTimestampReceived_calm {z0 : State} (port : Fin 34) (stamp : Nat) (s : State) (h : Calm z0 s) : Fine z0 (execFofTimestampReceived port stamp s) := by
  unfold execFofTimestampReceived
  repeat' first
    | with_reducible first | exact h | apply onTwin_fine | apply modEng_calm
    | (intro _; (repeat' split) <;> simp; done)
    | intro _
    | split
theorem rowFofaeneBeat_calm {z0 : State} (e : EngId) (giveUp : Bool) (s : State) (h : Calm z0 s) : Fine z0 (rowFofaeneBeat e giveUp s) := by
  unfold rowFofaeneBeat
  repeat' first
    | with_reducible first | exact h | apply onTwin_fine | apply beatOnFof_calm | apply fofBack_calm
    | (simp only [mk_calm]; with_reducible refine parts_calm ?_)
    | (intro _; (repeat' split) <;> simp; done)
    | intro _
    | split
    | dsimp only
theorem execFofaeneBeat_calm {z0 : State} (e : EngId) (giveUp : Bool) (s : State) (h : Calm z0 s) : Fine z0 (execFofaeneBeat e giveUp s) := by
  unfold execFofaeneBeat
  repeat' first
    | with_reducible first | exact h | apply settledOut_fine | apply rowFofaeneBeat_calm
theorem frameHead_calm {z0 : State} (e : EngId) (p interp : Nat) (bytes : List Byte) (s : State) (h : Calm z0 s) :
    Calm z0 (frameHead e p interp bytes s) := by
  unfold frameHead
  dsimp only [takeFree]
  split
  · exact h
  · split
    · have k := sampleChoice_core (Config.freeNat s.freeCtr) p ((s.eng e).portStamp p 0 interp) (State.eng { s with freeCtr := s.freeCtr + 1 } e)
      generalize sampleChoice _ _ _ _ = q at k ⊢
      obtain ⟨dup, x1⟩ := q
      refine setEng_calm ?_ (mk_calm.mpr (parts_calm h))
      simpa using congrArg CoreState.phase k
    · exact setEng_calm (by simp) h
theorem execFrameHeadReceived_calm {z0 : State} (e : EngId) (port : Fin 34) (after : Nat) (bytes : List Byte)
    (hands : List (Fin 10 × Nat)) (s : State) (h : Calm z0 s) : Fine z0 (execFrameHeadReceived e port after bytes hands s) :=
  onEngine_fine (fun h _ => frameHead_calm _ _ _ _ _ (modEng_calm (fun x => by simp) (passAfter_calm _ _ h))) h
theorem frameTail_calm {z0 : State} (e : EngId) (p : Nat) (word : Word) (s : State) (h : Calm z0 s) :
    Calm z0 (frameTail e p word s) := by
  unfold frameTail
  split
  · exact h
  · next a _ =>
    extract_lets fcs out ok judged s1 x
    have ho : ∀ x, (out x).core = x.core := fun x => by simp [out]
    have h1 : Calm z0 s1 := by
      refine modEng_calm (fun x => ?_) h
      (repeat' split) <;> simp [ho]
    have hx : x.core.phase = (s1.eng e).core.phase := rfl
    clear_value x s1
    split
    · exact h1
    · exact modEng_calm (fun x => by simp) h1
    · split
      · exact modEng_calm (fun x => by simp) h1
      · exact h1
    · exact ahnudFrame_calm _ _ _ _ _ h1
    · split
      dsimp only [takeFree]
      split
      · exact setEng_calm (by simpa using hx) (mk_calm.mpr (parts_calm h1))
      · exact setEng_calm (by simpa using hx) h1
theorem execFrameTailReceived_calm {z0 : State} (e : EngId) (port : Fin 34) (fcs : Word) (s : State) (h : Calm z0 s) :
    Fine z0 (execFrameTailReceived e port fcs s) := onEngine_fine (fun h _ => frameTail_calm e _ fcs _ h) h
theorem execFullCopyEnd_calm {z0 : State} (s : State) (h : Calm z0 s) : Fine z0 (execFullCopyEnd s) := by
  unfold execFullCopyEnd
  repeat' first
    | with_reducible first | exact h | apply onTwin_fine | apply endCopyRun_calm
    | intro _
    | split
    | dsimp only
theorem execFuseBurnDone_calm {z0 : State} (u : UnitId) (s : State) (h : Calm z0 s) : Fine z0 (execFuseBurnDone u s) := by
  unfold execFuseBurnDone
  repeat' first
    | with_reducible first | exact h | apply onUnit_fine | apply settledOut_fine | apply burnDone_calm
theorem execFwGetInfo_calm {z0 : State} (a : Arrival) (ps : List Word) (s : State) (h : Calm z0 s) : Fine z0 (execFwGetInfo a ps s) := by
  unfold execFwGetInfo
  repeat' first
    | with_reducible first | exact h | apply next_fine | apply fwGetInfoSpec_calm | apply takeCommand_calm
theorem execFwRestart_calm {z0 : State} (a : Arrival) (ps : List Word) (s : State) (h : Calm z0 s) : Fine z0 (execFwRestart a ps s) := by
  unfold execFwRestart
  repeat' first
    | with_reducible first | exact h | apply next_fine | apply fwRestartSpec_calm | apply takeCommand_calm
theorem restartEngine_calm {z0 : State} (e : EngId) (maint : Bool) (s : State) (h : Calm z0 s) : Calm z0 (restartEngine e maint s) := by
  unfold restartEngine
  repeat' first
    | with_reducible first | exact h | apply leaveReset_calm | apply resetEngine_calm | apply modEng_calm
    | (intro _; (repeat' split) <;> simp; done)
    | split
theorem restartSup_calm {z0 : State} (s : State) (h : Calm z0 s) : Calm z0 (restartSup s) := by
  unfold restartSup
  repeat' first
    | with_reducible first | exact h | apply abandonUnit_calm | apply modBoth_calm
    | (simp only [mk_calm]; with_reducible refine parts_calm ?_)
    | (intro _; (repeat' split) <;> simp; done)
theorem restartUnit_calm {z0 : State} (u : UnitId) (s : State) (h : Calm z0 s) : Calm z0 (restartUnit u s) := by
  unfold restartUnit
  repeat' first
    | with_reducible first | exact h | apply restartEngine_calm | apply restartSup_calm
    | split
theorem rowFwRestartExecute_calm {z0 : State} (u : UnitId) (s : State) (h : Calm z0 s) : Fine z0 (rowFwRestartExecute u s) := by
  unfold rowFwRestartExecute
  repeat' first
    | with_reducible first | exact h | apply onUnit_fine | apply restartUnit_calm
theorem execFwRestartExecute_calm {z0 : State} (u : UnitId) (s : State) (h : Calm z0 s) : Fine z0 (execFwRestartExecute u s) := by
  unfold execFwRestartExecute
  repeat' first
    | with_reducible first | exact h | apply settledOut_fine | apply rowFwRestartExecute_calm
theorem execFwSelectSlot_calm {z0 : State} (a : Arrival) (ps : List Word) (s : State) (h : Calm z0 s) : Fine z0 (execFwSelectSlot a ps s) := by
  unfold execFwSelectSlot
  repeat' first
    | with_reducible first | exact h | apply next_fine | apply fwSelectSlotSpec_calm | apply takeCommand_calm
theorem execFwSessionTimeout_calm {z0 : State} (u : UnitId) (s : State) (h : Calm z0 s) : Fine z0 (execFwSessionTimeout u s) := by
  unfold execFwSessionTimeout
  repeat' first
    | with_reducible first | exact h | apply onUnit_fine | apply abandonUnit_calm
theorem execFwVerifyImage_calm {z0 : State} (a : Arrival) (ps : List Word) (s : State) (h : Calm z0 s) : Fine z0 (execFwVerifyImage a ps s) := by
  unfold execFwVerifyImage
  repeat' first
    | with_reducible first | exact h | apply next_fine | apply fwVerifyImageSpec_calm | apply takeCommand_calm
theorem execFwWatchdog_calm {z0 : State} (e : EngId) (s : State) (h : Calm z0 s) : Fine z0 (execFwWatchdog e s) := by
  unfold execFwWatchdog
  repeat' first
    | with_reducible first | exact h | apply onEngine_fine | apply modEng_calm
    | (intro _; (repeat' split) <;> simp; done)
    | intro _
theorem execFwWriteImage_calm {z0 : State} (a : Arrival) (ps : List Word) (s : State) (h : Calm z0 s) : Fine z0 (execFwWriteImage a ps s) := by
  unfold execFwWriteImage
  repeat' first
    | with_reducible first | exact h | apply next_fine | apply fwWriteImageSpec_calm | apply takeCommand_calm
theorem execFwdAdd_calm {z0 : State} (a : Arrival) (ps : List Word) (s : State) (h : Calm z0 s) : Fine z0 (execFwdAdd a ps s) := by
  unfold execFwdAdd
  repeat' first
    | with_reducible first | exact h | apply next_fine | apply fwdAddSpec_calm | apply takeCommand_calm
theorem execFwdDelete_calm {z0 : State} (a : Arrival) (ps : List Word) (s : State) (h : Calm z0 s) : Fine z0 (execFwdDelete a ps s) := by
  unfold execFwdDelete
  repeat' first
    | with_reducible first | exact h | apply next_fine | apply fwdDeleteSpec_calm | apply takeCommand_calm
theorem execFwdFlush_calm {z0 : State} (a : Arrival) (ps : List Word) (s : State) (h : Calm z0 s) : Fine z0 (execFwdFlush a ps s) := by
  unfold execFwdFlush
  repeat' first
    | with_reducible first | exact h | apply next_fine | apply fwdFlushSpec_calm | apply takeCommand_calm
theorem execFwdLookup_calm {z0 : State} (a : Arrival) (ps : List Word) (s : State) (h : Calm z0 s) : Fine z0 (execFwdLookup a ps s) := by
  unfold execFwdLookup
  repeat' first
    | with_reducible first | exact h | apply next_fine | apply fwdLookupSpec_calm | apply takeCommand_calm
theorem execFwdSetAgeing_calm {z0 : State} (a : Arrival) (ps : List Word) (s : State) (h : Calm z0 s) : Fine z0 (execFwdSetAgeing a ps s) := by
  unfold execFwdSetAgeing
  repeat' first
    | with_reducible first | exact h | apply next_fine | apply fwdSetAgeingSpec_calm | apply takeCommand_calm
theorem execFwdSetLearn_calm {z0 : State} (a : Arrival) (ps : List Word) (s : State) (h : Calm z0 s) : Fine z0 (execFwdSetLearn a ps s) := by
  unfold execFwdSetLearn
  repeat' first
    | with_reducible first | exact h | apply next_fine | apply fwdSetLearnSpec_calm | apply takeCommand_calm
theorem execFwdSetMcResidue_calm {z0 : State} (a : Arrival) (ps : List Word) (s : State) (h : Calm z0 s) : Fine z0 (execFwdSetMcResidue a ps s) := by
  unfold execFwdSetMcResidue
  repeat' first
    | with_reducible first | exact h | apply next_fine | apply fwdSetMcResidueSpec_calm | apply takeCommand_calm
theorem execFwdSetSpread_calm {z0 : State} (a : Arrival) (ps : List Word) (s : State) (h : Calm z0 s) : Fine z0 (execFwdSetSpread a ps s) := by
  unfold execFwdSetSpread
  repeat' first
    | with_reducible first | exact h | apply next_fine | apply fwdSetSpreadSpec_calm | apply takeCommand_calm
theorem execFwdSetVlan_calm {z0 : State} (a : Arrival) (ps : List Word) (s : State) (h : Calm z0 s) : Fine z0 (execFwdSetVlan a ps s) := by
  unfold execFwdSetVlan
  repeat' first
    | with_reducible first | exact h | apply next_fine | apply fwdSetVlanSpec_calm | apply takeCommand_calm
theorem execFwdWriteIndirect_calm {z0 : State} (a : Arrival) (ps : List Word) (s : State) (h : Calm z0 s) : Fine z0 (execFwdWriteIndirect a ps s) := by
  unfold execFwdWriteIndirect
  repeat' first
    | with_reducible first | exact h | apply next_fine | apply fwdWriteIndirectSpec_calm | apply takeCommand_calm
theorem execFwdWriteMcast_calm {z0 : State} (a : Arrival) (ps : List Word) (s : State) (h : Calm z0 s) : Fine z0 (execFwdWriteMcast a ps s) := by
  unfold execFwdWriteMcast
  repeat' first
    | with_reducible first | exact h | apply next_fine | apply fwdWriteMcastSpec_calm | apply takeCommand_calm
theorem execGclChangeTime_calm {z0 : State} (e : EngId) (port : Fin 32) (s : State) (h : Calm z0 s) : Fine z0 (execGclChangeTime e port s) := by
  unfold execGclChangeTime
  repeat' first
    | with_reducible first | exact h | apply onEngine_fine | apply passTo_calm | apply modEng_calm
    | (intro _; (repeat' split) <;> simp; done)
    | intro _
    | split
    | dsimp only
theorem execGclEntryChange_calm {z0 : State} (e : EngId) (port : Fin 32) (s : State) (h : Calm z0 s) : Fine z0 (execGclEntryChange e port s) := by
  unfold execGclEntryChange
  repeat' first
    | with_reducible first | exact h | apply onEngine_fine | apply passTo_calm | apply modEng_calm
    | (intro _; (repeat' split) <;> simp; done)
    | intro _
    | split
    | dsimp only
theorem rowGiveUpWaitExpiry_calm {z0 : State} (s : State) (h : Calm z0 s) : Fine z0 (rowGiveUpWaitExpiry s) := by
  unfold rowGiveUpWaitExpiry
  repeat' first
    | with_reducible first | exact h | apply onTwin_fine | apply judgeActive_calm
theorem execGiveUpWaitExpiry_calm {z0 : State} (s : State) (h : Calm z0 s) : Fine z0 (execGiveUpWaitExpiry s) := by
  unfold execGiveUpWaitExpiry
  repeat' first
    | with_reducible first | exact h | apply settledOut_fine | apply rowGiveUpWaitExpiry_calm
theorem rowGovernorSample_calm {z0 : State} (e : EngId) (s : State) (h : Calm z0 s) : Fine z0 (rowGovernorSample e s) := by
  unfold rowGovernorSample
  repeat' first
    | with_reducible first | exact h | apply onEngine_fine | apply next_fine | apply finishPace_calm | apply modEng_calm
    | (simp only [mk_calm]; with_reducible refine parts_calm ?_)
    | (intro _; (repeat' split) <;> simp; done)
    | intro _
    | split
    | dsimp only
theorem execGovernorSample_calm {z0 : State} (e : EngId) (s : State) (h : Calm z0 s) : Fine z0 (execGovernorSample e s) := by
  unfold execGovernorSample
  repeat' first
    | with_reducible first | exact h | apply settledOut_fine | apply rowGovernorSample_calm
theorem lossAtEngine_calm {z0 : State} (e : EngId) (s : State) (h : Calm z0 s) : Calm z0 (lossAtEngine e s) := by
  unfold lossAtEngine
  repeat' first
    | with_reducible first | exact h | apply modEng_calm | apply modBoth_calm
    | (simp only [mk_calm]; with_reducible refine parts_calm ?_)
    | (intro _; (repeat' split) <;> simp; done)
    | split
theorem standbySilent_calm {z0 : State} (d : EngId) (s : State) (h : Calm z0 s) : Calm z0 (standbySilent d s) := by
  unfold standbySilent
  repeat' first
    | with_reducible first | exact h | apply releaseActive_calm | apply resetOrFence_calm
    | (simp only [mk_calm]; with_reducible refine parts_calm ?_)
theorem lossAtSup_calm {z0 : State} (e : EngId) (s : State) (h : Calm z0 s) : Calm z0 (lossAtSup e s) := by
  unfold lossAtSup
  repeat' first
    | with_reducible first | exact h | apply judgeActive_calm | apply standbySilent_calm
    | (simp only [mk_calm]; with_reducible refine parts_calm ?_)
    | split
    | dsimp only
theorem lossOnFof_calm {z0 : State} (e : EngId) (s : State) (h : Calm z0 s) : Calm z0 (lossOnFof e s) := by
  unfold lossOnFof
  repeat' first
    | with_reducible first | exact h | apply judgeActive_calm | apply fofDown_calm | apply modEng_calm
    | (simp only [mk_calm]; with_reducible refine parts_calm ?_)
    | (intro _; (repeat' split) <;> simp; done)
    | split
    | dsimp only
theorem rowHeartbeatLoss_calm {z0 : State} (p : BeatPath) (s : State) (h : Calm z0 s) : Fine z0 (rowHeartbeatLoss p s) := by
  unfold rowHeartbeatLoss
  split
  · refine onEngine_fine (fun h _ => ?_) h
    split
    · exact lossAtSup_calm _ _ h
    · exact h
  · refine onEngine_fine (fun h _ => ?_) h
    split
    · exact lossAtEngine_calm _ _ h
    · exact h
  · refine onTwin_fine (fun h => ?_) h
    split
    · exact lossOnFof_calm _ _ h
    · exact h
theorem execHeartbeatLoss_calm {z0 : State} (p : BeatPath) (s : State) (h : Calm z0 s) : Fine z0 (execHeartbeatLoss p s) := by
  unfold execHeartbeatLoss
  repeat' first
    | with_reducible first | exact h | apply settledOut_fine | apply rowHeartbeatLoss_calm
theorem execHoldExpiry_calm {z0 : State} (e : EngId) (port : Fin 34) (s : State) (h : Calm z0 s) : Fine z0 (execHoldExpiry e port s) := by
  unfold execHoldExpiry
  repeat' first
    | with_reducible first | exact h | apply onEngine_fine | apply passTo_calm | apply modEng_calm
    | (intro _; (repeat' split) <;> simp; done)
    | intro _
    | split
    | dsimp only
theorem execHoldupDraw_calm {z0 : State} (s : State) (h : Calm z0 s) : Fine z0 (execHoldupDraw s) := by
  unfold execHoldupDraw
  repeat' first
    | with_reducible first | exact h | apply next_fine
    | (simp only [mk_calm]; with_reducible refine parts_calm ?_)
    | split
theorem execHoldupReturn_calm {z0 : State} (s : State) (h : Calm z0 s) : Fine z0 (execHoldupReturn s) := by
  unfold execHoldupReturn
  repeat' first
    | with_reducible first | exact h | apply next_fine
    | (simp only [mk_calm]; with_reducible refine parts_calm ?_)
    | split
theorem execHostLinkChgClear_calm {z0 : State} (e : EngId) (mask : Word) (s : State) (h : Calm z0 s) : Fine z0 (execHostLinkChgClear e mask s) := by
  unfold execHostLinkChgClear
  repeat' first
    | with_reducible first | exact h | apply onEngine_fine | apply modEng_calm
    | (intro _; (repeat' split) <;> simp; done)
    | intro _
theorem execHostLinkReturn_calm {z0 : State} (e : EngId) (h1 : Bool) (s : State) (h : Calm z0 s) : Fine z0 (execHostLinkReturn e h1 s) := by
  unfold execHostLinkReturn
  repeat' first
    | with_reducible first | exact h | apply onEngine_fine | apply settle_calm | apply modEng_calm
    | (intro _; (repeat' split) <;> simp; done)
    | intro _
    | split
theorem portDown_calm {z0 : State} (e : EngId) (p : Nat) (k : DownCause) (s : State) (h : Calm z0 s) : Calm z0 (portDown e p k s) := by
  unfold portDown
  repeat' first
    | with_reducible first | exact h | apply settle_calm | apply setEng_calm
    | (simp; done)
    | split
    | dsimp only
theorem execHostPortDown_calm {z0 : State} (e : EngId) (h1 : Bool) (cause : DownCause) (s : State) (h : Calm z0 s) : Fine z0 (execHostPortDown e h1 cause s) := by
  unfold execHostPortDown
  repeat' first
    | with_reducible first | exact h | apply onEngine_fine | apply portDown_calm
    | intro _
theorem execHostPortUp_calm {z0 : State} (e : EngId) (h1 : Bool) (s : State) (h : Calm z0 s) : Fine z0 (execHostPortUp e h1 s) := by
  unfold execHostPortUp
  repeat' first
    | with_reducible first | exact h | apply onEngine_fine | apply goUp_calm
    | intro _
    | split
    | dsimp only
theorem execHostSendFetch_calm {z0 : State} (e : EngId) (ring : Fin 2) (s : State) (h : Calm z0 s) : Fine z0 (execHostSendFetch e ring s) := by
  unfold execHostSendFetch
  refine onEngine_fine (fun h _ => ?_) h
  dsimp only [takeFree]
  split
  · exact h
  · exact judgeH0_calm _ _ (modEng_calm (fun x => by simp) (mk_calm.mpr (parts_calm h)))
theorem initialCalibration_calm {z0 : State} (e : EngId) (s : State) (h : Calm z0 s) : Calm z0 (initialCalibration e s) := by
  unfold initialCalibration
  repeat' first
    | with_reducible first | exact h | apply modEng_calm
    | (simp only [mk_calm]; with_reducible refine parts_calm ?_)
    | (intro _; (repeat' split) <;> simp; done)
theorem startPass_calm {z0 : State} (e : EngId) (s : State) (h : Calm z0 s) : Calm z0 (startPass e s) := by
  unfold startPass
  dsimp only
  refine mk_calm.mpr (parts_calm (modEng_calm (fun x => ?_) h))
  have f1 (l : List Nat) (y : Engine) : (l.foldl (fun y c => retireCell c y) y).core = y.core := foldl_core _ (fun y c => by simp) _ _
  have f2 (l : List Nat) (y : Engine) : (l.foldl (fun y i => repairEntry i y) y).core = y.core := foldl_core _ (fun y c => by simp) _ _
  have f3 (l : List (Nat × Nat)) (n : Nat) (y : Engine) :
      (l.foldl (fun y (c, i) => repairCell (Config.freeNat (n + i)) c y) y).core = y.core := foldl_core _ (fun y c => by simp) _ _
  rw [f2]
  show ((List.foldl _ _ _ : Engine)).core.phase = _
  rw [f3, f1]
theorem execInitialCalibrationDone_calm {z0 : State} (e : EngId) (s : State) (h : Calm z0 s) : Fine z0 (execInitialCalibrationDone e s) := by
  unfold execInitialCalibrationDone
  refine onEngine_fine (fun h ha => ?_) h
  dsimp only
  split
  · exact initialCalibration_calm _ _ (startPass_calm _ _
      (modEng_awake_calm (f := fun x => { x with core := { x.core with phase := .calibrated } }) ha h))
  · exact h
theorem execInjValidClear_calm {z0 : State} (e : EngId) (s : State) (h : Calm z0 s) : Fine z0 (execInjValidClear e s) := by
  unfold execInjValidClear
  repeat' first
    | with_reducible first | exact h | apply onEngine_fine | apply modEng_calm
    | (intro _; (repeat' split) <;> simp; done)
    | intro _
theorem execIrqModerationExpiry_calm {z0 : State} (e : EngId) (bit : Fin 6) (s : State) (h : Calm z0 s) : Fine z0 (execIrqModerationExpiry e bit s) := by
  unfold execIrqModerationExpiry
  repeat' first
    | with_reducible first | exact h | apply onEngine_fine | apply modEng_calm
    | (intro _; (repeat' split) <;> simp; done)
    | intro _
theorem execIrqStatusClear_calm {z0 : State} (e : EngId) (mask : Word) (s : State) (h : Calm z0 s) : Fine z0 (execIrqStatusClear e mask s) := by
  unfold execIrqStatusClear
  repeat' first
    | with_reducible first | exact h | apply onEngine_fine | apply modEng_calm
    | (intro _; (repeat' split) <;> simp; done)
    | intro _
theorem execL1syncSend_calm {z0 : State} (e : EngId) (port : Fin 32) (s : State) (h : Calm z0 s) : Fine z0 (execL1syncSend e port s) := by
  unfold execL1syncSend
  repeat' first
    | with_reducible first | exact h | apply onEngine_fine | apply modEng_calm
    | (intro _; (repeat' split) <;> simp; done)
    | intro _
theorem execLinkTrainingComplete_calm {z0 : State} (e : EngId) (port : Fin 34) (supported : Bool) (pause : Bool) (s : State) (h : Calm z0 s) : Fine z0 (execLinkTrainingComplete e port supported pause s) := by
  unfold execLinkTrainingComplete
  repeat' first
    | with_reducible first | exact h | apply onEngine_fine | apply settle_calm | apply modEng_calm
    | (intro _; (repeat' split) <;> simp; done)
    | intro _
    | split
    | dsimp only
theorem judgeSync_calm {z0 : State} (s : State) (h : Calm z0 s) : Calm z0 (judgeSync s) := by
  unfold judgeSync
  repeat' first
    | with_reducible first | exact h | apply modEng_calm
    | (intro _; (repeat' split) <;> simp; done)
    | split
theorem loopLost_calm {z0 : State} (e : EngId) (l : Loop) (s : State) (h : Calm z0 s) : Calm z0 (loopLost e l s) := by
  unfold loopLost
  repeat' first
    | with_reducible first | exact h | apply activeStops_calm | apply linkDown_calm | apply modEng_calm
    | (intro _; (repeat' split) <;> simp; done)
    | split
theorem lockWindow_calm {z0 : State} (e : EngId) (l : Loop) (w : LockWindow) (dev : Int) (s : State) (h : Calm z0 s) : Calm z0 (lockWindow e l w dev s) := by
  unfold lockWindow
  repeat' first
    | with_reducible first | exact h | apply judgeSync_calm | apply loopLost_calm | apply setEng_calm
    | (simp; done)
    | split
    | dsimp only
theorem execLockWindowEnd_calm {z0 : State} (e : EngId) (loop : Loop) (window : LockWindow) (dev : Int) (s : State) (h : Calm z0 s) : Fine z0 (execLockWindowEnd e loop window dev s) := by
  unfold execLockWindowEnd
  repeat' first
    | with_reducible first | exact h | apply onEngine_fine | apply settledOut_fine | apply lockWindow_calm
    | intro _
theorem execMacControlReceived_calm {z0 : State} (e : EngId) (port : Fin 34) (opcode : BitVec 16) (vec : BitVec 8) (quanta : Vector (BitVec 16) 8) (len : Nat) (s : State) (h : Calm z0 s) : Fine z0 (execMacControlReceived e port opcode vec quanta len s) := by
  unfold execMacControlReceived
  repeat' first
    | with_reducible first | exact h | apply onEngine_fine | apply modEng_calm
    | (intro _; (repeat' split) <;> simp; done)
    | intro _
theorem execMboxCmdWrite_calm {z0 : State} (e : EngId) (offset : Nat) (bytes : List Byte) (s : State) (h : Calm z0 s) : Fine z0 (execMboxCmdWrite e offset bytes s) := by
  unfold execMboxCmdWrite
  repeat' first
    | with_reducible first | exact h | apply onEngine_fine | apply modEng_calm
    | (intro _; (repeat' split) <;> simp; done)
    | intro _
theorem mboxDoorbell_calm {z0 : State} (e : EngId) (len : Word) (s : State) (h : Calm z0 s) : Calm z0 (mboxDoorbell e len s) := by
  unfold mboxDoorbell
  repeat' first
    | with_reducible first | exact h | apply countFraming_calm | apply takePacket_calm
    | split
    | dsimp only
theorem execMboxDoorbellWrite_calm {z0 : State} (e : EngId) (len : Word) (s : State) (h : Calm z0 s) : Fine z0 (execMboxDoorbellWrite e len s) := by
  unfold execMboxDoorbellWrite
  repeat' first
    | with_reducible first | exact h | apply onEngine_fine | apply settledOut_fine | apply mboxDoorbell_calm
    | intro _
theorem execMboxReadyClear_calm {z0 : State} (e : EngId) (s : State) (h : Calm z0 s) : Fine z0 (execMboxReadyClear e s) := by
  unfold execMboxReadyClear
  repeat' first
    | with_reducible first | exact h | apply onEngine_fine | apply modEng_calm
    | (intro _; (repeat' split) <;> simp; done)
    | intro _
theorem execMcResidueAgeExpiry_calm {z0 : State} (e : EngId) (port : Fin 34) (cls : Fin 8) (s : State) (h : Calm z0 s) : Fine z0 (execMcResidueAgeExpiry e port cls s) := by
  unfold execMcResidueAgeExpiry
  repeat' first
    | with_reducible first | exact h | apply onEngine_fine | apply passTo_calm | apply modEng_calm
    | (intro _; (repeat' split) <;> simp; done)
    | intro _
    | split
    | dsimp only
theorem execMcResidueRetry_calm {z0 : State} (e : EngId) (port : Fin 34) (cls : Fin 8) (s : State) (h : Calm z0 s) : Fine z0 (execMcResidueRetry e port cls s) := by
  unfold execMcResidueRetry
  repeat' first
    | with_reducible first | exact h | apply onEngine_fine | apply modEng_calm
    | (intro _; (repeat' split) <;> simp; done)
    | intro _
theorem mgmtPassed_calm {z0 : State} (e : EngId) (bs : List Byte) (fcs : Word) (s : State) (h : Calm z0 s) :
    Calm z0 (mgmtPassed e bs fcs s) := frameTail_calm _ _ _ _ (frameHead_calm _ _ _ _ _ h)
theorem mgmtFrame_calm {z0 : State} (e : EngId) (bs : List Byte) (fcs : Word) (s : State) (h : Calm z0 s) : Calm z0 (mgmtFrame e bs fcs s) := by
  unfold mgmtFrame
  repeat' first
    | with_reducible first | exact h | apply countFraming_calm | apply mgmtPassed_calm | apply takePacket_calm | apply setEng_calm
    | (simp; done)
    | split
    | dsimp only
theorem execMgmtFrameReceived_calm {z0 : State} (e : EngId) (bytes : List Byte) (fcs : Word) (s : State) (h : Calm z0 s) : Fine z0 (execMgmtFrameReceived e bytes fcs s) := by
  unfold execMgmtFrameReceived
  repeat' first
    | with_reducible first | exact h | apply onEngine_fine | apply settledOut_fine | apply mgmtFrame_calm
    | intro _
theorem execMonitorRegRead_calm {z0 : State} (e : EngId) (k : Fin 12) (s : State) (h : Calm z0 s) : Fine z0 (execMonitorRegRead e k s) := by
  unfold execMonitorRegRead
  repeat' first
    | with_reducible first | exact h | apply onEngine_fine | apply modEng_calm
    | (intro _; (repeat' split) <;> simp; done)
    | intro _
theorem execOccupancyReport_calm {z0 : State} (s : State) (h : Calm z0 s) : Fine z0 (execOccupancyReport s) := by
  unfold execOccupancyReport
  repeat' first
    | with_reducible first | exact h | apply onTwin_fine | apply passTo_calm | apply modEng_calm
    | (intro _; (repeat' split) <;> simp; done)
    | intro _
    | split
    | dsimp only
theorem execOutSetClkout_calm {z0 : State} (a : Arrival) (ps : List Word) (s : State) (h : Calm z0 s) : Fine z0 (execOutSetClkout a ps s) := by
  unfold execOutSetClkout
  repeat' first
    | with_reducible first | exact h | apply next_fine | apply outSetClkoutSpec_calm | apply takeCommand_calm
theorem execOutSetPpsout_calm {z0 : State} (a : Arrival) (ps : List Word) (s : State) (h : Calm z0 s) : Fine z0 (execOutSetPpsout a ps s) := by
  unfold execOutSetPpsout
  repeat' first
    | with_reducible first | exact h | apply next_fine | apply outSetPpsoutSpec_calm | apply takeCommand_calm
theorem execOutSetSynth_calm {z0 : State} (a : Arrival) (ps : List Word) (s : State) (h : Calm z0 s) : Fine z0 (execOutSetSynth a ps s) := by
  unfold execOutSetSynth
  repeat' first
    | with_reducible first | exact h | apply next_fine | apply outSetSynthSpec_calm | apply takeCommand_calm
theorem setEng_power_calm {s0 s : State} {e : EngId} {x : Engine} {b : BitVec 8} (hx : x.core.phase = (s.eng e).core.phase) (h : Calm s0 s) :
    Calm s0 { s.setEng e x with power := { s.power with evtBalls := b } } := by
  have k := setEng_calm hx h
  exact ⟨k.part, k.pending, h.supplyValid, h.brownOut, h.railsUp, h.railsGood, h.startStep, k.phaseA, k.phaseB⟩
theorem handEdge_calm {s0 : State} (dst : EngId) (s : State) (n : Nat) (h : Calm s0 s) : Calm s0 (handEdge dst s n) := by
  unfold handEdge
  dsimp only
  split
  · exact setEng_power_calm (by simp) h
  · exact setEng_calm (by simp) h
theorem handOver_calm {z0 : State} (r : SwitchRun) (diffs : Vector Int 12) (s : State) (h : Calm z0 s) : Calm z0 (handOver r diffs s) := by
  unfold handOver
  repeat' first
    | with_reducible first | exact h | apply handEdge_calm | apply modEng_calm | apply foldl_calm
    | (simp only [mk_calm]; with_reducible refine parts_calm ?_)
    | (intro _; (repeat' split) <;> simp; done)
theorem execOutputAlignerHandover_calm {z0 : State} (diffs : Vector Int 12) (s : State) (h : Calm z0 s) : Fine z0 (execOutputAlignerHandover diffs s) := by
  unfold execOutputAlignerHandover
  repeat' first
    | with_reducible first | exact h | apply onTwin_fine | apply endRun_calm | apply handOver_calm
    | intro _
    | split
theorem rowOutputSlewDone_calm {z0 : State} (e : EngId) (out : Fin 12) (s : State) (h : Calm z0 s) : Fine z0 (rowOutputSlewDone e out s) := by
  unfold rowOutputSlewDone
  repeat' first
    | with_reducible first | exact h | apply onEngine_fine | apply complete_calm | apply setEng_calm
    | (simp; done)
    | intro _
    | split
    | dsimp only
theorem execOutputSlewDone_calm {z0 : State} (e : EngId) (out : Fin 12) (s : State) (h : Calm z0 s) : Fine z0 (execOutputSlewDone e out s) := by
  unfold execOutputSlewDone
  repeat' first
    | with_reducible first | exact h | apply settledOut_fine | apply rowOutputSlewDone_calm
theorem execPaceDroppedClear_calm {z0 : State} (e : EngId) (s : State) (h : Calm z0 s) : Fine z0 (execPaceDroppedClear e s) := by
  unfold execPaceDroppedClear
  repeat' first
    | with_reducible first | exact h | apply onEngine_fine | apply modEng_calm
    | (intro _; (repeat' split) <;> simp; done)
    | intro _
theorem rowPaceReplyTimeout_calm {z0 : State} (s : State) (h : Calm z0 s) : Fine z0 (rowPaceReplyTimeout s) := by
  unfold rowPaceReplyTimeout
  repeat' first
    | with_reducible first | exact h | apply next_fine | apply finishPace_calm
theorem execPaceReplyTimeout_calm {z0 : State} (s : State) (h : Calm z0 s) : Fine z0 (execPaceReplyTimeout s) := by
  unfold execPaceReplyTimeout
  repeat' first
    | with_reducible first | exact h | apply settledOut_fine | apply rowPaceReplyTimeout_calm
theorem execParallelDetectStep_calm {z0 : State} (e : EngId) (port : Fin 34) (locked : Bool) (s : State) (h : Calm z0 s) : Fine z0 (execParallelDetectStep e port locked s) := by
  unfold execParallelDetectStep
  repeat' first
    | with_reducible first | exact h | apply onEngine_fine | apply settle_calm | apply modEng_calm
    | (intro _; (repeat' split) <;> simp; done)
    | intro _
    | split
    | dsimp only
theorem execParseCommit_calm {z0 : State} (a : Arrival) (ps : List Word) (s : State) (h : Calm z0 s) : Fine z0 (execParseCommit a ps s) := by
  unfold execParseCommit
  repeat' first
    | with_reducible first | exact h | apply next_fine | apply parseCommitSpec_calm | apply takeCommand_calm
theorem execParseLoadDefaults_calm {z0 : State} (a : Arrival) (ps : List Word) (s : State) (h : Calm z0 s) : Fine z0 (execParseLoadDefaults a ps s) := by
  unfold execParseLoadDefaults
  repeat' first
    | with_reducible first | exact h | apply next_fine | apply parseLoadDefaultsSpec_calm | apply takeCommand_calm
theorem execParseReadNode_calm {z0 : State} (a : Arrival) (ps : List Word) (s : State) (h : Calm z0 s) : Fine z0 (execParseReadNode a ps s) := by
  unfold execParseReadNode
  repeat' first
    | with_reducible first | exact h | apply next_fine | apply parseReadNodeSpec_calm | apply takeCommand_calm
theorem execParseSetPort_calm {z0 : State} (a : Arrival) (ps : List Word) (s : State) (h : Calm z0 s) : Fine z0 (execParseSetPort a ps s) := by
  unfold execParseSetPort
  repeat' first
    | with_reducible first | exact h | apply next_fine | apply parseSetPortSpec_calm | apply takeCommand_calm
theorem execParseWriteNode_calm {z0 : State} (a : Arrival) (ps : List Word) (s : State) (h : Calm z0 s) : Fine z0 (execParseWriteNode a ps s) := by
  unfold execParseWriteNode
  repeat' first
    | with_reducible first | exact h | apply next_fine | apply parseWriteNodeSpec_calm | apply takeCommand_calm
theorem execPauseTimerExpiry_calm {z0 : State} (e : EngId) (port : Fin 34) (prio : Fin 8) (s : State) (h : Calm z0 s) : Fine z0 (execPauseTimerExpiry e port prio s) := by
  unfold execPauseTimerExpiry
  repeat' first
    | with_reducible first | exact h | apply onEngine_fine | apply modEng_calm
    | (intro _; (repeat' split) <;> simp; done)
    | intro _
theorem rowPcieLinkDown_calm {z0 : State} (e : EngId) (s : State) (h : Calm z0 s) : Fine z0 (rowPcieLinkDown e s) := by
  unfold rowPcieLinkDown
  repeat' first
    | with_reducible first | exact h | apply onEngine_fine | apply modEng_calm
    | (intro _; (repeat' split) <;> simp; done)
    | intro _
theorem execPcieLinkDown_calm {z0 : State} (e : EngId) (s : State) (h : Calm z0 s) : Fine z0 (execPcieLinkDown e s) := by
  unfold execPcieLinkDown
  repeat' first
    | with_reducible first | exact h | apply settledOut_fine | apply rowPcieLinkDown_calm
theorem rowPciePerst_calm {z0 : State} (e : EngId) (s : State) (h : Calm z0 s) : Fine z0 (rowPciePerst e s) := by
  unfold rowPciePerst
  repeat' first
    | with_reducible first | exact h | apply onEngine_fine | apply modEng_calm
    | (intro _; (repeat' split) <;> simp; done)
    | intro _
theorem execPciePerst_calm {z0 : State} (e : EngId) (s : State) (h : Calm z0 s) : Fine z0 (execPciePerst e s) := by
  unfold execPciePerst
  repeat' first
    | with_reducible first | exact h | apply settledOut_fine | apply rowPciePerst_calm
theorem execPfcRepeat_calm {z0 : State} (e : EngId) (port : Fin 34) (s : State) (h : Calm z0 s) : Fine z0 (execPfcRepeat e port s) := by
  unfold execPfcRepeat
  repeat' first
    | with_reducible first | exact h | apply onEngine_fine | apply modEng_calm
    | (intro _; (repeat' split) <;> simp; done)
    | intro _
theorem execPfcStorm_calm {z0 : State} (e : EngId) (port : Fin 34) (cls : Fin 8) (s : State) (h : Calm z0 s) : Fine z0 (execPfcStorm e port cls s) := by
  unfold execPfcStorm
  repeat' first
    | with_reducible first | exact h | apply onEngine_fine | apply modEng_calm
    | (intro _; (repeat' split) <;> simp; done)
    | intro _
theorem localsChanged_calm {z0 : State} (e : EngId) (s : State) (h : Calm z0 s) : Calm z0 (localsChanged e s) := by
  unfold localsChanged
  repeat' first
    | with_reducible first | exact h | apply localChanged_calm | apply foldl_calm
    | intro _
theorem execPhasePullbackDone_calm {z0 : State} (e : EngId) (s : State) (h : Calm z0 s) : Fine z0 (execPhasePullbackDone e s) := by
  unfold execPhasePullbackDone
  repeat' first
    | with_reducible first | exact h | apply onEngine_fine | apply localsChanged_calm | apply modEng_calm
    | (intro _; (repeat' split) <;> simp; done)
    | intro _
    | split
    | dsimp only
theorem execPortDown_calm {z0 : State} (e : EngId) (port : Fin 34) (cause : DownCause) (s : State) (h : Calm z0 s) : Fine z0 (execPortDown e port cause s) := by
  unfold execPortDown
  repeat' first
    | with_reducible first | exact h | apply onEngine_fine | apply portDown_calm
    | intro _
    | split
theorem execPortLinkChgClear_calm {z0 : State} (e : EngId) (mask : Word) (s : State) (h : Calm z0 s) : Fine z0 (execPortLinkChgClear e mask s) := by
  unfold execPortLinkChgClear
  repeat' first
    | with_reducible first | exact h | apply onEngine_fine | apply modEng_calm
    | (intro _; (repeat' split) <;> simp; done)
    | intro _
theorem execPortSetAhnudEtype_calm {z0 : State} (a : Arrival) (ps : List Word) (s : State) (h : Calm z0 s) : Fine z0 (execPortSetAhnudEtype a ps s) := by
  unfold execPortSetAhnudEtype
  repeat' first
    | with_reducible first | exact h | apply next_fine | apply portSetAhnudEtypeSpec_calm | apply takeCommand_calm
theorem execPortSetCutThrough_calm {z0 : State} (a : Arrival) (ps : List Word) (s : State) (h : Calm z0 s) : Fine z0 (execPortSetCutThrough a ps s) := by
  unfold execPortSetCutThrough
  repeat' first
    | with_reducible first | exact h | apply next_fine | apply portSetCutThroughSpec_calm | apply takeCommand_calm
theorem execPortSetLinkTimers_calm {z0 : State} (a : Arrival) (ps : List Word) (s : State) (h : Calm z0 s) : Fine z0 (execPortSetLinkTimers a ps s) := by
  unfold execPortSetLinkTimers
  repeat' first
    | with_reducible first | exact h | apply next_fine | apply portSetLinkTimersSpec_calm | apply takeCommand_calm
theorem execPortSetMode_calm {z0 : State} (a : Arrival) (ps : List Word) (s : State) (h : Calm z0 s) : Fine z0 (execPortSetMode a ps s) := by
  unfold execPortSetMode
  repeat' first
    | with_reducible first | exact h | apply next_fine | apply portSetModeSpec_calm | apply takeCommand_calm
theorem execPortSetTimeLevels_calm {z0 : State} (a : Arrival) (ps : List Word) (s : State) (h : Calm z0 s) : Fine z0 (execPortSetTimeLevels a ps s) := by
  unfold execPortSetTimeLevels
  repeat' first
    | with_reducible first | exact h | apply next_fine | apply portSetTimeLevelsSpec_calm | apply takeCommand_calm
theorem execPortUp_calm {z0 : State} (e : EngId) (port : Fin 34) (s : State) (h : Calm z0 s) : Fine z0 (execPortUp e port s) := by
  unfold execPortUp
  repeat' first
    | with_reducible first | exact h | apply onEngine_fine | apply goUp_calm
    | intro _
    | split
theorem execPortUpCondition_calm {z0 : State} (e : EngId) (port : Fin 34) (s : State) (h : Calm z0 s) : Fine z0 (execPortUpCondition e port s) := by
  unfold execPortUpCondition
  repeat' first
    | with_reducible first | exact h | apply onEngine_fine | apply settle_calm | apply modEng_calm
    | (intro _; (repeat' split) <;> simp; done)
    | intro _
    | split
    | dsimp only
theorem execPowerCycle_calm {z0 : State} (s : State) (h : Calm z0 s) : Fine z0 (execPowerCycle s) := by
  unfold execPowerCycle
  repeat' first
    | with_reducible first | exact h | apply next_fine
    | (simp only [mk_calm]; with_reducible refine parts_calm ?_)
theorem supervisorFault_calm {z0 : State} (kind : Nat) (address : Word) (s : State) (h : Calm z0 s) : Calm z0 (supervisorFault kind address s) := by
  unfold supervisorFault
  repeat' first
    | with_reducible first | exact h | apply enterCulAll_calm | apply logEntry_calm | apply modEng_calm
    | (simp only [mk_calm]; with_reducible refine parts_calm ?_)
    | (intro _; (repeat' split) <;> simp; done)
    | split
    | dsimp only
theorem powerDieFault_calm {z0 : State} (kind : Nat) (address : Word) (s : State) (h : Calm z0 s) : Calm z0 (powerDieFault kind address s) := by
  unfold powerDieFault
  repeat' first
    | with_reducible first | exact h | apply supervisorFault_calm | apply modBoth_calm
    | (simp only [mk_calm]; with_reducible refine parts_calm ?_)
    | (intro _; (repeat' split) <;> simp; done)
    | split
    | dsimp only
theorem execPowerDieOvertemp_calm {z0 : State} (s : State) (h : Calm z0 s) : Fine z0 (execPowerDieOvertemp s) := by
  unfold execPowerDieOvertemp
  repeat' first
    | with_reducible first | exact h | apply next_fine | apply powerDieFault_calm
    | (simp only [mk_calm]; with_reducible first | refine parts_calm ?_ | refine parts_low_calm ?_)
theorem execPreemptVerifyResponse_calm {z0 : State} (e : EngId) (port : Fin 32) (s : State) (h : Calm z0 s) : Fine z0 (execPreemptVerifyResponse e port s) := by
  unfold execPreemptVerifyResponse
  repeat' first
    | with_reducible first | exact h | apply onEngine_fine | apply modEng_calm
    | (intro _; (repeat' split) <;> simp; done)
    | intro _
theorem execPreemptVerifyTimer_calm {z0 : State} (e : EngId) (port : Fin 32) (s : State) (h : Calm z0 s) : Fine z0 (execPreemptVerifyTimer e port s) := by
  unfold execPreemptVerifyTimer
  repeat' first
    | with_reducible first | exact h | apply onEngine_fine | apply modEng_calm
    | (intro _; (repeat' split) <;> simp; done)
    | intro _
theorem execProxyAge_calm {z0 : State} (e : EngId) (s : State) (h : Calm z0 s) : Fine z0 (execProxyAge e s) := by
  unfold execProxyAge
  repeat' first
    | with_reducible first | exact h | apply onEngine_fine | apply passTo_calm | apply modEng_calm
    | (intro _; (repeat' split) <;> simp; done)
    | intro _
    | split
theorem toStandby_calm {s0 : State} (f : EngId → EngId → State → State) (s : State) (hf : ∀ a d, Calm s0 s → Calm s0 (f a d s))
    (h : Calm s0 s) : Calm s0 (toStandby f s) := by
  unfold toStandby
  repeat' split
  · exact hf _ _ h
  · exact h
  · exact h
theorem execProxyMirror_calm {z0 : State} (s : State) (h : Calm z0 s) : Fine z0 (execProxyMirror s) := by
  unfold execProxyMirror
  repeat' first
    | with_reducible first | exact h | apply onTwin_fine | apply toStandby_calm | apply modEng_calm
    | (intro _; (repeat' split) <;> simp; done)
    | intro _
theorem execPtpDelayReqSend_calm {z0 : State} (e : EngId) (dom : Fin 2) (port : Fin 34) (s : State) (h : Calm z0 s) : Fine z0 (execPtpDelayReqSend e dom port s) := by
  unfold execPtpDelayReqSend
  repeat' first
    | with_reducible first | exact h | apply onEngine_fine | apply modEng_calm
    | (intro _; (repeat' split) <;> simp; done)
    | intro _
theorem execPtpNoSample_calm {z0 : State} (e : EngId) (dom : Fin 2) (s : State) (h : Calm z0 s) : Fine z0 (execPtpNoSample e dom s) := by
  unfold execPtpNoSample
  repeat' first
    | with_reducible first | exact h | apply onEngine_fine | apply modEng_calm
    | (intro _; (repeat' split) <;> simp; done)
    | intro _
theorem execPtpSyncSend_calm {z0 : State} (e : EngId) (dom : Fin 2) (port : Fin 34) (s : State) (h : Calm z0 s) : Fine z0 (execPtpSyncSend e dom port s) := by
  unfold execPtpSyncSend
  repeat' first
    | with_reducible first | exact h | apply onEngine_fine | apply modEng_calm
    | (intro _; (repeat' split) <;> simp; done)
    | intro _
theorem execPulseInputEdge_calm {z0 : State} (e : EngId) (ref : Fin 42) (rise : Bool) (after : Nat) (s : State) (h : Calm z0 s) : Fine z0 (execPulseInputEdge e ref rise after s) := by
  unfold execPulseInputEdge
  repeat' first
    | with_reducible first | exact h | apply onEngine_fine | apply passAfter_calm | apply modEng_calm
    | (simp; done)
    | intro _
    | split
    | dsimp only
theorem execQueueGetOccupancy_calm {z0 : State} (a : Arrival) (ps : List Word) (s : State) (h : Calm z0 s) : Fine z0 (execQueueGetOccupancy a ps s) := by
  unfold execQueueGetOccupancy
  repeat' first
    | with_reducible first | exact h | apply next_fine | apply queueGetOccupancySpec_calm | apply takeCommand_calm
theorem execQueueSetAge_calm {z0 : State} (a : Arrival) (ps : List Word) (s : State) (h : Calm z0 s) : Fine z0 (execQueueSetAge a ps s) := by
  unfold execQueueSetAge
  repeat' first
    | with_reducible first | exact h | apply next_fine | apply queueSetAgeSpec_calm | apply takeCommand_calm
theorem execQueueSetBufferMode_calm {z0 : State} (a : Arrival) (ps : List Word) (s : State) (h : Calm z0 s) : Fine z0 (execQueueSetBufferMode a ps s) := by
  unfold execQueueSetBufferMode
  repeat' first
    | with_reducible first | exact h | apply next_fine | apply queueSetBufferModeSpec_calm | apply takeCommand_calm
theorem execQueueSetClass_calm {z0 : State} (a : Arrival) (ps : List Word) (s : State) (h : Calm z0 s) : Fine z0 (execQueueSetClass a ps s) := by
  unfold execQueueSetClass
  repeat' first
    | with_reducible first | exact h | apply next_fine | apply queueSetClassSpec_calm | apply takeCommand_calm
theorem execQueueSetMin_calm {z0 : State} (a : Arrival) (ps : List Word) (s : State) (h : Calm z0 s) : Fine z0 (execQueueSetMin a ps s) := by
  unfold execQueueSetMin
  repeat' first
    | with_reducible first | exact h | apply next_fine | apply queueSetMinSpec_calm | apply takeCommand_calm
theorem execQueueSetPortFc_calm {z0 : State} (a : Arrival) (ps : List Word) (s : State) (h : Calm z0 s) : Fine z0 (execQueueSetPortFc a ps s) := by
  unfold execQueueSetPortFc
  repeat' first
    | with_reducible first | exact h | apply next_fine | apply queueSetPortFcSpec_calm | apply takeCommand_calm
theorem execRailFault_calm {z0 : State} (rail : Word) (s : State) (h : Calm z0 s) : Fine z0 (execRailFault rail s) := by
  unfold execRailFault
  repeat' first
    | with_reducible first | exact h | apply next_fine | apply powerDieFault_calm
    | (simp only [mk_calm]; with_reducible first | refine parts_calm ?_ | refine parts_low_calm ?_)
theorem execRefForce_calm {z0 : State} (a : Arrival) (ps : List Word) (s : State) (h : Calm z0 s) : Fine z0 (execRefForce a ps s) := by
  unfold execRefForce
  repeat' first
    | with_reducible first | exact h | apply next_fine | apply refForceSpec_calm | apply takeCommand_calm
theorem execRefGetStatus_calm {z0 : State} (a : Arrival) (ps : List Word) (s : State) (h : Calm z0 s) : Fine z0 (execRefGetStatus a ps s) := by
  unfold execRefGetStatus
  repeat' first
    | with_reducible first | exact h | apply next_fine | apply refGetStatusSpec_calm | apply takeCommand_calm
theorem execRefHistClear_calm {z0 : State} (e : EngId) (ref : Fin 42) (mask : Word) (s : State) (h : Calm z0 s) : Fine z0 (execRefHistClear e ref mask s) := by
  unfold execRefHistClear
  repeat' first
    | with_reducible first | exact h | apply onEngine_fine | apply modEng_calm
    | (intro _; (repeat' split) <;> simp; done)
    | intro _
theorem execRefLossOfSignal_calm {z0 : State} (e : EngId) (ref : Fin 42) (s : State) (h : Calm z0 s) : Fine z0 (execRefLossOfSignal e ref s) := by
  unfold execRefLossOfSignal
  repeat' first
    | with_reducible first | exact h | apply onEngine_fine | apply modEng_calm
    | (intro _; (repeat' split) <;> simp; done)
    | intro _
theorem execRefMeasure_calm {z0 : State} (e : EngId) (ref : Fin 42) (frq : Int) (phase : Int) (s : State) (h : Calm z0 s) : Fine z0 (execRefMeasure e ref frq phase s) := by
  unfold execRefMeasure
  repeat' first
    | with_reducible first | exact h | apply onEngine_fine | apply modEng_calm
    | (intro _; (repeat' split) <;> simp; done)
    | intro _
theorem execRefQualifyTimer_calm {z0 : State} (e : EngId) (ref : Fin 42) (s : State) (h : Calm z0 s) : Fine z0 (execRefQualifyTimer e ref s) := by
  unfold execRefQualifyTimer
  repeat' first
    | with_reducible first | exact h | apply onEngine_fine | apply passTo_calm | apply modEng_calm
    | (intro _; (repeat' split) <;> simp; done)
    | intro _
    | split
    | dsimp only
theorem execRefSetInput_calm {z0 : State} (a : Arrival) (ps : List Word) (s : State) (h : Calm z0 s) : Fine z0 (execRefSetInput a ps s) := by
  unfold execRefSetInput
  repeat' first
    | with_reducible first | exact h | apply next_fine | apply refSetInputSpec_calm | apply takeCommand_calm
theorem execRefSetOsc_calm {z0 : State} (a : Arrival) (ps : List Word) (s : State) (h : Calm z0 s) : Fine z0 (execRefSetOsc a ps s) := by
  unfold execRefSetOsc
  repeat' first
    | with_reducible first | exact h | apply next_fine | apply refSetOscSpec_calm | apply takeCommand_calm
theorem execRefSetSlot_calm {z0 : State} (a : Arrival) (ps : List Word) (s : State) (h : Calm z0 s) : Fine z0 (execRefSetSlot a ps s) := by
  unfold execRefSetSlot
  repeat' first
    | with_reducible first | exact h | apply next_fine | apply refSetSlotSpec_calm | apply takeCommand_calm
theorem execRegisterWriteIgnored_calm {z0 : State} (a0 : EngId) (a1 : Nat) (a2 : Word) (s : State) (h : Calm z0 s) : Fine z0 (execRegisterWriteIgnored a0 a1 a2 s) := by
  unfold execRegisterWriteIgnored
  repeat' first
    | with_reducible first | exact h | apply next_fine
theorem rowRepairPassEnd_calm {z0 : State} (e : EngId) (s : State) (h : Calm z0 s) : Fine z0 (rowRepairPassEnd e s) := by
  unfold rowRepairPassEnd
  repeat' first
    | with_reducible first | exact h | apply onEngine_fine | apply complete_calm | apply setEng_calm
    | (simp only [mk_calm]; with_reducible refine parts_calm ?_)
    | (simp; done)
    | intro _
    | split
    | dsimp only
theorem execRepairPassEnd_calm {z0 : State} (e : EngId) (s : State) (h : Calm z0 s) : Fine z0 (execRepairPassEnd e s) := by
  unfold execRepairPassEnd
  repeat' first
    | with_reducible first | exact h | apply settledOut_fine | apply rowRepairPassEnd_calm
theorem resetPowered_calm {z0 : State} (e : EngId) (s : State) (h : Calm z0 s) : Calm z0 (resetPowered e s) := by
  unfold resetPowered
  repeat' first
    | with_reducible first | exact h | apply resetEngine_calm
    | split
theorem rowResetNAssert_calm {z0 : State} (s : State) (h : Calm z0 s) : Fine z0 (rowResetNAssert s) := by
  unfold rowResetNAssert
  repeat' first
    | with_reducible first | exact h | apply next_fine | apply endPlan_calm | apply resetPowered_calm
    | (simp only [mk_calm]; with_reducible refine parts_calm ?_)
theorem execResetNAssert_calm {z0 : State} (s : State) (h : Calm z0 s) : Fine z0 (execResetNAssert s) := by
  unfold execResetNAssert
  repeat' first
    | with_reducible first | exact h | apply settledOut_fine | apply rowResetNAssert_calm
theorem execResetNRelease_calm {z0 : State} (s : State) (h : Calm z0 s) : Fine z0 (execResetNRelease s) := by
  unfold execResetNRelease
  repeat' first
    | with_reducible first | exact h | apply next_fine | apply leaveReset_calm
    | (simp only [mk_calm]; with_reducible refine parts_calm ?_)
    | split
theorem execRingDoorbellWrite_calm {z0 : State} (e : EngId) (ring : Fin 8) (idx : Word) (descs : List Desc) (s : State) (h : Calm z0 s) : Fine z0 (execRingDoorbellWrite e ring idx descs s) := by
  unfold execRingDoorbellWrite
  repeat' first
    | with_reducible first | exact h | apply onEngine_fine | apply settledOut_fine | apply judgeH0_calm | apply modEng_calm
    | (intro _; (repeat' split) <;> simp; done)
    | intro _
theorem execRingRecordDelivery_calm {z0 : State} (e : EngId) (ring : Fin 8) (s : State) (h : Calm z0 s) : Fine z0 (execRingRecordDelivery e ring s) := by
  unfold execRingRecordDelivery
  repeat' first
    | with_reducible first | exact h | apply onEngine_fine | apply settledOut_fine | apply judgeH0_calm | apply modEng_calm
    | (intro _; (repeat' split) <;> simp; done)
    | intro _
theorem execRingStatRead_calm {z0 : State} (e : EngId) (ring : Fin 8) (s : State) (h : Calm z0 s) : Fine z0 (execRingStatRead e ring s) := by
  unfold execRingStatRead
  repeat' first
    | with_reducible first | exact h | apply onEngine_fine | apply modEng_calm
    | (intro _; (repeat' split) <;> simp; done)
    | intro _
theorem rowRingWatchdog_calm {z0 : State} (e : EngId) (s : State) (h : Calm z0 s) : Fine z0 (rowRingWatchdog e s) := by
  unfold rowRingWatchdog
  repeat' first
    | with_reducible first | exact h | apply onEngine_fine | apply checkerFault_calm
    | intro _
theorem execRingWatchdog_calm {z0 : State} (e : EngId) (s : State) (h : Calm z0 s) : Fine z0 (execRingWatchdog e s) := by
  unfold execRingWatchdog
  repeat' first
    | with_reducible first | exact h | apply settledOut_fine | apply rowRingWatchdog_calm
theorem execRoundaboutPass1_calm {z0 : State} (e : EngId) (s : State) (h : Calm z0 s) : Fine z0 (execRoundaboutPass1 e s) := by
  unfold execRoundaboutPass1
  refine onEngine_fine (fun h _ => ?_) h
  split
  · exact h
  · exact modEng_calm (fun x => by simp) (takeFree_calm h)
theorem execRuleClearBank_calm {z0 : State} (a : Arrival) (ps : List Word) (s : State) (h : Calm z0 s) : Fine z0 (execRuleClearBank a ps s) := by
  unfold execRuleClearBank
  repeat' first
    | with_reducible first | exact h | apply next_fine | apply ruleClearBankSpec_calm | apply takeCommand_calm
theorem execRuleFlipBank_calm {z0 : State} (a : Arrival) (ps : List Word) (s : State) (h : Calm z0 s) : Fine z0 (execRuleFlipBank a ps s) := by
  unfold execRuleFlipBank
  repeat' first
    | with_reducible first | exact h | apply next_fine | apply ruleFlipBankSpec_calm | apply takeCommand_calm
theorem execRuleLoadDefaults_calm {z0 : State} (a : Arrival) (ps : List Word) (s : State) (h : Calm z0 s) : Fine z0 (execRuleLoadDefaults a ps s) := by
  unfold execRuleLoadDefaults
  repeat' first
    | with_reducible first | exact h | apply next_fine | apply ruleLoadDefaultsSpec_calm | apply takeCommand_calm
theorem execRuleReadEntry_calm {z0 : State} (a : Arrival) (ps : List Word) (s : State) (h : Calm z0 s) : Fine z0 (execRuleReadEntry a ps s) := by
  unfold execRuleReadEntry
  repeat' first
    | with_reducible first | exact h | apply next_fine | apply ruleReadEntrySpec_calm | apply takeCommand_calm
theorem execRuleSetMirror_calm {z0 : State} (a : Arrival) (ps : List Word) (s : State) (h : Calm z0 s) : Fine z0 (execRuleSetMirror a ps s) := by
  unfold execRuleSetMirror
  repeat' first
    | with_reducible first | exact h | apply next_fine | apply ruleSetMirrorSpec_calm | apply takeCommand_calm
theorem execRuleSetOrg_calm {z0 : State} (a : Arrival) (ps : List Word) (s : State) (h : Calm z0 s) : Fine z0 (execRuleSetOrg a ps s) := by
  unfold execRuleSetOrg
  repeat' first
    | with_reducible first | exact h | apply next_fine | apply ruleSetOrgSpec_calm | apply takeCommand_calm
theorem execRuleSetPort_calm {z0 : State} (a : Arrival) (ps : List Word) (s : State) (h : Calm z0 s) : Fine z0 (execRuleSetPort a ps s) := by
  unfold execRuleSetPort
  repeat' first
    | with_reducible first | exact h | apply next_fine | apply ruleSetPortSpec_calm | apply takeCommand_calm
theorem execRuleWriteEntry_calm {z0 : State} (a : Arrival) (ps : List Word) (s : State) (h : Calm z0 s) : Fine z0 (execRuleWriteEntry a ps s) := by
  unfold execRuleWriteEntry
  repeat' first
    | with_reducible first | exact h | apply next_fine | apply ruleWriteEntrySpec_calm | apply takeCommand_calm
theorem execRuleWriteMeter_calm {z0 : State} (a : Arrival) (ps : List Word) (s : State) (h : Calm z0 s) : Fine z0 (execRuleWriteMeter a ps s) := by
  unfold execRuleWriteMeter
  repeat' first
    | with_reducible first | exact h | apply next_fine | apply ruleWriteMeterSpec_calm | apply takeCommand_calm
theorem execRuleWriteProfile_calm {z0 : State} (a : Arrival) (ps : List Word) (s : State) (h : Calm z0 s) : Fine z0 (execRuleWriteProfile a ps s) := by
  unfold execRuleWriteProfile
  repeat' first
    | with_reducible first | exact h | apply next_fine | apply ruleWriteProfileSpec_calm | apply takeCommand_calm
theorem execRuleWriteRewrite_calm {z0 : State} (a : Arrival) (ps : List Word) (s : State) (h : Calm z0 s) : Fine z0 (execRuleWriteRewrite a ps s) := by
  unfold execRuleWriteRewrite
  repeat' first
    | with_reducible first | exact h | apply next_fine | apply ruleWriteRewriteSpec_calm | apply takeCommand_calm
theorem execRunningCommit_calm {z0 : State} (s : State) (h : Calm z0 s) : Fine z0 (execRunningCommit s) := by
  unfold execRunningCommit
  repeat' first
    | with_reducible first | exact h | apply onTwin_fine | apply toStandby_calm | apply modEng_calm
    | (intro _; (repeat' split) <;> simp; done)
    | intro _
theorem execSampleRecordMove_calm {z0 : State} (e : EngId) (s : State) (h : Calm z0 s) : Fine z0 (execSampleRecordMove e s) := by
  unfold execSampleRecordMove
  repeat' first
    | with_reducible first | exact h | apply onEngine_fine | apply modEng_calm
    | (intro _; (repeat' split) <;> simp; done)
    | intro _
theorem execSchedCommitGcl_calm {z0 : State} (a : Arrival) (ps : List Word) (s : State) (h : Calm z0 s) : Fine z0 (execSchedCommitGcl a ps s) := by
  unfold execSchedCommitGcl
  repeat' first
    | with_reducible first | exact h | apply next_fine | apply schedCommitGclSpec_calm | apply takeCommand_calm
theorem execSchedSetClass_calm {z0 : State} (a : Arrival) (ps : List Word) (s : State) (h : Calm z0 s) : Fine z0 (execSchedSetClass a ps s) := by
  unfold execSchedSetClass
  repeat' first
    | with_reducible first | exact h | apply next_fine | apply schedSetClassSpec_calm | apply takeCommand_calm
theorem execSchedSetLaunch_calm {z0 : State} (a : Arrival) (ps : List Word) (s : State) (h : Calm z0 s) : Fine z0 (execSchedSetLaunch a ps s) := by
  unfold execSchedSetLaunch
  repeat' first
    | with_reducible first | exact h | apply next_fine | apply schedSetLaunchSpec_calm | apply takeCommand_calm
theorem execSchedSetPortShaper_calm {z0 : State} (a : Arrival) (ps : List Word) (s : State) (h : Calm z0 s) : Fine z0 (execSchedSetPortShaper a ps s) := by
  unfold execSchedSetPortShaper
  repeat' first
    | with_reducible first | exact h | apply next_fine | apply schedSetPortShaperSpec_calm | apply takeCommand_calm
theorem execSchedSetPreempt_calm {z0 : State} (a : Arrival) (ps : List Word) (s : State) (h : Calm z0 s) : Fine z0 (execSchedSetPreempt a ps s) := by
  unfold execSchedSetPreempt
  repeat' first
    | with_reducible first | exact h | apply next_fine | apply schedSetPreemptSpec_calm | apply takeCommand_calm
theorem execSchedSetRedundancy_calm {z0 : State} (a : Arrival) (ps : List Word) (s : State) (h : Calm z0 s) : Fine z0 (execSchedSetRedundancy a ps s) := by
  unfold execSchedSetRedundancy
  repeat' first
    | with_reducible first | exact h | apply next_fine | apply schedSetRedundancySpec_calm | apply takeCommand_calm
theorem execSchedWriteGcl_calm {z0 : State} (a : Arrival) (ps : List Word) (s : State) (h : Calm z0 s) : Fine z0 (execSchedWriteGcl a ps s) := by
  unfold execSchedWriteGcl
  repeat' first
    | with_reducible first | exact h | apply next_fine | apply schedWriteGclSpec_calm | apply takeCommand_calm
theorem rowServoUpdate_calm {z0 : State} (e : EngId) (s : State) (h : Calm z0 s) : Fine z0 (rowServoUpdate e s) := by
  unfold rowServoUpdate
  refine onEngine_fine (fun h _ => ?_) h
  split
  · dsimp -zeta only [takeFree]
    extract_lets peer x y s5 s6
    have h5 : Calm z0 s5 :=
      foldl_calm (fun y p h => localChanged_calm _ _ _ h) (setEng_calm (by simp [y, x]) (mk_calm.mpr (parts_calm h)))
    have h6 : Calm z0 s6 := by
      clear_value s5
      show Calm z0 (match s5.standby with | some b => _ | none => _)
      split
      · split
        · exact modEng_calm (fun z => by split <;> rfl) h5
        · exact h5
      · exact h5
    split
    · exact complete_calm _ _ _ _ _ h6
    · exact h6
  · exact h
theorem execServoUpdate_calm {z0 : State} (e : EngId) (s : State) (h : Calm z0 s) : Fine z0 (execServoUpdate e s) := by
  unfold execServoUpdate
  repeat' first
    | with_reducible first | exact h | apply settledOut_fine | apply rowServoUpdate_calm
theorem rowSidebandBeat_calm {z0 : State} (e : EngId) (toSup : Bool) (giveUp : Bool) (s : State) (h : Calm z0 s) : Fine z0 (rowSidebandBeat e toSup giveUp s) := by
  unfold rowSidebandBeat
  repeat' first
    | with_reducible first | exact h | apply onEngine_fine | apply beatToSup_calm | apply modEng_calm
    | (intro _; (repeat' split) <;> simp; done)
    | intro _
    | split
theorem execSidebandBeat_calm {z0 : State} (e : EngId) (toSup : Bool) (giveUp : Bool) (s : State) (h : Calm z0 s) : Fine z0 (execSidebandBeat e toSup giveUp s) := by
  unfold execSidebandBeat
  repeat' first
    | with_reducible first | exact h | apply settledOut_fine | apply rowSidebandBeat_calm
theorem execSlewComplete_calm {z0 : State} (e : EngId) (s : State) (h : Calm z0 s) : Fine z0 (execSlewComplete e s) := by
  unfold execSlewComplete
  repeat' first
    | with_reducible first | exact h | apply onEngine_fine | apply endSlew_calm
    | intro _
theorem execSnapshotInstant_calm {z0 : State} (e : EngId) (s : State) (h : Calm z0 s) : Fine z0 (execSnapshotInstant e s) := by
  unfold execSnapshotInstant
  repeat' first
    | with_reducible first | exact h | apply onEngine_fine | apply passTo_calm | apply modEng_calm
    | (intro _; (repeat' split) <;> simp; done)
    | intro _
    | split
    | dsimp only
theorem execSnapshotWritten_calm {z0 : State} (e : EngId) (s : State) (h : Calm z0 s) : Fine z0 (execSnapshotWritten e s) := by
  unfold execSnapshotWritten
  repeat' first
    | with_reducible first | exact h | apply onEngine_fine | apply modEng_calm
    | (intro _; (repeat' split) <;> simp; done)
    | intro _
theorem execSpeedMonitorWindow_calm {z0 : State} (e : EngId) (speeds : Vector Nat 12) (s : State) (h : Calm z0 s) : Fine z0 (execSpeedMonitorWindow e speeds s) := by
  unfold execSpeedMonitorWindow
  repeat' first
    | with_reducible first | exact h | apply onEngine_fine | apply next_fine | apply modEng_calm
    | (simp only [mk_calm]; with_reducible refine parts_calm ?_)
    | (intro _; (repeat' split) <;> simp; done)
    | intro _
    | split
    | dsimp only
theorem execSpiReadReply_calm {z0 : State} (whole : Bool) (s : State) (h : Calm z0 s) : Fine z0 (execSpiReadReply whole s) := by
  unfold execSpiReadReply
  repeat' first
    | with_reducible first | exact h | apply onSpi_fine | apply settledOut_fine
theorem execSpiReadStatus_calm {z0 : State} (s : State) (h : Calm z0 s) : Fine z0 (execSpiReadStatus s) := by
  unfold execSpiReadStatus
  repeat' first
    | with_reducible first | exact h | apply onSpi_fine
theorem execSpiUnknownInstruction_calm {z0 : State} (s : State) (h : Calm z0 s) : Fine z0 (execSpiUnknownInstruction s) := by
  unfold execSpiUnknownInstruction
  repeat' first
    | with_reducible first | exact h | apply onSpi_fine
theorem spiPacket_calm {z0 : State} (bs : List Byte) (complete : Bool) (s : State) (h : Calm z0 s) : Calm z0 (spiPacket bs complete s) := by
  unfold spiPacket
  repeat' first
    | with_reducible first | exact h | apply takePacket_calm | apply countDup_calm
    | (simp only [mk_calm]; with_reducible refine parts_calm ?_)
    | (intro _; (repeat' split) <;> simp; done)
    | split
    | dsimp only
theorem execSpiWritePacket_calm {z0 : State} (bytes : List Byte) (complete : Bool) (s : State) (h : Calm z0 s) : Fine z0 (execSpiWritePacket bytes complete s) := by
  unfold execSpiWritePacket
  repeat' first
    | with_reducible first | exact h | apply next_fine | apply settled_calm | apply spiPacket_calm
theorem execStatsClear_calm {z0 : State} (a : Arrival) (ps : List Word) (s : State) (h : Calm z0 s) : Fine z0 (execStatsClear a ps s) := by
  unfold execStatsClear
  repeat' first
    | with_reducible first | exact h | apply next_fine | apply statsClearSpec_calm | apply takeCommand_calm
theorem execStatsRead_calm {z0 : State} (a : Arrival) (ps : List Word) (s : State) (h : Calm z0 s) : Fine z0 (execStatsRead a ps s) := by
  unfold execStatsRead
  repeat' first
    | with_reducible first | exact h | apply next_fine | apply statsReadSpec_calm | apply takeCommand_calm
theorem execStatsSetChain_calm {z0 : State} (a : Arrival) (ps : List Word) (s : State) (h : Calm z0 s) : Fine z0 (execStatsSetChain a ps s) := by
  unfold execStatsSetChain
  repeat' first
    | with_reducible first | exact h | apply next_fine | apply statsSetChainSpec_calm | apply takeCommand_calm
theorem execStatsSetSampler_calm {z0 : State} (a : Arrival) (ps : List Word) (s : State) (h : Calm z0 s) : Fine z0 (execStatsSetSampler a ps s) := by
  unfold execStatsSetSampler
  repeat' first
    | with_reducible first | exact h | apply next_fine | apply statsSetSamplerSpec_calm | apply takeCommand_calm
theorem execStatsSetSnapshot_calm {z0 : State} (a : Arrival) (ps : List Word) (s : State) (h : Calm z0 s) : Fine z0 (execStatsSetSnapshot a ps s) := by
  unfold execStatsSetSnapshot
  repeat' first
    | with_reducible first | exact h | apply next_fine | apply statsSetSnapshotSpec_calm | apply takeCommand_calm
theorem execStatsSnapNow_calm {z0 : State} (a : Arrival) (ps : List Word) (s : State) (h : Calm z0 s) : Fine z0 (execStatsSnapNow a ps s) := by
  unfold execStatsSnapNow
  repeat' first
    | with_reducible first | exact h | apply next_fine | apply statsSnapNowSpec_calm | apply takeCommand_calm
theorem execSteerFault_calm {z0 : State} (s : State) (h : Calm z0 s) : Fine z0 (execSteerFault s) := by
  unfold execSteerFault
  repeat' first
    | with_reducible first | exact h | apply next_fine | apply powerDieFault_calm
theorem moveSteering_calm {z0 : State} (r : SwitchRun) (s : State) (h : Calm z0 s) : Calm z0 (moveSteering r s) := by
  unfold moveSteering
  repeat' first
    | with_reducible first | exact h | apply resetOrFence_calm | apply setSteer_calm | apply modEng_calm
    | (simp only [mk_calm]; with_reducible refine parts_calm ?_)
    | (intro _; (repeat' split) <;> simp; done)
    | split
    | dsimp only
theorem rowSteeringMoveDone_calm {z0 : State} (s : State) (h : Calm z0 s) : Fine z0 (rowSteeringMoveDone s) := by
  unfold rowSteeringMoveDone
  repeat' first
    | with_reducible first | exact h | apply onTwin_fine | apply endRun_calm | apply moveSteering_calm | apply grantSwap_calm
    | (simp only [mk_calm]; with_reducible refine parts_calm ?_)
    | (intro _; (repeat' split) <;> simp; done)
    | intro _
    | split
    | dsimp only
theorem execSteeringMoveDone_calm {z0 : State} (s : State) (h : Calm z0 s) : Fine z0 (execSteeringMoveDone s) := by
  unfold execSteeringMoveDone
  repeat' first
    | with_reducible first | exact h | apply settledOut_fine | apply rowSteeringMoveDone_calm
theorem jumpOn_calm {z0 : State} (e : EngId) (p : PendingStep) (s : State) (h : Calm z0 s) : Calm z0 (jumpOn e p s) := by
  unfold jumpOn
  repeat' first
    | with_reducible first | exact h | apply complete_calm | apply modEng_calm
    | (intro _; (repeat' split) <;> simp; done)
theorem stepApply_calm {z0 : State} (e : EngId) (s : State) (h : Calm z0 s) : Calm z0 (stepApply e s) := by
  unfold stepApply
  repeat' first
    | with_reducible first | exact h | apply jumpOn_calm | apply passTo_calm
    | split
    | dsimp only
theorem rowStepApply_calm {z0 : State} (e : EngId) (s : State) (h : Calm z0 s) : Fine z0 (rowStepApply e s) := by
  unfold rowStepApply
  repeat' first
    | with_reducible first | exact h | apply onEngine_fine | apply stepApply_calm
    | intro _
theorem execStepApply_calm {z0 : State} (e : EngId) (s : State) (h : Calm z0 s) : Fine z0 (execStepApply e s) := by
  unfold execStepApply
  repeat' first
    | with_reducible first | exact h | apply settledOut_fine | apply rowStepApply_calm
theorem execStormClear_calm {z0 : State} (e : EngId) (port : Fin 34) (mask : Word) (s : State) (h : Calm z0 s) : Fine z0 (execStormClear e port mask s) := by
  unfold execStormClear
  repeat' first
    | with_reducible first | exact h | apply onEngine_fine | apply modEng_calm
    | (intro _; (repeat' split) <;> simp; done)
    | intro _
theorem execSupervisorFault_calm {z0 : State} (a0 : SupFaultCause) (s : State) (h : Calm z0 s) : Fine z0 (execSupervisorFault a0 s) := by
  unfold execSupervisorFault
  repeat' first
    | with_reducible first | exact h | apply next_fine | apply modBoth_calm
    | (simp only [mk_calm]; with_reducible refine parts_calm ?_)
    | (intro _; (repeat' split) <;> simp; done)
    | split
theorem recoverOwner_calm {z0 : State} (s : State) (h : Calm z0 s) : Calm z0 (recoverOwner s) := by
  unfold recoverOwner
  repeat' first
    | with_reducible first | exact h | apply startSwitch_calm
    | split
    | dsimp only
theorem recoverStandby_calm {z0 : State} (s : State) (h : Calm z0 s) : Calm z0 (recoverStandby s) := by
  unfold recoverStandby
  repeat' first
    | with_reducible first | exact h | apply standbySilent_calm
    | split
theorem resetWaiting_calm {z0 : State} (e : EngId) (s : State) (h : Calm z0 s) : Calm z0 (resetWaiting e s) := by
  unfold resetWaiting
  repeat' first
    | with_reducible first | exact h | apply resetOrFence_calm
    | split
    | dsimp only
theorem reportRoles_calm {z0 : State} (s : State) (h : Calm z0 s) : Calm z0 (reportRoles s) := by
  unfold reportRoles
  repeat' first
    | with_reducible first | exact h | apply reportRole_calm
    | (simp only [mk_calm]; with_reducible refine parts_calm ?_)
    | (intro _; (repeat' split) <;> simp; done)
    | split
    | dsimp only
theorem judgeStarted_calm {z0 : State} (e : EngId) (s : State) (h : Calm z0 s) : Calm z0 (judgeStarted e s) := by
  unfold judgeStarted
  dsimp only
  split
  · next hc =>
    refine enterMaint_calm _ _ _ ?_ h
    simp only [Bool.and_eq_true, Engine.running] at hc
    unfold Engine.awake
    revert hc
    cases (s.eng e).core.phase <;> simp
  · exact h
theorem recoverSup_calm {z0 : State} (s : State) (h : Calm z0 s) : Calm z0 (recoverSup s) := by
  unfold recoverSup
  repeat' first
    | with_reducible first | exact h | apply judgeGrants_calm | apply recoverOwner_calm | apply recoverStandby_calm | apply resetWaiting_calm | apply judgeStarted_calm | apply reportRoles_calm
    | (simp only [mk_calm]; with_reducible refine parts_calm ?_)
    | (intro _; (repeat' split) <;> simp; done)
    | split
    | dsimp only
theorem rowSupervisorRecovery_calm {z0 : State} (s : State) (h : Calm z0 s) : Fine z0 (rowSupervisorRecovery s) := by
  unfold rowSupervisorRecovery
  repeat' first
    | with_reducible first | exact h | apply next_fine | apply recoverSup_calm
    | split
theorem execSupervisorRecovery_calm {z0 : State} (s : State) (h : Calm z0 s) : Fine z0 (execSupervisorRecovery s) := by
  unfold execSupervisorRecovery
  repeat' first
    | with_reducible first | exact h | apply settledOut_fine | apply rowSupervisorRecovery_calm
theorem execSupervisorRestartTimeout_calm {z0 : State} (s : State) (h : Calm z0 s) : Fine z0 (execSupervisorRestartTimeout s) := by
  unfold execSupervisorRestartTimeout
  repeat' first
    | with_reducible first | exact h | apply next_fine | apply modBoth_calm
    | (simp only [mk_calm]; with_reducible refine parts_calm ?_)
    | (intro _; (repeat' split) <;> simp; done)
    | split
theorem switchAt_calm {z0 : State} (plan : SwapPlan) (a : EngId) (d : EngId) (s0 : State) (h : Calm z0 s0) : Calm z0 (switchAt plan a d s0) := by
  unfold switchAt
  repeat' first
    | with_reducible first | exact h | apply applyInFlight_calm | apply grantControl_calm | apply releaseAcks_calm | apply setRole_calm | apply modEng_calm
    | (simp only [mk_calm]; with_reducible refine parts_calm ?_)
    | (intro _; (repeat' split) <;> simp; done)
theorem performSwap_calm {z0 : State} (plan : SwapPlan) (s : State) (h : Calm z0 s) : Calm z0 (performSwap plan s) := by
  unfold performSwap
  repeat' first
    | with_reducible first | exact h | apply abandonSwap_calm | apply passTo_calm | apply switchAt_calm
    | split
    | dsimp only
theorem prepareFrom_calm {z0 : State} (plan : SwapPlan) (s1 : State) (h : Calm z0 s1) : Calm z0 (prepareFrom plan s1) := by
  unfold prepareFrom
  repeat' first
    | with_reducible first | exact h | apply abandonSwap_calm | apply modEng_calm | apply modBoth_calm
    | (simp only [mk_calm]; with_reducible refine parts_calm ?_)
    | (intro _; (repeat' split) <;> simp; done)
    | split
theorem prepareSwap_calm {z0 : State} (plan : SwapPlan) (s : State) (h : Calm z0 s) : Calm z0 (prepareSwap plan s) := by
  unfold prepareSwap
  repeat' first
    | with_reducible first | exact h | apply passTo_calm | apply prepareFrom_calm
theorem swapPrepare_calm {z0 : State} (s : State) (h : Calm z0 s) : Calm z0 (swapPrepare s) := by
  unfold swapPrepare
  repeat' first
    | with_reducible first | exact h | apply prepareSwap_calm
    | split
theorem swapAtEvent_calm {z0 : State} (s : State) (h : Calm z0 s) : Calm z0 (swapAtEvent s) := by
  unfold swapAtEvent
  repeat' first
    | with_reducible first | exact h | apply performSwap_calm | apply swapPrepare_calm
    | split
    | dsimp only
theorem execSwapAt_calm {z0 : State} (s : State) (h : Calm z0 s) : Fine z0 (execSwapAt s) := by
  unfold execSwapAt
  repeat' first
    | with_reducible first | exact h | apply onTwin_fine | apply settledOut_fine | apply swapAtEvent_calm
theorem execSwapPrepare_calm {z0 : State} (s : State) (h : Calm z0 s) : Fine z0 (execSwapPrepare s) := by
  unfold execSwapPrepare
  repeat' first
    | with_reducible first | exact h | apply onTwin_fine | apply settledOut_fine | apply swapPrepare_calm
theorem execSwapRetry_calm {z0 : State} (s : State) (h : Calm z0 s) : Fine z0 (execSwapRetry s) := by
  unfold execSwapRetry
  repeat' first
    | with_reducible first | exact h | apply onTwin_fine | apply attemptSwap_calm
    | intro _
    | split
theorem execSwapSchedule_calm {z0 : State} (s : State) (h : Calm z0 s) : Fine z0 (execSwapSchedule s) := by
  unfold execSwapSchedule
  repeat' first
    | with_reducible first | exact h | apply onTwin_fine | apply attemptSwap_calm
    | intro _
    | split
theorem switchoverComplete_calm {z0 : State} (s : State) (h : Calm z0 s) : Calm z0 (switchoverComplete s) := by
  unfold switchoverComplete
  repeat' first
    | with_reducible first | exact h | apply endRun_calm | apply endSwitch_calm | apply judgeGrants_calm
    | split
theorem execSwitchoverComplete_calm {z0 : State} (s : State) (h : Calm z0 s) : Fine z0 (execSwitchoverComplete s) := by
  unfold execSwitchoverComplete
  repeat' first
    | with_reducible first | exact h | apply onTwin_fine | apply settledOut_fine | apply switchoverComplete_calm
theorem execSyntAnalogLock_calm {z0 : State} (e : EngId) (s : State) (h : Calm z0 s) : Fine z0 (execSyntAnalogLock e s) := by
  unfold execSyntAnalogLock
  repeat' first
    | with_reducible first | exact h | apply onEngine_fine | apply modEng_calm
    | (intro _; (repeat' split) <;> simp; done)
    | intro _
theorem execSyntLoss_calm {z0 : State} (e : EngId) (incNew : Nat) (phase : Int) (s : State) (h : Calm z0 s) : Fine z0 (execSyntLoss e incNew phase s) := by
  unfold execSyntLoss
  repeat' first
    | with_reducible first | exact h | apply onEngine_fine | apply localsChanged_calm | apply modEng_calm
    | (intro _; (repeat' split) <;> simp; done)
    | intro _
    | split
    | dsimp only
theorem execSyntRelockRetry_calm {z0 : State} (e : EngId) (s : State) (h : Calm z0 s) : Fine z0 (execSyntRelockRetry e s) := by
  unfold execSyntRelockRetry
  repeat' first
    | with_reducible first | exact h | apply onEngine_fine | apply modEng_calm
    | (intro _; (repeat' split) <;> simp; done)
    | intro _
theorem execSyntReturn_calm {z0 : State} (e : EngId) (phase : Int) (s : State) (h : Calm z0 s) : Fine z0 (execSyntReturn e phase s) := by
  unfold execSyntReturn
  repeat' first
    | with_reducible first | exact h | apply onEngine_fine | apply modEng_calm
    | (intro _; (repeat' split) <;> simp; done)
    | intro _
theorem execSysNop_calm {z0 : State} (a : Arrival) (ps : List Word) (s : State) (h : Calm z0 s) : Fine z0 (execSysNop a ps s) := by
  unfold execSysNop
  repeat' first
    | with_reducible first | exact h | apply next_fine | apply sysNopSpec_calm | apply takeCommand_calm
theorem execSysReadReg_calm {z0 : State} (a : Arrival) (ps : List Word) (s : State) (h : Calm z0 s) : Fine z0 (execSysReadReg a ps s) := by
  unfold execSysReadReg
  repeat' first
    | with_reducible first | exact h | apply next_fine | apply sysReadRegSpec_calm | apply takeCommand_calm
theorem execSysSetIrq_calm {z0 : State} (a : Arrival) (ps : List Word) (s : State) (h : Calm z0 s) : Fine z0 (execSysSetIrq a ps s) := by
  unfold execSysSetIrq
  repeat' first
    | with_reducible first | exact h | apply next_fine | apply sysSetIrqSpec_calm | apply takeCommand_calm
theorem execSysSetMgmt_calm {z0 : State} (a : Arrival) (ps : List Word) (s : State) (h : Calm z0 s) : Fine z0 (execSysSetMgmt a ps s) := by
  unfold execSysSetMgmt
  repeat' first
    | with_reducible first | exact h | apply next_fine | apply sysSetMgmtSpec_calm | apply takeCommand_calm
theorem execSysSetPace_calm {z0 : State} (a : Arrival) (ps : List Word) (s : State) (h : Calm z0 s) : Fine z0 (execSysSetPace a ps s) := by
  unfold execSysSetPace
  repeat' first
    | with_reducible first | exact h | apply next_fine | apply sysSetPaceSpec_calm | apply takeCommand_calm
theorem execSysSetRing_calm {z0 : State} (a : Arrival) (ps : List Word) (s : State) (h : Calm z0 s) : Fine z0 (execSysSetRing a ps s) := by
  unfold execSysSetRing
  repeat' first
    | with_reducible first | exact h | apply next_fine | apply sysSetRingSpec_calm | apply takeCommand_calm
theorem execTableScrub_calm {z0 : State} (e : EngId) (table : TableId) (index : Nat) (corrected : Bool) (s : State) (h : Calm z0 s) : Fine z0 (execTableScrub e table index corrected s) := by
  unfold execTableScrub
  repeat' first
    | with_reducible first | exact h | apply onEngine_fine | apply modEng_calm
    | (intro _; (repeat' split) <;> simp; done)
    | intro _
theorem execTbPhaseMeasurement_calm {z0 : State} (err : Int) (heldUs : Nat) (s : State) (h : Calm z0 s) : Fine z0 (execTbPhaseMeasurement err heldUs s) := by
  unfold execTbPhaseMeasurement
  repeat' first
    | with_reducible first | exact h | apply onTwin_fine | apply judgeSync_calm | apply modEng_calm
    | (intro _; (repeat' split) <;> simp; done)
    | intro _
    | split
theorem execTc2stepAge_calm {z0 : State} (e : EngId) (s : State) (h : Calm z0 s) : Fine z0 (execTc2stepAge e s) := by
  unfold execTc2stepAge
  repeat' first
    | with_reducible first | exact h | apply onEngine_fine | apply modEng_calm
    | (intro _; (repeat' split) <;> simp; done)
    | intro _
theorem execTimeAlignOutputs_calm {z0 : State} (a : Arrival) (ps : List Word) (s : State) (h : Calm z0 s) : Fine z0 (execTimeAlignOutputs a ps s) := by
  unfold execTimeAlignOutputs
  repeat' first
    | with_reducible first | exact h | apply next_fine | apply takeCommand_calm | apply timeAlignOutputsSpec_calm
theorem execTimeCalAsym_calm {z0 : State} (a : Arrival) (ps : List Word) (s : State) (h : Calm z0 s) : Fine z0 (execTimeCalAsym a ps s) := by
  unfold execTimeCalAsym
  repeat' first
    | with_reducible first | exact h | apply next_fine | apply takeCommand_calm | apply timeCalAsymSpec_calm
theorem execTimeGet_calm {z0 : State} (a : Arrival) (ps : List Word) (s : State) (h : Calm z0 s) : Fine z0 (execTimeGet a ps s) := by
  unfold execTimeGet
  repeat' first
    | with_reducible first | exact h | apply next_fine | apply takeCommand_calm | apply timeGetSpec_calm
theorem execTimeNsecRead_calm {z0 : State} (e : EngId) (l : LatchId) (s : State) (h : Calm z0 s) : Fine z0 (execTimeNsecRead e l s) := by
  unfold execTimeNsecRead
  repeat' first
    | with_reducible first | exact h | apply onEngine_fine | apply modEng_calm
    | (intro _; (repeat' split) <;> simp; done)
    | intro _
theorem execTimePutSample_calm {z0 : State} (a : Arrival) (ps : List Word) (s : State) (h : Calm z0 s) : Fine z0 (execTimePutSample a ps s) := by
  unfold execTimePutSample
  repeat' first
    | with_reducible first | exact h | apply next_fine | apply takeCommand_calm | apply timePutSampleSpec_calm
theorem execTimeReadEvents_calm {z0 : State} (a : Arrival) (ps : List Word) (s : State) (h : Calm z0 s) : Fine z0 (execTimeReadEvents a ps s) := by
  unfold execTimeReadEvents
  repeat' first
    | with_reducible first | exact h | apply next_fine | apply takeCommand_calm | apply timeReadEventsSpec_calm
theorem execTimeSchedEdge_calm {z0 : State} (a : Arrival) (ps : List Word) (s : State) (h : Calm z0 s) : Fine z0 (execTimeSchedEdge a ps s) := by
  unfold execTimeSchedEdge
  repeat' first
    | with_reducible first | exact h | apply next_fine | apply takeCommand_calm | apply timeSchedEdgeSpec_calm
theorem execTimeSet_calm {z0 : State} (a : Arrival) (ps : List Word) (s : State) (h : Calm z0 s) : Fine z0 (execTimeSet a ps s) := by
  unfold execTimeSet
  repeat' first
    | with_reducible first | exact h | apply next_fine | apply takeCommand_calm | apply timeSetSpec_calm
theorem execTimeSetAsym_calm {z0 : State} (a : Arrival) (ps : List Word) (s : State) (h : Calm z0 s) : Fine z0 (execTimeSetAsym a ps s) := by
  unfold execTimeSetAsym
  repeat' first
    | with_reducible first | exact h | apply next_fine | apply takeCommand_calm | apply timeSetAsymSpec_calm
theorem execTimeSetBoardDelay_calm {z0 : State} (a : Arrival) (ps : List Word) (s : State) (h : Calm z0 s) : Fine z0 (execTimeSetBoardDelay a ps s) := by
  unfold execTimeSetBoardDelay
  repeat' first
    | with_reducible first | exact h | apply next_fine | apply takeCommand_calm | apply timeSetBoardDelaySpec_calm
theorem execTimeSetDomain_calm {z0 : State} (a : Arrival) (ps : List Word) (s : State) (h : Calm z0 s) : Fine z0 (execTimeSetDomain a ps s) := by
  unfold execTimeSetDomain
  repeat' first
    | with_reducible first | exact h | apply next_fine | apply takeCommand_calm | apply timeSetDomainSpec_calm
theorem execTimeSetEvtin_calm {z0 : State} (a : Arrival) (ps : List Word) (s : State) (h : Calm z0 s) : Fine z0 (execTimeSetEvtin a ps s) := by
  unfold execTimeSetEvtin
  repeat' first
    | with_reducible first | exact h | apply next_fine | apply takeCommand_calm | apply timeSetEvtinSpec_calm
theorem execTimeSetPtpPort_calm {z0 : State} (a : Arrival) (ps : List Word) (s : State) (h : Calm z0 s) : Fine z0 (execTimeSetPtpPort a ps s) := by
  unfold execTimeSetPtpPort
  repeat' first
    | with_reducible first | exact h | apply next_fine | apply takeCommand_calm | apply timeSetPtpPortSpec_calm
theorem execTimeSetTc_calm {z0 : State} (a : Arrival) (ps : List Word) (s : State) (h : Calm z0 s) : Fine z0 (execTimeSetTc a ps s) := by
  unfold execTimeSetTc
  repeat' first
    | with_reducible first | exact h | apply next_fine | apply takeCommand_calm | apply timeSetTcSpec_calm
theorem execTimeStep_calm {z0 : State} (a : Arrival) (ps : List Word) (s : State) (h : Calm z0 s) : Fine z0 (execTimeStep a ps s) := by
  unfold execTimeStep
  repeat' first
    | with_reducible first | exact h | apply next_fine | apply takeCommand_calm | apply timeStepSpec_calm
theorem execTimeSwitchDomain_calm {z0 : State} (a : Arrival) (ps : List Word) (s : State) (h : Calm z0 s) : Fine z0 (execTimeSwitchDomain a ps s) := by
  unfold execTimeSwitchDomain
  repeat' first
    | with_reducible first | exact h | apply next_fine | apply takeCommand_calm | apply timeSwitchDomainSpec_calm
theorem timeWord_calm {z0 : State} (s : State) (h : Calm z0 s) : Calm z0 (timeWord s) := by
  unfold timeWord
  repeat' first
    | with_reducible first | exact h | apply judgeSync_calm | apply modEng_calm
    | (intro _; (repeat' split) <;> simp; done)
    | split
theorem execTimeWordSync_calm {z0 : State} (s : State) (h : Calm z0 s) : Fine z0 (execTimeWordSync s) := by
  unfold execTimeWordSync
  repeat' first
    | with_reducible first | exact h | apply onTwin_fine | apply timeWord_calm
theorem execTrimStep_calm {z0 : State} (e : EngId) (s : State) (h : Calm z0 s) : Fine z0 (execTrimStep e s) := by
  unfold execTrimStep
  repeat' first
    | with_reducible first | exact h | apply onEngine_fine | apply modEng_calm
    | (intro _; (repeat' split) <;> simp; done)
    | intro _
theorem execTwinFence_calm {z0 : State} (a : Arrival) (ps : List Word) (s : State) (h : Calm z0 s) : Fine z0 (execTwinFence a ps s) := by
  unfold execTwinFence
  repeat' first
    | with_reducible first | exact h | apply next_fine | apply takeCommand_calm | apply twinFenceSpec_calm
theorem execTwinGetState_calm {z0 : State} (a : Arrival) (ps : List Word) (s : State) (h : Calm z0 s) : Fine z0 (execTwinGetState a ps s) := by
  unfold execTwinGetState
  repeat' first
    | with_reducible first | exact h | apply next_fine | apply takeCommand_calm | apply twinGetStateSpec_calm
theorem execTwinRejoin_calm {z0 : State} (a : Arrival) (ps : List Word) (s : State) (h : Calm z0 s) : Fine z0 (execTwinRejoin a ps s) := by
  unfold execTwinRejoin
  repeat' first
    | with_reducible first | exact h | apply next_fine | apply takeCommand_calm | apply twinRejoinSpec_calm
theorem execTwinSetSwap_calm {z0 : State} (a : Arrival) (ps : List Word) (s : State) (h : Calm z0 s) : Fine z0 (execTwinSetSwap a ps s) := by
  unfold execTwinSetSwap
  repeat' first
    | with_reducible first | exact h | apply next_fine | apply takeCommand_calm | apply twinSetSwapSpec_calm
theorem execTwinSwapRoles_calm {z0 : State} (a : Arrival) (ps : List Word) (s : State) (h : Calm z0 s) : Fine z0 (execTwinSwapRoles a ps s) := by
  unfold execTwinSwapRoles
  repeat' first
    | with_reducible first | exact h | apply next_fine | apply takeCommand_calm | apply twinSwapRolesSpec_calm
theorem execTxOpportunity_calm {z0 : State} (e : EngId) (port : Fin 34) (after : Nat) (read : TxRead) (s : State) (h : Calm z0 s) : Fine z0 (execTxOpportunity e port after read s) := by
  unfold execTxOpportunity
  repeat' first
    | with_reducible first | exact h | apply onEngine_fine | apply passAfter_calm | apply modEng_calm
    | (intro _; (repeat' split) <;> simp; done)
    | intro _

end Sys2Proof.Machine
end

