-- ==== Sys2Proof/Laws/Commands.lean ====
section
/-! SUPPORT. What becomes of a command packet that is taken at once. -/

namespace Sys2Proof

open Sys2Proof.Machine

/-- A packet that is taken at once is executed by the unit its target resolves to. -/
theorem submit_taken {sp : CmdSpec} {a : Arrival} {ps : List Word} {s : State} {u : UnitId} {fwd : Bool} (h : Taken a s u fwd) :
    submit sp a ps s = execute sp u a fwd ps (begun a s) := by
  have hr := h.routed
  have hn : ¬ (tagsOf a s).length ≥ 64 := Nat.not_le.mpr h.room
  unfold begun at hr ⊢
  simp only [submit, h.opened, accept, intake, h.fresh, h.unheard, h.unfenced, routeExec, hr, hn, if_true, if_false, decide_false,
    Bool.false_and, Bool.false_eq_true]

/-- A packet that is taken at once and passes every check takes its effect. -/
theorem takeCommand_taken {sp : CmdSpec} {a : Arrival} {ps : List Word} {s : State} {u : UnitId} {fwd : Bool} (h : Taken a s u fwd)
    (hc : check sp { unit := u, arrival := a, mirror := false } ps (begun a s) = none) :
    takeCommand sp a ps s = settled (perform sp u a fwd ps (begun a s)) := by
  simp only [takeCommand, submit_taken h, execute, hc]

/-- A packet that is taken at once and fails a check is answered, and changes nothing else. -/
theorem takeCommand_refused {sp : CmdSpec} {a : Arrival} {ps : List Word} {s : State} {u : UnitId} {fwd : Bool} (h : Taken a s u fwd)
    {st : Status} {body : List Word} (hc : check sp { unit := u, arrival := a, mirror := false } ps (begun a s) = some (st, body)) :
    takeCommand sp a ps s = settled (deliver a (replyNow u a sp.opcode fwd st body (begun a s)) (begun a s)) := by
  simp only [takeCommand, submit_taken h, execute, hc]

end Sys2Proof
end

