-- ==== Sys2Proof/Laws/Exec.lean ====
section
/-! SUPPORT. Every command of the table but the five that switch the supply leaves alone what `Calm` names. -/

namespace Sys2Proof.Machine

/-- The commands that switch the supply, or start the supervisor. -/
def switchesSupply : Instr → Bool
  | .supplyValid => true
  | .brownOut => true
  | .thermalShutdown => true
  | .supervisorBoot => true
  | .railSequenceDone => true
  | _ => false

/-- What a command can do to the part, the queue, the supply and the phases of the engines. -/
theorem exec_fine (i : Instr) (s : State) (hi : switchesSupply i = false) : Fine s (exec i s) := by
  have h := calm_refl s
  cases i with
  | supplyValid => exact absurd hi (by decide)
  | brownOut => exact absurd hi (by decide)
  | powerCycle => exact execPowerCycle_calm s h
  | holdupDraw => exact execHoldupDraw_calm s h
  | holdupReturn => exact execHoldupReturn_calm s h
  | resetNAssert => exact execResetNAssert_calm s h
  | resetNRelease => exact execResetNRelease_calm s h
  | pciePerst e => exact execPciePerst_calm e s h
  | railFault rail => exact execRailFault_calm rail s h
  | steerFault => exact execSteerFault_calm s h
  | powerDieOvertemp => exact execPowerDieOvertemp_calm s h
  | thermalShutdown => exact absurd hi (by decide)
  | supervisorBoot => exact absurd hi (by decide)
  | railSequenceDone => exact absurd hi (by decide)
  | engineLeaveReset e => exact execEngineLeaveReset_calm e s h
  | engineBoot e recordsBad => exact execEngineBoot_calm e recordsBad s h
  | initialCalibrationDone e => exact execInitialCalibrationDone_calm e s h
  | engineReady e => exact execEngineReady_calm e s h
  | engineBStartTimeout => exact execEngineBStartTimeout_calm s h
  | sidebandBeat e toSup giveUp => exact execSidebandBeat_calm e toSup giveUp s h
  | fofaeneBeat e giveUp => exact execFofaeneBeat_calm e giveUp s h
  | heartbeatLoss p => exact execHeartbeatLoss_calm p s h
  | giveUpWaitExpiry => exact execGiveUpWaitExpiry_calm s h
  | supervisorFault cause => exact execSupervisorFault_calm cause s h
  | supervisorRecovery => exact execSupervisorRecovery_calm s h
  | supervisorRestartTimeout => exact execSupervisorRestartTimeout_calm s h
  | fofLinkDown => exact execFofLinkDown_calm s h
  | fofLinkUp => exact execFofLinkUp_calm s h
  | steeringMoveDone => exact execSteeringMoveDone_calm s h
  | outputAlignerHandover diffs => exact execOutputAlignerHandover_calm diffs s h
  | switchoverComplete => exact execSwitchoverComplete_calm s h
  | occupancyReport => exact execOccupancyReport_calm s h
  | runningCommit => exact execRunningCommit_calm s h
  | commitMarkerReceived => exact execCommitMarkerReceived_calm s h
  | commitAckReceived => exact execCommitAckReceived_calm s h
  | copyTimeout => exact execCopyTimeout_calm s h
  | fullCopyEnd => exact execFullCopyEnd_calm s h
  | timeWordSync => exact execTimeWordSync_calm s h
  | tbPhaseMeasurement err heldUs => exact execTbPhaseMeasurement_calm err heldUs s h
  | digestWindowClose => exact execDigestWindowClose_calm s h
  | digestCompare => exact execDigestCompare_calm s h
  | fastScrubEnd activeWords standbyWords => exact execFastScrubEnd_calm activeWords standbyWords s h
  | swapPrepare => exact execSwapPrepare_calm s h
  | swapAt => exact execSwapAt_calm s h
  | swapSchedule => exact execSwapSchedule_calm s h
  | swapRetry => exact execSwapRetry_calm s h
  | proxyMirror => exact execProxyMirror_calm s h
  | stepApply e => exact execStepApply_calm e s h
  | slewComplete e => exact execSlewComplete_calm e s h
  | lockWindowEnd e loop window dev => exact execLockWindowEnd_calm e loop window dev s h
  | syntLoss e incNew phase => exact execSyntLoss_calm e incNew phase s h
  | syntAnalogLock e => exact execSyntAnalogLock_calm e s h
  | syntReturn e phase => exact execSyntReturn_calm e phase s h
  | syntRelockRetry e => exact execSyntRelockRetry_calm e s h
  | phasePullbackDone e => exact execPhasePullbackDone_calm e s h
  | d0Lost e => exact execD0Lost_calm e s h
  | evtinEdge e input rise heldNs after => exact execEvtinEdge_calm e input rise heldNs after s h
  | pulseInputEdge e ref rise after => exact execPulseInputEdge_calm e ref rise after s h
  | evtoutEdge e out => exact execEvtoutEdge_calm e out s h
  | outputSlewDone e out => exact execOutputSlewDone_calm e out s h
  | frameHeadReceived e port after bytes hands => exact execFrameHeadReceived_calm e port after bytes hands s h
  | frameTailReceived e port fcs => exact execFrameTailReceived_calm e port fcs s h
  | macControlReceived e port opcode vec quanta len => exact execMacControlReceived_calm e port opcode vec quanta len s h
  | ahnudFrameReceived e port bytes fcs => exact execAhnudFrameReceived_calm e port bytes fcs s h
  | mgmtFrameReceived e bytes fcs => exact execMgmtFrameReceived_calm e bytes fcs s h
  | roundaboutPass1 e => exact execRoundaboutPass1_calm e s h
  | flipAt e => exact execFlipAt_calm e s h
  | drainEnd e => exact execDrainEnd_calm e s h
  | hostSendFetch e ring => exact execHostSendFetch_calm e ring s h
  | txOpportunity e port after read => exact execTxOpportunity_calm e port after read s h
  | copyTransmitEnd e port => exact execCopyTransmitEnd_calm e port s h
  | drainFetchDone fetch => exact execDrainFetchDone_calm fetch s h
  | mcResidueRetry e port cls => exact execMcResidueRetry_calm e port cls s h
  | mcResidueAgeExpiry e port cls => exact execMcResidueAgeExpiry_calm e port cls s h
  | crossStall e channel => exact execCrossStall_calm e channel s h
  | pfcRepeat e port => exact execPfcRepeat_calm e port s h
  | pauseTimerExpiry e port prio => exact execPauseTimerExpiry_calm e port prio s h
  | pfcStorm e port cls => exact execPfcStorm_calm e port cls s h
  | ageCheck e => exact execAgeCheck_calm e s h
  | portDown e port cause => exact execPortDown_calm e port cause s h
  | portUpCondition e port => exact execPortUpCondition_calm e port s h
  | portUp e port => exact execPortUp_calm e port s h
  | holdExpiry e port => exact execHoldExpiry_calm e port s h
  | anResolved e port partner pause => exact execAnResolved_calm e port partner pause s h
  | anFailure e port => exact execAnFailure_calm e port s h
  | anRestart e port => exact execAnRestart_calm e port s h
  | parallelDetectStep e port locked => exact execParallelDetectStep_calm e port locked s h
  | hostPortDown e h1 cause => exact execHostPortDown_calm e h1 cause s h
  | hostPortUp e h1 => exact execHostPortUp_calm e h1 s h
  | preemptVerifyTimer e port => exact execPreemptVerifyTimer_calm e port s h
  | ahnudOfferTimer e port => exact execAhnudOfferTimer_calm e port s h
  | ahnudAnegWait e port => exact execAhnudAnegWait_calm e port s h
  | ahnudKeepTimer e port => exact execAhnudKeepTimer_calm e port s h
  | ahnudPartnerTimeout e port => exact execAhnudPartnerTimeout_calm e port s h
  | gclEntryChange e port => exact execGclEntryChange_calm e port s h
  | gclChangeTime e port => exact execGclChangeTime_calm e port s h
  | tc2stepAge e => exact execTc2stepAge_calm e s h
  | dupForget e => exact execDupForget_calm e s h
  | proxyAge e => exact execProxyAge_calm e s h
  | fdbAgeSweep e => exact execFdbAgeSweep_calm e s h
  | ptpSyncSend e dom port => exact execPtpSyncSend_calm e dom port s h
  | ptpDelayReqSend e dom port => exact execPtpDelayReqSend_calm e dom port s h
  | ptpNoSample e dom => exact execPtpNoSample_calm e dom s h
  | anchorSample e port phi => exact execAnchorSample_calm e port phi s h
  | anchorReset e port => exact execAnchorReset_calm e port s h
  | servoUpdate e => exact execServoUpdate_calm e s h
  | buildOutSlewDone e => exact execBuildOutSlewDone_calm e s h
  | asymModelRecompute e port => exact execAsymModelRecompute_calm e port s h
  | calAsymWindowEnd e => exact execCalAsymWindowEnd_calm e s h
  | refMeasure e ref frq phase => exact execRefMeasure_calm e ref frq phase s h
  | refLossOfSignal e ref => exact execRefLossOfSignal_calm e ref s h
  | refQualifyTimer e ref => exact execRefQualifyTimer_calm e ref s h
  | governorSample e => exact execGovernorSample_calm e s h
  | speedMonitorWindow e speeds => exact execSpeedMonitorWindow_calm e speeds s h
  | paceReplyTimeout => exact execPaceReplyTimeout_calm s h
  | faultMessageArrival e => exact execFaultMessageArrival_calm e s h
  | f2WindowEnd e source kind inj => exact execF2WindowEnd_calm e source kind inj s h
  | f3WindowEnd e inj => exact execF3WindowEnd_calm e inj s h
  | blockResetReady e reset => exact execBlockResetReady_calm e reset s h
  | blockResetOverdue e reset => exact execBlockResetOverdue_calm e reset s h
  | collectorCheck e => exact execCollectorCheck_calm e s h
  | ringWatchdog e => exact execRingWatchdog_calm e s h
  | fwWatchdog e => exact execFwWatchdog_calm e s h
  | bufferScrub e store wordNo outcome late => exact execBufferScrub_calm e store wordNo outcome late s h
  | tableScrub e table index corrected => exact execTableScrub_calm e table index corrected s h
  | calDue e kind idx => exact execCalDue_calm e kind idx s h
  | calProbe e kind idx ok value => exact execCalProbe_calm e kind idx ok value s h
  | calStarve e kind idx => exact execCalStarve_calm e kind idx s h
  | trimStep e => exact execTrimStep_calm e s h
  | dieTempRead e raw => exact execDieTempRead_calm e raw s h
  | repairPassEnd e => exact execRepairPassEnd_calm e s h
  | snapshotInstant e => exact execSnapshotInstant_calm e s h
  | snapshotWritten e => exact execSnapshotWritten_calm e s h
  | sampleRecordMove e => exact execSampleRecordMove_calm e s h
  | ringRecordDelivery e ring => exact execRingRecordDelivery_calm e ring s h
  | ringDoorbellWrite e ring idx descs => exact execRingDoorbellWrite_calm e ring idx descs s h
  | mboxCmdWrite e offset bytes => exact execMboxCmdWrite_calm e offset bytes s h
  | mboxDoorbellWrite e len => exact execMboxDoorbellWrite_calm e len s h
  | mboxReadyClear e => exact execMboxReadyClear_calm e s h
  | pcieLinkDown e => exact execPcieLinkDown_calm e s h
  | irqModerationExpiry e bit => exact execIrqModerationExpiry_calm e bit s h
  | spiWritePacket bytes complete => exact execSpiWritePacket_calm bytes complete s h
  | spiReadStatus => exact execSpiReadStatus_calm s h
  | spiReadReply whole => exact execSpiReadReply_calm whole s h
  | spiUnknownInstruction => exact execSpiUnknownInstruction_calm s h
  | timeNsecRead e latch => exact execTimeNsecRead_calm e latch s h
  | monitorRegRead e k => exact execMonitorRegRead_calm e k s h
  | ringStatRead e ring => exact execRingStatRead_calm e ring s h
  | channelStatRead e ch => exact execChannelStatRead_calm e ch s h
  | domainLossClear e mask => exact execDomainLossClear_calm e mask s h
  | paceDroppedClear e => exact execPaceDroppedClear_calm e s h
  | evtStatusClear e mask => exact execEvtStatusClear_calm e mask s h
  | portLinkChgClear e mask => exact execPortLinkChgClear_calm e mask s h
  | hostLinkChgClear e mask => exact execHostLinkChgClear_calm e mask s h
  | stormClear e port mask => exact execStormClear_calm e port mask s h
  | refHistClear e ref mask => exact execRefHistClear_calm e ref mask s h
  | firstValidClear e => exact execFirstValidClear_calm e s h
  | injValidClear e => exact execInjValidClear_calm e s h
  | irqStatusClear e mask => exact execIrqStatusClear_calm e mask s h
  | registerWriteIgnored e offset value => exact execRegisterWriteIgnored_calm e offset value s h
  | fwSessionTimeout u => exact execFwSessionTimeout_calm u s h
  | fwRestartExecute u => exact execFwRestartExecute_calm u s h
  | fuseBurnDone u => exact execFuseBurnDone_calm u s h
  | sysReadReg a ps => exact execSysReadReg_calm a ps s h
  | sysSetPace a ps => exact execSysSetPace_calm a ps s h
  | sysSetRing a ps => exact execSysSetRing_calm a ps s h
  | sysSetIrq a ps => exact execSysSetIrq_calm a ps s h
  | sysNop a ps => exact execSysNop_calm a ps s h
  | sysSetMgmt a ps => exact execSysSetMgmt_calm a ps s h
  | portSetMode a ps => exact execPortSetMode_calm a ps s h
  | portSetLinkTimers a ps => exact execPortSetLinkTimers_calm a ps s h
  | portSetTimeLevels a ps => exact execPortSetTimeLevels_calm a ps s h
  | portSetAhnudEtype a ps => exact execPortSetAhnudEtype_calm a ps s h
  | portSetCutThrough a ps => exact execPortSetCutThrough_calm a ps s h
  | parseSetPort a ps => exact execParseSetPort_calm a ps s h
  | parseWriteNode a ps => exact execParseWriteNode_calm a ps s h
  | parseReadNode a ps => exact execParseReadNode_calm a ps s h
  | parseCommit a ps => exact execParseCommit_calm a ps s h
  | parseLoadDefaults a ps => exact execParseLoadDefaults_calm a ps s h
  | ruleWriteEntry a ps => exact execRuleWriteEntry_calm a ps s h
  | ruleReadEntry a ps => exact execRuleReadEntry_calm a ps s h
  | ruleWriteProfile a ps => exact execRuleWriteProfile_calm a ps s h
  | ruleClearBank a ps => exact execRuleClearBank_calm a ps s h
  | ruleFlipBank a ps => exact execRuleFlipBank_calm a ps s h
  | ruleSetOrg a ps => exact execRuleSetOrg_calm a ps s h
  | ruleLoadDefaults a ps => exact execRuleLoadDefaults_calm a ps s h
  | ruleSetPort a ps => exact execRuleSetPort_calm a ps s h
  | ruleWriteRewrite a ps => exact execRuleWriteRewrite_calm a ps s h
  | ruleWriteMeter a ps => exact execRuleWriteMeter_calm a ps s h
  | ruleSetMirror a ps => exact execRuleSetMirror_calm a ps s h
  | fwdAdd a ps => exact execFwdAdd_calm a ps s h
  | fwdDelete a ps => exact execFwdDelete_calm a ps s h
  | fwdLookup a ps => exact execFwdLookup_calm a ps s h
  | fwdFlush a ps => exact execFwdFlush_calm a ps s h
  | fwdSetLearn a ps => exact execFwdSetLearn_calm a ps s h
  | fwdSetAgeing a ps => exact execFwdSetAgeing_calm a ps s h
  | fwdSetVlan a ps => exact execFwdSetVlan_calm a ps s h
  | fwdWriteMcast a ps => exact execFwdWriteMcast_calm a ps s h
  | fwdSetSpread a ps => exact execFwdSetSpread_calm a ps s h
  | fwdWriteIndirect a ps => exact execFwdWriteIndirect_calm a ps s h
  | fwdSetMcResidue a ps => exact execFwdSetMcResidue_calm a ps s h
  | queueSetClass a ps => exact execQueueSetClass_calm a ps s h
  | queueSetPortFc a ps => exact execQueueSetPortFc_calm a ps s h
  | queueSetMin a ps => exact execQueueSetMin_calm a ps s h
  | queueSetAge a ps => exact execQueueSetAge_calm a ps s h
  | queueSetBufferMode a ps => exact execQueueSetBufferMode_calm a ps s h
  | queueGetOccupancy a ps => exact execQueueGetOccupancy_calm a ps s h
  | schedSetClass a ps => exact execSchedSetClass_calm a ps s h
  | schedSetPortShaper a ps => exact execSchedSetPortShaper_calm a ps s h
  | schedWriteGcl a ps => exact execSchedWriteGcl_calm a ps s h
  | schedCommitGcl a ps => exact execSchedCommitGcl_calm a ps s h
  | schedSetPreempt a ps => exact execSchedSetPreempt_calm a ps s h
  | schedSetLaunch a ps => exact execSchedSetLaunch_calm a ps s h
  | schedSetRedundancy a ps => exact execSchedSetRedundancy_calm a ps s h
  | timeGet a ps => exact execTimeGet_calm a ps s h
  | timeSet a ps => exact execTimeSet_calm a ps s h
  | timeStep a ps => exact execTimeStep_calm a ps s h
  | timeSetBoardDelay a ps => exact execTimeSetBoardDelay_calm a ps s h
  | timeSetEvtin a ps => exact execTimeSetEvtin_calm a ps s h
  | timeReadEvents a ps => exact execTimeReadEvents_calm a ps s h
  | timeSchedEdge a ps => exact execTimeSchedEdge_calm a ps s h
  | timeSetDomain a ps => exact execTimeSetDomain_calm a ps s h
  | timeSetPtpPort a ps => exact execTimeSetPtpPort_calm a ps s h
  | timeSetTc a ps => exact execTimeSetTc_calm a ps s h
  | timeSetAsym a ps => exact execTimeSetAsym_calm a ps s h
  | timeCalAsym a ps => exact execTimeCalAsym_calm a ps s h
  | timeSwitchDomain a ps => exact execTimeSwitchDomain_calm a ps s h
  | timePutSample a ps => exact execTimePutSample_calm a ps s h
  | timeAlignOutputs a ps => exact execTimeAlignOutputs_calm a ps s h
  | refSetInput a ps => exact execRefSetInput_calm a ps s h
  | refSetSlot a ps => exact execRefSetSlot_calm a ps s h
  | refForce a ps => exact execRefForce_calm a ps s h
  | refGetStatus a ps => exact execRefGetStatus_calm a ps s h
  | refSetOsc a ps => exact execRefSetOsc_calm a ps s h
  | outSetSynth a ps => exact execOutSetSynth_calm a ps s h
  | outSetClkout a ps => exact execOutSetClkout_calm a ps s h
  | outSetPpsout a ps => exact execOutSetPpsout_calm a ps s h
  | twinGetState a ps => exact execTwinGetState_calm a ps s h
  | twinSwapRoles a ps => exact execTwinSwapRoles_calm a ps s h
  | twinSetSwap a ps => exact execTwinSetSwap_calm a ps s h
  | twinRejoin a ps => exact execTwinRejoin_calm a ps s h
  | twinFence a ps => exact execTwinFence_calm a ps s h
  | faultSetWindows a ps => exact execFaultSetWindows_calm a ps s h
  | faultSetEvents a ps => exact execFaultSetEvents_calm a ps s h
  | faultGetFirst a ps => exact execFaultGetFirst_calm a ps s h
  | faultActNow a ps => exact execFaultActNow_calm a ps s h
  | faultInject a ps => exact execFaultInject_calm a ps s h
  | faultInjectEcc a ps => exact execFaultInjectEcc_calm a ps s h
  | faultClearInj a ps => exact execFaultClearInj_calm a ps s h
  | faultRelease a ps => exact execFaultRelease_calm a ps s h
  | faultReadLog a ps => exact execFaultReadLog_calm a ps s h
  | calSet a ps => exact execCalSet_calm a ps s h
  | calGetStatus a ps => exact execCalGetStatus_calm a ps s h
  | calRun a ps => exact execCalRun_calm a ps s h
  | calRepair a ps => exact execCalRepair_calm a ps s h
  | statsRead a ps => exact execStatsRead_calm a ps s h
  | statsClear a ps => exact execStatsClear_calm a ps s h
  | statsSetChain a ps => exact execStatsSetChain_calm a ps s h
  | statsSetSnapshot a ps => exact execStatsSetSnapshot_calm a ps s h
  | statsSnapNow a ps => exact execStatsSnapNow_calm a ps s h
  | statsSetSampler a ps => exact execStatsSetSampler_calm a ps s h
  | fwGetInfo a ps => exact execFwGetInfo_calm a ps s h
  | fwWriteImage a ps => exact execFwWriteImage_calm a ps s h
  | fwVerifyImage a ps => exact execFwVerifyImage_calm a ps s h
  | fwSelectSlot a ps => exact execFwSelectSlot_calm a ps s h
  | fwRestart a ps => exact execFwRestart_calm a ps s h
  | hostLinkReturn e h1 => exact execHostLinkReturn_calm e h1 s h
  | blockLockChange e port cond met => exact execBlockLockChange_calm e port cond met s h
  | linkTrainingComplete e port supported pause => exact execLinkTrainingComplete_calm e port supported pause s h
  | preemptVerifyResponse e port => exact execPreemptVerifyResponse_calm e port s h
  | l1syncSend e port => exact execL1syncSend_calm e port s h
  | fofTimestampReceived port stamp => exact execFofTimestampReceived_calm port stamp s h

/-- A tick of the block on an empty queue. -/
theorem tick_calm {s0 : State} (s : State) (h : Calm s0 s) : Calm s0 (tick s) := settled_calm _ (pass_calm _ _ h)

end Sys2Proof.Machine
end

