-- ==== Sys2Proof/Laws/Flits.lean ====
section
/-! SUPPORT. The Crossing's limits (R178, R179): how many flits a frame makes, and that what enters the Crossing never takes more than
the reservations and the shared pool hold, so that no more than 512 flits are in flight. -/

namespace Sys2Proof.Machine

/-- A frame of `n` bytes makes one flit for every 64 bytes begun (R178). -/
@[simp] theorem flitsOf_length (i n : Nat) : (flitsOf i n).length = (n + 63) / 64 := by simp [flitsOf]

/-- What is in flight by a channel after a change of one. -/
theorem flight_modFlight (x : Engine) (c d : Nat) (f : List Flit → List Flit) :
    (x.modFlight c f).flight d = if c = d ∧ c < 10 then f (x.flight d) else x.flight d := by
  unfold Engine.flight Engine.modFlight vget vmodN
  by_cases hc : c < 10
  · by_cases hd : d < 10
    · by_cases h : c = d
      · subst h; simp [hc, vmod, vset]
      · simp [hc, hd, h, vmod, vset]
    · have h : c ≠ d := by omega
      simp [hc, hd, h]
  · simp [hc]

@[simp] theorem flight_modStaging (x : Engine) (c d : Nat) (f : List Flit → List Flit) : (x.modStaging c f).flight d = x.flight d := rfl
@[simp] theorem flight_modArrived (x : Engine) (c d : Nat) (f : List Flit → List Flit) : (x.modArrived c f).flight d = x.flight d := rfl
@[simp] theorem staging_modFlight (x : Engine) (c d : Nat) (f : List Flit → List Flit) : (x.modFlight c f).staging d = x.staging d := rfl
@[simp] theorem poolUse_modStaging (x : Engine) (c : Nat) (f : List Flit → List Flit) : (x.modStaging c f).poolUse = x.poolUse := rfl
@[simp] theorem poolUse_modArrived (x : Engine) (c : Nat) (f : List Flit → List Flit) : (x.modArrived c f).poolUse = x.poolUse := rfl

/-- The places of the shared pool in use after a change of one channel. -/
theorem poolUse_modFlight (x : Engine) (c : Nat) (f : List Flit → List Flit) (h : c < 10) :
    (x.modFlight c f).poolUse + ((x.flight c).length - flitReserve) = x.poolUse + ((f (x.flight c)).length - flitReserve) := by
  interval_cases c <;> simp [Engine.poolUse, List.range_succ, flight_modFlight] <;> omega

/-- A sum is at most what is beyond a reservation for each, and the reservations. -/
theorem sum_le_beyond (v : Nat → Nat) (l : List Nat) : (l.map v).sum ≤ (l.map fun c => v c - flitReserve).sum + flitReserve * l.length := by
  induction l with
  | nil => simp
  | cons c l ih => simp only [List.map_cons, List.sum_cons, List.length_cons, Nat.mul_succ]; omega

/-- With no more places of the pool in use than there are, at most 512 flits are in flight on the parts of ten channels (R179). -/
theorem inFlight_le (x : Engine) (part : Part) (h : underpassPart part = true) (h1 : x.poolUse ≤ flitPool part) : x.inFlight ≤ 512 := by
  have h2 := sum_le_beyond (fun ch => (x.flight ch).length) (List.range 10)
  simp only [Engine.poolUse, flitPool, h, if_true] at h1
  simp only [List.length_range] at h2
  unfold Engine.inFlight
  have h3 : flitReserve = 32 := rfl
  omega

/-- The same on the RHF3240-S, where nothing is in flight by the channels it does not have (R177, R179). -/
theorem inFlight_le_small (x : Engine) (part : Part) (h : underpassPart part = false) (h1 : x.poolUse ≤ flitPool part)
    (h2 : ∀ c, 4 ≤ c → c < 8 → x.flight c = []) : x.inFlight ≤ 512 := by
  simp [Engine.poolUse, Engine.inFlight, flitPool, h, flitReserve, List.range_succ, h2] at *
  omega

/-- Staged flits enter only where there is room. -/
theorem enterStaged_pool (part : Part) (ch : Nat) (x : Engine) (h : ch < 10) (h1 : x.poolUse ≤ flitPool part) :
    (enterStaged part ch x).poolUse ≤ flitPool part := by
  have h2 := poolUse_modFlight x ch (fun l => l ++ (x.staging ch).take (x.flitRoom part ch)) h
  simp only [List.length_append, List.length_take] at h2
  simp only [enterStaged, poolUse_modStaging]
  unfold Engine.flitRoom at *
  omega

theorem enterAll_pool (part : Part) (x : Engine) (h : x.poolUse ≤ flitPool part) : (enterAll part x).poolUse ≤ flitPool part := by
  have go : ∀ (l : List Nat) (y : Engine), (∀ c ∈ l, c < 10) → y.poolUse ≤ flitPool part →
      (l.foldl (fun y ch => enterStaged part ch y) y).poolUse ≤ flitPool part := by
    intro l
    induction l with
    | nil => intro y _ hy; exact hy
    | cons c l ih =>
      intro y hl hy
      exact ih _ (fun d hd => hl d (List.mem_cons_of_mem _ hd)) (enterStaged_pool part c y (hl c List.mem_cons_self) hy)
  exact go _ x (fun c hc => List.mem_range.mp hc) h

/-- A flit that leaves changes nothing in flight. -/
@[simp] theorem leaveFlit_poolUse (f : Flit) (x : Engine) : (leaveFlit f x).poolUse = x.poolUse := by
  have go : ∀ (l : List Nat) (y : Engine),
      (l.foldl (fun y ch => if x.leavesBy f.frame ch then y.modArrived ch fun l => l ++ [f] else y) y).poolUse = y.poolUse := by
    intro l
    induction l with
    | nil => intro y; rfl
    | cons c l ih => intro y; simp only [List.foldl_cons, ih]; split <;> simp
  unfold leaveFlit; exact go _ x

theorem completeFlit_pool (part : Part) (ch j : Nat) (x : Engine) (h : ch < 10) (h1 : x.poolUse ≤ flitPool part) :
    (completeFlit part ch j x).poolUse ≤ flitPool part := by
  unfold completeFlit
  split
  · exact h1
  · apply enterAll_pool
    rw [leaveFlit_poolUse]
    have h2 := poolUse_modFlight x ch (fun l => l.eraseIdx j) h
    have h3 := List.length_eraseIdx_le (x.flight ch) j
    omega

theorem completeFirst_pool (part : Part) (ch : Nat) (x : Engine) (h : ch < 10) (h1 : x.poolUse ≤ flitPool part) :
    (completeFirst part ch x).poolUse ≤ flitPool part := by
  unfold completeFirst
  split
  · exact h1
  · next f rest hf =>
    apply enterAll_pool
    apply enterStaged_pool _ _ _ h
    rw [leaveFlit_poolUse]
    have h2 := poolUse_modFlight x ch (fun _ => rest) h
    rw [hf] at h2
    simp only [List.length_cons] at h2
    omega

/-- Handshakes keep the pool's limit (R179). -/
theorem handshakes_pool (part : Part) (ks : List (Fin 10 × Nat)) (x : Engine) (h : x.poolUse ≤ flitPool part) :
    (handshakes part ks x).poolUse ≤ flitPool part := by
  unfold handshakes
  induction ks generalizing x with
  | nil => exact h
  | cons k ks ih =>
    refine ih _ ?_
    unfold handshake
    dsimp only
    split
    · exact completeFlit_pool part _ _ _ k.1.isLt (completeFlit_pool part _ _ x k.1.isLt h)
    · exact completeFlit_pool part _ _ x k.1.isLt h

theorem offerFlit_pool (part : Part) (ch : Nat) (f : Flit) (x y : Engine) (h : ch < 10) (h1 : x.poolUse ≤ flitPool part)
    (h2 : offerFlit part ch f x = some y) : y.poolUse ≤ flitPool part := by
  unfold offerFlit at h2
  split at h2
  · next h3 =>
    cases h2
    have h4 := poolUse_modFlight x ch (fun l => l ++ [f]) h
    simp only [List.length_append, List.length_cons, List.length_nil] at h4
    have h5 := of_decide_eq_true (Bool.and_eq_true _ _ ▸ h3).2
    unfold Engine.flitRoom at h5
    omega
  · split at h2
    · cases h2; exact h1
    · split at h2
      · cases h2
      · rw [Option.ite_none_right_eq_some] at h2
        simp only [Option.some.injEq] at h2
        obtain ⟨_, rfl⟩ := h2
        rw [poolUse_modStaging]
        exact completeFirst_pool part ch x h h1

/-- Nothing comes to stand in a channel's staging beyond its 128 flits (R179). -/
theorem offerFlit_staging (part : Part) (ch : Nat) (f : Flit) (x y : Engine) (h : ch < 10) (h1 : (x.staging ch).length ≤ stagingDepth)
    (h2 : offerFlit part ch f x = some y) : (y.staging ch).length ≤ stagingDepth := by
  have put (z : Engine) (hz : (z.staging ch).length < stagingDepth) :
      ((z.modStaging ch fun l => l ++ [f]).staging ch).length ≤ stagingDepth := by
    have e : (z.modStaging ch fun l => l ++ [f]).staging ch = z.staging ch ++ [f] := by
      unfold Engine.staging Engine.modStaging vget vmodN
      simp [h, vmod, vset]
    rw [e, List.length_append]
    exact hz
  unfold offerFlit at h2
  split at h2
  · cases h2; exact h1
  · split at h2
    · next hs => cases h2; exact put x hs
    · split at h2
      · cases h2
      · rw [Option.ite_none_right_eq_some] at h2
        simp only [Option.some.injEq] at h2
        obtain ⟨hs, rfl⟩ := h2
        exact put _ hs

/-- A frame sent into the Crossing keeps the pool's limit, and what finds no room waits in staging (R179). -/
theorem offerFlits_pool (part : Part) (ch : Nat) (fs : List Flit) (x : Engine) (h : ch < 10) (h1 : x.poolUse ≤ flitPool part) :
    (offerFlits part ch fs x).1.poolUse ≤ flitPool part := by
  induction fs generalizing x with
  | nil => exact h1
  | cons f fs ih =>
    unfold offerFlits
    split
    · next y hy => exact ih y (offerFlit_pool part ch f x y h h1 hy)
    · exact h1

end Sys2Proof.Machine
end

