-- ==== Sys2Proof/Laws/Memory.lean ====
section
/-! SUPPORT. Tables and the mailbox memory: a read after a write, and the canonical form that every write keeps. -/

namespace Sys2Proof.Machine

variable {α : Type}

/-- Every number of a table is above a bound. -/
def above (n : Nat) (t : List (Nat × α)) : Prop := ∀ p ∈ t, n < p.1

theorem rising_cons_iff (i : Nat) (x : α) (t : List (Nat × α)) : rising ((i, x) :: t) = true ↔ above i t ∧ rising t = true := by
  induction t generalizing i x with
  | nil => simp [rising, above]
  | cons q t ih =>
    obtain ⟨j, y⟩ := q
    simp only [rising, Bool.and_eq_true, decide_eq_true_eq]
    constructor
    · rintro ⟨hij, hr⟩
      refine ⟨?_, hr⟩
      rintro p (_ | ⟨_, hp⟩)
      · exact hij
      · exact Nat.lt_trans hij (((ih j y).mp hr).1 p hp)
    · rintro ⟨ha, hr⟩
      exact ⟨ha (j, y) (.head _), hr⟩

theorem mem_eraseAt {k : Nat} {t : List (Nat × α)} {p : Nat × α} (h : p ∈ eraseAt k t) : p ∈ t := by
  induction t with
  | nil => exact h
  | cons q t ih =>
    obtain ⟨j, y⟩ := q
    unfold eraseAt at h
    split at h
    · exact .tail _ (ih h)
    · rcases List.mem_cons.mp h with rfl | h
      · exact .head _
      · exact .tail _ (ih h)

theorem mem_insertAt {k : Nat} {x : α} {t : List (Nat × α)} {p : Nat × α} (h : p ∈ insertAt k x t) : p = (k, x) ∨ p ∈ t := by
  induction t with
  | nil => exact .inl (List.mem_singleton.mp h)
  | cons q t ih =>
    obtain ⟨j, y⟩ := q
    unfold insertAt at h
    split at h
    · exact List.mem_cons.mp h
    · split at h
      · exact (List.mem_cons.mp h).imp id (.tail _)
      · rcases List.mem_cons.mp h with rfl | h
        · exact .inr (.head _)
        · exact (ih h).imp id (.tail _)

theorem rising_eraseAt {k : Nat} {t : List (Nat × α)} (h : rising t = true) : rising (eraseAt k t) = true := by
  induction t with
  | nil => rfl
  | cons q t ih =>
    obtain ⟨j, y⟩ := q
    have h' := (rising_cons_iff j y t).mp h
    unfold eraseAt
    split
    · exact ih h'.2
    · exact (rising_cons_iff _ _ _).mpr ⟨fun p hp => h'.1 p (mem_eraseAt hp), ih h'.2⟩

theorem rising_insertAt {k : Nat} {x : α} {t : List (Nat × α)} (h : rising t = true) : rising (insertAt k x t) = true := by
  induction t with
  | nil => rfl
  | cons q t ih =>
    obtain ⟨j, y⟩ := q
    have h' := (rising_cons_iff j y t).mp h
    unfold insertAt
    split
    · refine (rising_cons_iff _ _ _).mpr ⟨?_, h⟩
      rintro p (_ | ⟨_, hp⟩)
      · assumption
      · exact Nat.lt_trans ‹_› (h'.1 p hp)
    · split
      · subst_vars
        exact (rising_cons_iff _ _ _).mpr h'
      · refine (rising_cons_iff _ _ _).mpr ⟨fun p hp => ?_, ih h'.2⟩
        rcases mem_insertAt hp with rfl | hp
        · show j < k
          omega
        · exact h'.1 p hp

theorem look_insertAt {d x : α} {k a : Nat} {t : List (Nat × α)} : look d a (insertAt k x t) = if a = k then x else look d a t := by
  induction t with
  | nil => simp only [insertAt, look]; split <;> split <;> first | rfl | omega
  | cons q t ih =>
    obtain ⟨j, y⟩ := q
    unfold insertAt
    repeat' split
    all_goals simp only [look, ih]
    all_goals repeat' split
    all_goals first | rfl | omega

theorem look_eraseAt {d : α} {k a : Nat} {t : List (Nat × α)} : look d a (eraseAt k t) = if a = k then d else look d a t := by
  induction t with
  | nil => simp [eraseAt, look]
  | cons q t ih =>
    obtain ⟨j, y⟩ := q
    unfold eraseAt
    split
    · subst_vars
      rw [ih]
      simp only [look]
      repeat' split
      all_goals first | rfl | omega
    · simp only [look, ih]
      repeat' split
      all_goals first | rfl | omega

variable [DecidableEq α]

/-- A table keeps its canonical form when an entry is set. -/
theorem canon_put {d : α} {k : Nat} {x : α} {t : List (Nat × α)} (h : canon d t = true) : canon d (put d k x t) = true := by
  simp only [canon, Bool.and_eq_true, List.all_eq_true] at h ⊢
  unfold put
  split
  · exact ⟨rising_eraseAt h.1, fun p hp => h.2 p (mem_eraseAt hp)⟩
  · refine ⟨rising_insertAt h.1, fun p hp => ?_⟩
    rcases mem_insertAt hp with rfl | hp
    · exact decide_eq_true ‹_›
    · exact h.2 p hp

/-- What an entry reads as after a set. -/
theorem look_put {d x : α} {k a : Nat} {t : List (Nat × α)} : look d a (put d k x t) = if a = k then x else look d a t := by
  unfold put
  split
  · subst_vars
    exact look_eraseAt
  · exact look_insertAt

/-- A byte written keeps the canonical form of the mailbox window. -/
theorem Memory.wf_write {m : List Host.Cell} {a : Nat} {b : Byte} (h : Memory.wf m = true) : Memory.wf (Memory.write m a b) = true :=
  canon_put h

/-- Writing many bytes keeps the canonical form. -/
theorem Memory.wf_writes {bs : List Byte} : ∀ {m : List Host.Cell} {a : Nat}, Memory.wf m = true → Memory.wf (Memory.writes m a bs) = true := by
  induction bs with
  | nil => exact fun h => h
  | cons b bs ih => exact fun h => ih (Memory.wf_write h)

/-- A byte read after a byte written. -/
theorem Memory.read_write {m : List Host.Cell} {a k : Nat} {b : Byte} :
    Memory.read (Memory.write m k b) a = if a = k then b else Memory.read m a := look_put

end Sys2Proof.Machine
end

