-- ==== Sys2Proof/WellFormed.lean ====
section
/-! DEFINITION. Well-formed commands: an operand that no wire, no register and no packet can present is ill formed. The
machine gives every term a meaning; what it says of an ill-formed one is no claim about the hardware. -/

namespace Sys2Proof

/-- A command packet arrives on a channel of the unit that takes it (Table 15.1, R414): SPI is the supervisor's, the others
an engine's; only a management frame has a source address or a VLAN tag (R439). -/
def Arrival.wf (a : Arrival) : Bool :=
  (match a.via, a.chan with
    | .sup, .spi => true
    | .sup, _ => false
    | .eng _, .spi => false
    | .eng _, _ => true)
  && (a.chan == .mgmt || (a.src == 0 && a.vlan.isNone))

/-- The most parameter words that a channel's largest packet holds (Table 15.1, R415): the packet is 20 bytes and the
parameter words, at most 1,024 bytes in the mailbox and 4,096 elsewhere. -/
def mostParams : Channel → Nat
  | .ring => 1019
  | .mailbox => 251
  | .mgmt => 1019
  | .spi => 1019

/-- Parameter words that fit a channel. -/
def packetFits (c : Channel) (ps : List Word) : Bool := decide (ps.length ≤ mostParams c)

/-- A descriptor comes with as many bytes as its buffer holds where the engine reads the ring (Table 15.7: the command ring
0 and the send rings 5 and 6), and with none where it writes. -/
def descFits (ring : Nat) (d : Desc) : Bool :=
  if ring = 0 ∨ ring = 5 ∨ ring = 6 then d.data.length == (d.w2 >>> 16).toNat else d.data.isEmpty

/-- The paths of a calibration kind (R382). -/
def calPaths (kind : Nat) : Nat := if kind ≤ 3 then 32 else if kind = 4 then 20 else if kind = 5 then 8 else 4

/-- The entries of a table that the table scrubber reads (R365), both banks counted. -/
def tableWords : TableId → Nat
  | .am => 16384
  | .profiles => 512
  | .parse => 64
  | .forwarding => 131072
  | .indirection => 16384
  | .rewrite => 1024
  | .meter => 2048
  | .mirror => 8
  | .multicast => 4096

/-- The words of a memory that the buffer scrubber reads: the Arcade's, the buffer DRAM's, and those of descriptors and queue
links (R212, R216). -/
def storeWords : Store → Nat
  | .arcade => 2097152
  | .dram => 134217728
  | .descriptors => 4294967296

/-- Numbers that rise strictly. -/
def ascending : List Nat → Bool
  | [] => true
  | [_] => true
  | i :: j :: rest => decide (i < j) && ascending (j :: rest)

/-- A well-formed command. -/
def Instr.wf : Instr → Bool
  | .supplyValid => true
  | .brownOut => true
  | .powerCycle => true
  | .holdupDraw => true
  | .holdupReturn => true
  | .resetNAssert => true
  | .resetNRelease => true
  | .pciePerst _ => true
  | .railFault _ => true
  | .steerFault => true
  | .powerDieOvertemp => true
  | .thermalShutdown => true
  | .supervisorBoot => true
  | .railSequenceDone => true
  | .engineLeaveReset _ => true
  | .engineBoot _ bad => ascending bad && bad.all fun n => decide (n < 2048)
  | .initialCalibrationDone _ => true
  | .engineReady _ => true
  | .engineBStartTimeout => true
  | .sidebandBeat _ _ _ => true
  | .fofaeneBeat _ _ => true
  | .heartbeatLoss _ => true
  | .giveUpWaitExpiry => true
  | .supervisorFault _ => true
  | .supervisorRecovery => true
  | .supervisorRestartTimeout => true
  | .fofLinkDown => true
  | .fofLinkUp => true
  | .steeringMoveDone => true
  | .outputAlignerHandover _ => true
  | .switchoverComplete => true
  | .occupancyReport => true
  | .runningCommit => true
  | .commitMarkerReceived => true
  | .commitAckReceived => true
  | .copyTimeout => true
  | .fullCopyEnd => true
  | .timeWordSync => true
  | .tbPhaseMeasurement _ _ => true
  | .digestWindowClose => true
  | .digestCompare => true
  | .fastScrubEnd _ _ => true
  | .swapPrepare => true
  | .swapAt => true
  | .swapSchedule => true
  | .swapRetry => true
  | .proxyMirror => true
  | .stepApply _ => true
  | .slewComplete _ => true
  | .lockWindowEnd _ _ _ _ => true
  | .syntLoss _ _ _ => true
  | .syntAnalogLock _ => true
  | .syntReturn _ _ => true
  | .syntRelockRetry _ => true
  | .phasePullbackDone _ => true
  | .d0Lost _ => true
  | .evtinEdge _ _ _ _ _ => true
  | .pulseInputEdge _ _ _ _ => true
  | .evtoutEdge _ _ => true
  | .outputSlewDone _ _ => true
  | .frameHeadReceived _ _ _ bytes _ => !bytes.isEmpty
  | .frameTailReceived _ _ _ => true
  | .macControlReceived _ _ _ _ _ _ => true
  | .ahnudFrameReceived _ _ bytes _ => decide (14 ≤ bytes.length)
  | .mgmtFrameReceived _ bytes _ => decide (14 ≤ bytes.length)
  | .roundaboutPass1 _ => true
  | .flipAt _ => true
  | .drainEnd _ => true
  | .hostSendFetch _ _ => true
  | .txOpportunity _ _ _ _ => true
  | .copyTransmitEnd _ _ => true
  | .drainFetchDone _ => true
  | .mcResidueRetry _ _ _ => true
  | .mcResidueAgeExpiry _ _ _ => true
  | .crossStall _ _ => true
  | .pfcRepeat _ _ => true
  | .pauseTimerExpiry _ _ _ => true
  | .pfcStorm _ _ _ => true
  | .ageCheck _ => true
  | .portDown _ _ _ => true
  | .portUpCondition _ _ => true
  | .portUp _ _ => true
  | .holdExpiry _ _ => true
  | .anResolved _ _ _ _ => true
  | .anFailure _ _ => true
  | .anRestart _ _ => true
  | .parallelDetectStep _ _ _ => true
  | .hostPortDown _ _ _ => true
  | .hostPortUp _ _ => true
  | .preemptVerifyTimer _ _ => true
  | .ahnudOfferTimer _ _ => true
  | .ahnudAnegWait _ _ => true
  | .ahnudKeepTimer _ _ => true
  | .ahnudPartnerTimeout _ _ => true
  | .gclEntryChange _ _ => true
  | .gclChangeTime _ _ => true
  | .tc2stepAge _ => true
  | .dupForget _ => true
  | .proxyAge _ => true
  | .fdbAgeSweep _ => true
  | .ptpSyncSend _ _ _ => true
  | .ptpDelayReqSend _ _ _ => true
  | .ptpNoSample _ _ => true
  | .anchorSample _ _ _ => true
  | .anchorReset _ _ => true
  | .servoUpdate _ => true
  | .buildOutSlewDone _ => true
  | .asymModelRecompute _ _ => true
  | .calAsymWindowEnd _ => true
  | .refMeasure _ _ _ _ => true
  | .refLossOfSignal _ _ => true
  | .refQualifyTimer _ _ => true
  | .governorSample _ => true
  | .speedMonitorWindow _ speeds => speeds.toList.all fun v => decide (v ≤ 4095)
  | .paceReplyTimeout => true
  | .faultMessageArrival _ => true
  | .f2WindowEnd _ _ _ _ => true
  | .f3WindowEnd _ _ => true
  | .blockResetReady _ _ => true
  | .blockResetOverdue _ _ => true
  | .collectorCheck _ => true
  | .ringWatchdog _ => true
  | .fwWatchdog _ => true
  | .bufferScrub _ store wordNo _ _ => decide (wordNo < storeWords store)
  | .tableScrub _ table index _ => decide (index < tableWords table)
  | .calDue _ kind idx => decide (idx < calPaths kind.val)
  | .calProbe _ kind idx _ _ => decide (idx < calPaths kind.val)
  | .calStarve _ kind idx => decide (idx < calPaths kind.val)
  | .trimStep _ => true
  | .dieTempRead _ _ => true
  | .repairPassEnd _ => true
  | .snapshotInstant _ => true
  | .snapshotWritten _ => true
  | .sampleRecordMove _ => true
  | .ringRecordDelivery _ _ => true
  | .ringDoorbellWrite _ ring _ descs => descs.all fun d => descFits ring.val d
  | .mboxCmdWrite _ offset bytes => !bytes.isEmpty && decide (offset + bytes.length ≤ 1024)
  | .mboxDoorbellWrite _ _ => true
  | .mboxReadyClear _ => true
  | .pcieLinkDown _ => true
  | .irqModerationExpiry _ _ => true
  | .spiWritePacket bytes complete => !complete || decide (20 ≤ bytes.length)
  | .spiReadStatus => true
  | .spiReadReply _ => true
  | .spiUnknownInstruction => true
  | .timeNsecRead _ _ => true
  | .monitorRegRead _ _ => true
  | .ringStatRead _ _ => true
  | .channelStatRead _ _ => true
  | .domainLossClear _ _ => true
  | .paceDroppedClear _ => true
  | .evtStatusClear _ _ => true
  | .portLinkChgClear _ _ => true
  | .hostLinkChgClear _ _ => true
  | .stormClear _ _ _ => true
  | .refHistClear _ _ _ => true
  | .firstValidClear _ => true
  | .injValidClear _ => true
  | .irqStatusClear _ _ => true
  | .registerWriteIgnored _ offset _ => offset % 4 == 0 && decide (offset < 65536)
  | .fwSessionTimeout _ => true
  | .fwRestartExecute _ => true
  | .fuseBurnDone _ => true
  | .sysReadReg a ps => a.wf && packetFits a.chan ps
  | .sysSetPace a ps => a.wf && packetFits a.chan ps
  | .sysSetRing a ps => a.wf && packetFits a.chan ps
  | .sysSetIrq a ps => a.wf && packetFits a.chan ps
  | .sysNop a ps => a.wf && packetFits a.chan ps
  | .sysSetMgmt a ps => a.wf && packetFits a.chan ps
  | .portSetMode a ps => a.wf && packetFits a.chan ps
  | .portSetLinkTimers a ps => a.wf && packetFits a.chan ps
  | .portSetTimeLevels a ps => a.wf && packetFits a.chan ps
  | .portSetAhnudEtype a ps => a.wf && packetFits a.chan ps
  | .portSetCutThrough a ps => a.wf && packetFits a.chan ps
  | .parseSetPort a ps => a.wf && packetFits a.chan ps
  | .parseWriteNode a ps => a.wf && packetFits a.chan ps
  | .parseReadNode a ps => a.wf && packetFits a.chan ps
  | .parseCommit a ps => a.wf && packetFits a.chan ps
  | .parseLoadDefaults a ps => a.wf && packetFits a.chan ps
  | .ruleWriteEntry a ps => a.wf && packetFits a.chan ps
  | .ruleReadEntry a ps => a.wf && packetFits a.chan ps
  | .ruleWriteProfile a ps => a.wf && packetFits a.chan ps
  | .ruleClearBank a ps => a.wf && packetFits a.chan ps
  | .ruleFlipBank a ps => a.wf && packetFits a.chan ps
  | .ruleSetOrg a ps => a.wf && packetFits a.chan ps
  | .ruleLoadDefaults a ps => a.wf && packetFits a.chan ps
  | .ruleSetPort a ps => a.wf && packetFits a.chan ps
  | .ruleWriteRewrite a ps => a.wf && packetFits a.chan ps
  | .ruleWriteMeter a ps => a.wf && packetFits a.chan ps
  | .ruleSetMirror a ps => a.wf && packetFits a.chan ps
  | .fwdAdd a ps => a.wf && packetFits a.chan ps
  | .fwdDelete a ps => a.wf && packetFits a.chan ps
  | .fwdLookup a ps => a.wf && packetFits a.chan ps
  | .fwdFlush a ps => a.wf && packetFits a.chan ps
  | .fwdSetLearn a ps => a.wf && packetFits a.chan ps
  | .fwdSetAgeing a ps => a.wf && packetFits a.chan ps
  | .fwdSetVlan a ps => a.wf && packetFits a.chan ps
  | .fwdWriteMcast a ps => a.wf && packetFits a.chan ps
  | .fwdSetSpread a ps => a.wf && packetFits a.chan ps
  | .fwdWriteIndirect a ps => a.wf && packetFits a.chan ps
  | .fwdSetMcResidue a ps => a.wf && packetFits a.chan ps
  | .queueSetClass a ps => a.wf && packetFits a.chan ps
  | .queueSetPortFc a ps => a.wf && packetFits a.chan ps
  | .queueSetMin a ps => a.wf && packetFits a.chan ps
  | .queueSetAge a ps => a.wf && packetFits a.chan ps
  | .queueSetBufferMode a ps => a.wf && packetFits a.chan ps
  | .queueGetOccupancy a ps => a.wf && packetFits a.chan ps
  | .schedSetClass a ps => a.wf && packetFits a.chan ps
  | .schedSetPortShaper a ps => a.wf && packetFits a.chan ps
  | .schedWriteGcl a ps => a.wf && packetFits a.chan ps
  | .schedCommitGcl a ps => a.wf && packetFits a.chan ps
  | .schedSetPreempt a ps => a.wf && packetFits a.chan ps
  | .schedSetLaunch a ps => a.wf && packetFits a.chan ps
  | .schedSetRedundancy a ps => a.wf && packetFits a.chan ps
  | .timeGet a ps => a.wf && packetFits a.chan ps
  | .timeSet a ps => a.wf && packetFits a.chan ps
  | .timeStep a ps => a.wf && packetFits a.chan ps
  | .timeSetBoardDelay a ps => a.wf && packetFits a.chan ps
  | .timeSetEvtin a ps => a.wf && packetFits a.chan ps
  | .timeReadEvents a ps => a.wf && packetFits a.chan ps
  | .timeSchedEdge a ps => a.wf && packetFits a.chan ps
  | .timeSetDomain a ps => a.wf && packetFits a.chan ps
  | .timeSetPtpPort a ps => a.wf && packetFits a.chan ps
  | .timeSetTc a ps => a.wf && packetFits a.chan ps
  | .timeSetAsym a ps => a.wf && packetFits a.chan ps
  | .timeCalAsym a ps => a.wf && packetFits a.chan ps
  | .timeSwitchDomain a ps => a.wf && packetFits a.chan ps
  | .timePutSample a ps => a.wf && packetFits a.chan ps
  | .timeAlignOutputs a ps => a.wf && packetFits a.chan ps
  | .refSetInput a ps => a.wf && packetFits a.chan ps
  | .refSetSlot a ps => a.wf && packetFits a.chan ps
  | .refForce a ps => a.wf && packetFits a.chan ps
  | .refGetStatus a ps => a.wf && packetFits a.chan ps
  | .refSetOsc a ps => a.wf && packetFits a.chan ps
  | .outSetSynth a ps => a.wf && packetFits a.chan ps
  | .outSetClkout a ps => a.wf && packetFits a.chan ps
  | .outSetPpsout a ps => a.wf && packetFits a.chan ps
  | .twinGetState a ps => a.wf && packetFits a.chan ps
  | .twinSwapRoles a ps => a.wf && packetFits a.chan ps
  | .twinSetSwap a ps => a.wf && packetFits a.chan ps
  | .twinRejoin a ps => a.wf && packetFits a.chan ps
  | .twinFence a ps => a.wf && packetFits a.chan ps
  | .faultSetWindows a ps => a.wf && packetFits a.chan ps
  | .faultSetEvents a ps => a.wf && packetFits a.chan ps
  | .faultGetFirst a ps => a.wf && packetFits a.chan ps
  | .faultActNow a ps => a.wf && packetFits a.chan ps
  | .faultInject a ps => a.wf && packetFits a.chan ps
  | .faultInjectEcc a ps => a.wf && packetFits a.chan ps
  | .faultClearInj a ps => a.wf && packetFits a.chan ps
  | .faultRelease a ps => a.wf && packetFits a.chan ps
  | .faultReadLog a ps => a.wf && packetFits a.chan ps
  | .calSet a ps => a.wf && packetFits a.chan ps
  | .calGetStatus a ps => a.wf && packetFits a.chan ps
  | .calRun a ps => a.wf && packetFits a.chan ps
  | .calRepair a ps => a.wf && packetFits a.chan ps
  | .statsRead a ps => a.wf && packetFits a.chan ps
  | .statsClear a ps => a.wf && packetFits a.chan ps
  | .statsSetChain a ps => a.wf && packetFits a.chan ps
  | .statsSetSnapshot a ps => a.wf && packetFits a.chan ps
  | .statsSnapNow a ps => a.wf && packetFits a.chan ps
  | .statsSetSampler a ps => a.wf && packetFits a.chan ps
  | .fwGetInfo a ps => a.wf && packetFits a.chan ps
  | .fwWriteImage a ps => a.wf && packetFits a.chan ps
  | .fwVerifyImage a ps => a.wf && packetFits a.chan ps
  | .fwSelectSlot a ps => a.wf && packetFits a.chan ps
  | .fwRestart a ps => a.wf && packetFits a.chan ps
  | .hostLinkReturn _ _ => true
  | .blockLockChange _ _ _ _ => true
  | .linkTrainingComplete _ _ _ _ => true
  | .preemptVerifyResponse _ _ => true
  | .l1syncSend _ _ => true
  | .fofTimestampReceived _ _ => true

end Sys2Proof
end

