-- ==== Sys2Proof/Tests/Slice0.lean ====
section
/-! SUPPORT. Tests: ill-formed commands that well-formedness refuses, a state that meets the hypotheses of each clause of each
statement, and values of the manual's own examples. -/

namespace Sys2Proof.Tests

open Sys2Proof Sys2Proof.Machine

/-! ## Small states -/

/-- An engine that is ready in a role. -/
def engOn (e : EngId) (role : Nat) : Engine :=
  let x := engineReset e
  { x with core := { x.core with phase := .ready, role := role, supOk := true, fofUp := true, mayStart := true },
           clk := { x.clk with lock := 1 }, twin := { x.twin with copy := 2, sync := 2 } }

def powerOn : PowerState := { powerReset with supplyValid := true, railsUp := true, railsGood := true, startStep := 5, cycled := false }

def viewOn : EngView := { viewReset with ready := true, beat := .alive, fofBeat := .alive, eligible := true }

/-- Both engines in operation, A active and B standby with its copy current. -/
def pair : State :=
  { State.reset with power := powerOn, engA := engOn .a 1, engB := engOn .b 2, fof := { fofReset with up := true },
                     sup := { supReset with running := true, viewA := viewOn, viewB := viewOn } }

/-- A part with one engine, in operation. -/
def single : State := { pair with part := .rhf3280S, engB := engineReset .b, fof := fofReset }

/-- A packet on SPI for a target. -/
def toUnit (t : BitVec 2) : Arrival :=
  { via := .sup, chan := .spi, tag := 7, fence := false, target := t, crc := 0, src := 0, vlan := none }

def toA : Arrival := toUnit 1

def toB : Arrival := toUnit 2

def toSup : Arrival := toUnit 3

def ctx (u : UnitId) (a : Arrival) : Ctx := { unit := u, arrival := a, mirror := false }

def onA (f : Engine → Engine) (s : State) : State := { s with engA := f s.engA }

def onSup (f : SupState → SupState) (s : State) : State := { s with sup := f s.sup }

def slotOn : Slot := { slotReset 0 with enable := true, hostRun := true }

def timed : State := onA (fun x => { x with net := { x.net with slots := Vector.replicate 2 slotOn } }) pair

def locked : State :=
  onA (fun x => ((x.modSlot 0 fun q => { q with enable := true, servo := 3 }).modPtp 0 0 fun q => { q with state := 3 }).modPort 0
    fun q => { q with ahnud := { q.ahnud with level := 3 } }) pair

def clocked : State := onA (fun x => { x with refs := { x.refs with syns := x.refs.syns.map fun k => { k with fHz := 100000000 } } }) pair

def fault2 : FaultMsg :=
  { source := 8, kind := 2, cls := 2, inj := false, conseq := false, injMixed := false, part := false, address := 0, seq := 1, act := true,
    tag := 0 }

def fault3 : FaultMsg := { fault2 with kind := 1, cls := 3 }

def windowed : State := onA (fun x => { x with fault := { x.fault with windows := [{ msg := fault2 }, { msg := fault3 }] } }) pair

def fencedPair : State := onSup (fun p => { p with viewB := { p.viewB with fenced := true } }) pair

def deadB : State := { pair with engB := { pair.engB with core := { pair.engB.core with role := 4 } } }

/-- Engine A at a step of its start. -/
def starting (p : EngPhase) : State := onA (fun x => { x with core := { x.core with phase := p, role := 0 } }) pair

/-- A port of engine A changed. -/
def portA (p : Nat) (f : PortState → PortState) : State := onA (fun x => x.modPort p f) pair

/-! ## Ill-formed commands are refused -/

theorem test_wf_supervisor_has_spi_alone : Instr.wf (.sysNop { toA with chan := .ring } []) = false := by decide
theorem test_wf_spi_is_the_supervisors : Instr.wf (.sysNop { toA with via := .eng .a } []) = false := by decide
theorem test_wf_source_on_management_frames_alone : Instr.wf (.sysNop { toA with src := 1 } []) = false := by decide
theorem test_wf_vlan_on_management_frames_alone : Instr.wf (.sysNop { toA with vlan := some 0 } []) = false := by decide
theorem test_wf_mailbox_packet_fits :
    Instr.wf (.sysNop { toA with via := .eng .a, chan := .mailbox } (List.replicate 252 0)) = false
    ∧ Instr.wf (.sysNop { toA with via := .eng .a, chan := .mailbox } (List.replicate 251 0)) = true := by decide +kernel
theorem test_wf_bad_records_ascend : Instr.wf (.engineBoot .a [2, 1]) = false := by decide
theorem test_wf_bad_records_in_range : Instr.wf (.engineBoot .a [2048]) = false := by decide
theorem test_wf_frame_has_bytes : Instr.wf (.frameHeadReceived .a 0 0 [] []) = false := by decide
theorem test_wf_ahnud_frame_has_a_header : Instr.wf (.ahnudFrameReceived .a 0 [0] 0) = false := by decide
theorem test_wf_mgmt_frame_has_a_header : Instr.wf (.mgmtFrameReceived .a [0] 0) = false := by decide
theorem test_wf_monitor_speed : Instr.wf (.speedMonitorWindow .a (Vector.replicate 12 4096)) = false := by decide
theorem test_wf_scrubbed_word : Instr.wf (.bufferScrub .a .arcade 2097152 .clean false) = false := by decide
theorem test_wf_scrubbed_table_word : Instr.wf (.tableScrub .a .mirror 8 true) = false := by decide
theorem test_wf_calibration_path : Instr.wf (.calDue .a 4 20) = false ∧ Instr.wf (.calProbe .a 5 8 true 0) = false
    ∧ Instr.wf (.calStarve .a 6 4) = false := by decide
theorem test_wf_descriptor_brings_its_bytes :
    Instr.wf (.ringDoorbellWrite .a 0 1 [{ w0 := 0, w1 := 0, w2 := 0x00040000, w3 := 0, data := [], pcieOk := true }]) = false
    ∧ Instr.wf (.ringDoorbellWrite .a 1 1 [{ w0 := 0, w1 := 0, w2 := 0x00040000, w3 := 0, data := [0], pcieOk := true }]) = false := by decide
theorem test_wf_mailbox_window : Instr.wf (.mboxCmdWrite .a 1024 [0]) = false ∧ Instr.wf (.mboxCmdWrite .a 0 []) = false := by decide
theorem test_wf_spi_packet : Instr.wf (.spiWritePacket [0] true) = false := by decide
theorem test_wf_register_offset : Instr.wf (.registerWriteIgnored .a 2 0) = false ∧ Instr.wf (.registerWriteIgnored .a 65536 0) = false := by decide

/-! ## Witnesses: host commands -/

theorem witness_takenA : Taken toA pair (.eng .a) true :=
  ⟨by decide, by decide, by decide, by decide, by decide, by decide⟩
theorem witness_takenSup : Taken toSup pair .sup false :=
  ⟨by decide, by decide, by decide, by decide, by decide, by decide⟩
theorem witness_takenB : Taken toB pair (.eng .b) true :=
  ⟨by decide, by decide, by decide, by decide, by decide, by decide⟩
theorem witness_takenTimed : Taken toA timed (.eng .a) true :=
  ⟨by decide, by decide, by decide, by decide, by decide, by decide⟩
theorem witness_takenLocked : Taken toA locked (.eng .a) true :=
  ⟨by decide, by decide, by decide, by decide, by decide, by decide⟩
theorem witness_takenClocked : Taken toA clocked (.eng .a) true :=
  ⟨by decide, by decide, by decide, by decide, by decide, by decide⟩
theorem witness_takenWindowed : Taken toA windowed (.eng .a) true :=
  ⟨by decide, by decide, by decide, by decide, by decide, by decide⟩
theorem witness_takenFenced : Taken toSup fencedPair .sup false :=
  ⟨by decide, by decide, by decide, by decide, by decide, by decide⟩
theorem witness_takenDeadB : Taken toSup deadB .sup false :=
  ⟨by decide, by decide, by decide, by decide, by decide, by decide⟩

theorem witness_SysCommandsTakeEffect :
    check sysReadRegSpec (ctx (.eng .a) toA) ([0]) (begun toA pair) = none
    ∧ check sysSetPaceSpec (ctx (.eng .a) toA) ([0]) (begun toA pair) = none
    ∧ check sysSetRingSpec (ctx (.eng .a) toA) ([0, 0, 0]) (begun toA pair) = none
    ∧ check sysSetIrqSpec (ctx (.eng .a) toA) ([0, 0, 0]) (begun toA pair) = none
    ∧ check sysNopSpec (ctx (.eng .a) toA) ([]) (begun toA pair) = none
    ∧ check sysSetMgmtSpec (ctx (.eng .a) toA) ([0, 0, 0]) (begun toA pair) = none := by
  decide +kernel
theorem witness_PortCommandsTakeEffect :
    check portSetModeSpec (ctx (.eng .a) toA) ([0, 0, 0, 0]) (begun toA pair) = none
    ∧ check portSetLinkTimersSpec (ctx (.eng .a) toA) ([0, 0, 0]) (begun toA pair) = none
    ∧ check portSetTimeLevelsSpec (ctx (.eng .a) toA) ([0, 0]) (begun toA pair) = none
    ∧ check portSetAhnudEtypeSpec (ctx (.eng .a) toA) ([0x8999]) (begun toA pair) = none
    ∧ check portSetCutThroughSpec (ctx (.eng .a) toA) ([0]) (begun toA pair) = none := by
  decide +kernel
theorem witness_ParseCommandsTakeEffect :
    check parseSetPortSpec (ctx (.eng .a) toA) ([0, 0x01000000, 0]) (begun toA pair) = none
    ∧ check parseWriteNodeSpec (ctx (.eng .a) toA) (List.replicate 16 0) (begun toA pair) = none
    ∧ check parseReadNodeSpec (ctx (.eng .a) toA) ([0]) (begun toA pair) = none
    ∧ check parseCommitSpec (ctx (.eng .a) toA) ([]) (begun toA pair) = none
    ∧ check parseLoadDefaultsSpec (ctx (.eng .a) toA) ([]) (begun toA pair) = none := by
  decide +kernel
theorem witness_RuleCommandsTakeEffect_1 :
    check ruleWriteEntrySpec (ctx (.eng .a) toA) (List.replicate 25 0) (begun toA pair) = none
    ∧ check ruleReadEntrySpec (ctx (.eng .a) toA) ([0]) (begun toA pair) = none
    ∧ check ruleWriteProfileSpec (ctx (.eng .a) toA) (List.replicate 19 0) (begun toA pair) = none
    ∧ check ruleClearBankSpec (ctx (.eng .a) toA) ([0x80000000]) (begun toA pair) = none
    ∧ check ruleFlipBankSpec (ctx (.eng .a) toA) ([]) (begun toA pair) = none
    ∧ check ruleSetOrgSpec (ctx (.eng .a) toA) ([0]) (begun toA pair) = none
    ∧ check ruleLoadDefaultsSpec (ctx (.eng .a) toA) ([]) (begun toA pair) = none
    ∧ check ruleSetPortSpec (ctx (.eng .a) toA) ([0, 0, 0x00010000]) (begun toA pair) = none := by
  decide +kernel
theorem witness_RuleCommandsTakeEffect_2 :
    check ruleWriteRewriteSpec (ctx (.eng .a) toA) ([0, 0, 0, 0, 0]) (begun toA pair) = none
    ∧ check ruleWriteMeterSpec (ctx (.eng .a) toA) ([0, 0, 0, 0, 0]) (begun toA pair) = none
    ∧ check ruleSetMirrorSpec (ctx (.eng .a) toA) ([0]) (begun toA pair) = none := by
  decide +kernel
theorem witness_FwdCommandsTakeEffect_1 :
    check fwdAddSpec (ctx (.eng .a) toA) ([0x00010000, 0, 0]) (begun toA pair) = none
    ∧ check fwdDeleteSpec (ctx (.eng .a) toA) ([0x00010000, 0]) (begun toA pair) = none
    ∧ check fwdLookupSpec (ctx (.eng .a) toA) ([0x00010000, 0]) (begun toA pair) = none
    ∧ check fwdFlushSpec (ctx (.eng .a) toA) ([0]) (begun toA pair) = none
    ∧ check fwdSetLearnSpec (ctx (.eng .a) toA) ([0, 0]) (begun toA pair) = none
    ∧ check fwdSetAgeingSpec (ctx (.eng .a) toA) ([0]) (begun toA pair) = none
    ∧ check fwdSetVlanSpec (ctx (.eng .a) toA) ([0x00010000]) (begun toA pair) = none
    ∧ check fwdWriteMcastSpec (ctx (.eng .a) toA) ([0, 0, 0]) (begun toA pair) = none := by
  decide +kernel
theorem witness_FwdCommandsTakeEffect_2 :
    check fwdSetSpreadSpec (ctx (.eng .a) toA) ([0, 0]) (begun toA pair) = none
    ∧ check fwdWriteIndirectSpec (ctx (.eng .a) toA) ([0]) (begun toA pair) = none
    ∧ check fwdSetMcResidueSpec (ctx (.eng .a) toA) ([0]) (begun toA pair) = none := by
  decide +kernel
theorem witness_QueueCommandsTakeEffect :
    check queueSetClassSpec (ctx (.eng .a) toA) ([0]) (begun toA pair) = none
    ∧ check queueSetPortFcSpec (ctx (.eng .a) toA) ([0, 0, 1, 0x24000040, 0]) (begun toA pair) = none
    ∧ check queueSetMinSpec (ctx (.eng .a) toA) ([0, 0, 0, 0, 0]) (begun toA pair) = none
    ∧ check queueSetAgeSpec (ctx (.eng .a) toA) ([0, 0]) (begun toA pair) = none
    ∧ check queueSetBufferModeSpec (ctx (.eng .a) toA) ([0, 4096, 0]) (begun toA pair) = none
    ∧ check queueGetOccupancySpec (ctx (.eng .a) toA) ([0]) (begun toA pair) = none := by
  decide +kernel
theorem witness_SchedCommandsTakeEffect :
    check schedSetClassSpec (ctx (.eng .a) toA) ([0, 0x80000000, 0, 0]) (begun toA pair) = none
    ∧ check schedSetPortShaperSpec (ctx (.eng .a) toA) ([0, 0, 0]) (begun toA pair) = none
    ∧ check schedWriteGclSpec (ctx (.eng .a) toA) ([0, 0]) (begun toA pair) = none
    ∧ check schedCommitGclSpec (ctx (.eng .a) toA) ([0, 0, 0, 0, 0, 1000000, 0]) (begun toA pair) = none
    ∧ check schedSetPreemptSpec (ctx (.eng .a) toA) ([0, 1]) (begun toA pair) = none
    ∧ check schedSetLaunchSpec (ctx (.eng .a) toA) ([0, 0, 0, 0]) (begun toA pair) = none
    ∧ check schedSetRedundancySpec (ctx (.eng .a) toA) ([0, 0, 0]) (begun toA pair) = none := by
  decide +kernel
theorem witness_DeviceTimeCommandsTakeEffect :
    check timeGetSpec (ctx (.eng .a) toA) ([]) (begun toA pair) = none
    ∧ check timeSetSpec (ctx (.eng .a) toA) ([0, 0, 0, 0, 0, 0, 1000000, 0, 1000]) (begun toA pair) = none
    ∧ check timeStepSpec (ctx (.eng .a) toA) ([0, 0, 1000, 0, 0, 1000000, 0]) (begun toA pair) = none
    ∧ check timeSetBoardDelaySpec (ctx (.eng .a) toA) ([0, 0, 0]) (begun toA pair) = none
    ∧ check timeSetEvtinSpec (ctx (.eng .a) toA) ([0, 0]) (begun toA pair) = none
    ∧ check timeReadEventsSpec (ctx (.eng .a) toA) ([0]) (begun toA pair) = none
    ∧ check timeSchedEdgeSpec (ctx (.eng .a) toA) ([0x100, 0, 0, 0, 1000000, 0]) (begun toA pair) = none := by
  decide +kernel
theorem witness_NetworkTimeCommandsTakeEffect :
    check timeSetDomainSpec (ctx (.eng .a) toA) (List.replicate 6 0) (begun toA pair) = none
    ∧ check timeSetPtpPortSpec (ctx (.eng .a) toA) ([0, 1]) (begun toA timed) = none
    ∧ check timeSetTcSpec (ctx (.eng .a) toA) ([0]) (begun toA pair) = none
    ∧ check timeSetAsymSpec (ctx (.eng .a) toA) ([0, 0, 0x00013A98, 1500000, 0, 0]) (begun toA pair) = none
    ∧ check timeCalAsymSpec (ctx (.eng .a) toA) ([0, 10, 0]) (begun toA locked) = none
    ∧ check timeSwitchDomainSpec (ctx (.eng .a) toA) ([0, 0]) (begun toA timed) = none
    ∧ check timePutSampleSpec (ctx (.eng .a) toA) ([0, 0, 0, 0, 0, 0, 0]) (begun toA timed) = none
    ∧ check timeAlignOutputsSpec (ctx (.eng .a) toA) ([0, 0]) (begun toA pair) = none := by
  decide +kernel
theorem witness_RefOutCommandsTakeEffect :
    check refSetInputSpec (ctx (.eng .a) toA) ([0, 0, 1, 1, 0x00010001, 0, 0, 0]) (begun toA pair) = none
    ∧ check refSetSlotSpec (ctx (.eng .a) toA) ([0, 1000, 0x00010000, 0x000A0000]) (begun toA pair) = none
    ∧ check refForceSpec (ctx (.eng .a) toA) ([0]) (begun toA pair) = none
    ∧ check refGetStatusSpec (ctx (.eng .a) toA) ([0]) (begun toA pair) = none
    ∧ check refSetOscSpec (ctx (.eng .a) toA) ([0]) (begun toA pair) = none
    ∧ check outSetSynthSpec (ctx (.eng .a) toA) ([0, 10000000, 0]) (begun toA pair) = none
    ∧ check outSetClkoutSpec (ctx (.eng .a) toA) ([0, 1, 0]) (begun toA clocked) = none
    ∧ check outSetPpsoutSpec (ctx (.eng .a) toA) ([0, 1, 8, 0]) (begun toA pair) = none := by
  decide +kernel
theorem witness_TwinCommandsTakeEffect :
    check twinGetStateSpec (ctx (.eng .a) toA) ([]) (begun toA pair) = none
    ∧ check twinSwapRolesSpec (ctx .sup toSup) ([0x800003E8, 0, 0, 0, 0]) (begun toSup pair) = none
    ∧ check twinSetSwapSpec (ctx .sup toSup) ([0, 0]) (begun toSup pair) = none
    ∧ check twinRejoinSpec (ctx .sup toSup) ([2]) (begun toSup fencedPair) = none
    ∧ check twinFenceSpec (ctx .sup toSup) ([2]) (begun toSup pair) = none := by
  decide +kernel
theorem witness_FaultCommandsTakeEffect_1 :
    check faultSetWindowsSpec (ctx (.eng .a) toA) ([0, 0]) (begun toA pair) = none
    ∧ check faultSetEventsSpec (ctx (.eng .a) toA) ([0]) (begun toA pair) = none
    ∧ check faultGetFirstSpec (ctx (.eng .a) toA) ([0]) (begun toA pair) = none
    ∧ check faultActNowSpec (ctx (.eng .a) toA) ([0x0802]) (begun toA windowed) = none
    ∧ check faultInjectSpec (ctx (.eng .a) toA) ([0x0802, 2, 0]) (begun toA pair) = none
    ∧ check faultInjectEccSpec (ctx (.eng .a) toA) ([1, 0, 0, 0, 1]) (begun toA pair) = none
    ∧ check faultClearInjSpec (ctx (.eng .a) toA) ([0]) (begun toA pair) = none
    ∧ check faultReleaseSpec (ctx .sup toSup) ([2]) (begun toSup deadB) = none := by
  decide +kernel
theorem witness_FaultCommandsTakeEffect_2 :
    check faultReadLogSpec (ctx .sup toSup) ([0]) (begun toSup pair) = none := by
  decide +kernel
theorem witness_CalCommandsTakeEffect :
    check calSetSpec (ctx (.eng .a) toA) ([1]) (begun toA pair) = none
    ∧ check calGetStatusSpec (ctx (.eng .a) toA) ([0]) (begun toA pair) = none
    ∧ check calRunSpec (ctx (.eng .a) toA) ([0x400]) (begun toA pair) = none
    ∧ check calRepairSpec (ctx (.eng .a) toA) ([0]) (begun toA pair) = none := by
  decide +kernel
theorem witness_StatsCommandsTakeEffect :
    check statsReadSpec (ctx (.eng .a) toA) ([0]) (begun toA pair) = none
    ∧ check statsClearSpec (ctx (.eng .a) toA) ([0]) (begun toA pair) = none
    ∧ check statsSetChainSpec (ctx (.eng .a) toA) ([0]) (begun toA pair) = none
    ∧ check statsSetSnapshotSpec (ctx (.eng .a) toA) ([0]) (begun toA pair) = none
    ∧ check statsSnapNowSpec (ctx (.eng .a) toA) ([]) (begun toA pair) = none
    ∧ check statsSetSamplerSpec (ctx (.eng .a) toA) ([0, 0, 0, 0, 0]) (begun toA pair) = none := by
  decide +kernel
theorem witness_FwCommandsTakeEffect :
    check fwGetInfoSpec (ctx (.eng .a) toA) ([]) (begun toA pair) = none
    ∧ check fwWriteImageSpec (ctx (.eng .a) toA) ([1, 0, 0]) (begun toA pair) = none
    ∧ check fwVerifyImageSpec (ctx (.eng .a) toA) ([0]) (begun toA pair) = none
    ∧ check fwSelectSlotSpec (ctx (.eng .a) toA) ([0]) (begun toA pair) = none
    ∧ check fwRestartSpec (ctx .sup toSup) ([0]) (begun toSup pair) = none := by
  decide +kernel

/-! ## Witnesses: the machine as a whole -/

theorem witness_StepRunsFrontCommand : ({ pair with pending := [.steerFault, .d0Lost .a] } : State).pending = [.steerFault, .d0Lost .a] := rfl

theorem witness_IdleStepIsOneTick : pair.pending = [] := rfl

theorem witness_SupplyMovesOnlyByItsEvents : Instr.powerCycle ≠ .supplyValid ∧ Instr.powerCycle ≠ .brownOut ∧
    Instr.powerCycle ≠ .thermalShutdown ∧ Instr.powerCycle ≠ .supervisorBoot ∧ Instr.powerCycle ≠ .railSequenceDone ∧
    ∃ t, exec .powerCycle pair = .next t := ⟨nofun, nofun, nofun, nofun, nofun, _, rfl⟩

theorem witness_SupplyLossAndHoldup :
    pair.power.supplyValid = true ∧ State.reset.power.supplyValid = false ∧ pair.sup.fw.burn = none
    ∧ (onSup (fun p => { p with fw := { p.fw with burn := some (3, 1) } }) pair).sup.fw.burn = some (3, 1) := by decide

theorem witness_Legal : Legal pair ∧ Legal single :=
  ⟨⟨by decide, by decide, by decide, by decide, by decide, by decide, by decide, by decide⟩,
   ⟨by decide, by decide, by decide, by decide, by decide, by decide, by decide, by decide⟩⟩

theorem witness_EveryStepKeepsTheStateLegal :
    step { pair with pending := [.powerCycle] } = .next { pair with power := { pair.power with cycled := true } } := rfl

theorem witness_EveryCommandCompletes :
    exec .fofLinkUp single = .refused .noSuchUnit ∧ exec .powerCycle pair = .next { pair with power := { pair.power with cycled := true } } :=
  ⟨rfl, rfl⟩

theorem witness_RefusedCommandsChangeNothing :
    commandOf (.timeGet toA [0]) = some (timeGetSpec, toA, [0])
    ∧ check timeGetSpec (ctx (.eng .a) toA) [0] (begun toA pair) = some (.length, [])
    ∧ route toB (begun toB single) = .fail .absent ∧ channelOpen toB single = true ∧ (tagsOf toB single).contains toB.tag = false
    ∧ (tagsOf toB single).length < 64 ∧ toB.fence = false ∧ channelOpen toA State.reset = false := by
  refine ⟨rfl, ?_⟩
  decide

theorem witness_unheard : (replayOf toB single).find? (fun q => q.reply.tag = toB.tag && q.crc = toB.crc) = none := by decide

theorem witness_SupervisorExecutesItsCommands :
    Formed timeGetSpec (ctx .sup toSup) [] (begun toSup pair) ∧ (begun toSup pair).sup.bootRom = false
    ∧ commandOf (.timeGet toSup []) = some (timeGetSpec, toSup, []) ∧ timeGetSpec.opcode = 0x0801
    ∧ commandOf (.twinFence toSup [2]) = some (twinFenceSpec, toSup, [2]) ∧ twinFenceSpec.opcode = 0x0B05
    ∧ Formed twinFenceSpec (ctx .sup toSup) [2] (begun toSup pair)
    ∧ commandOf (.faultRelease toA [2]) = some (faultReleaseSpec, toA, [2]) ∧ faultReleaseSpec.opcode = 0x0C08
    ∧ Formed faultReleaseSpec (ctx (.eng .a) toA) [2] (begun toA pair) :=
  ⟨⟨by decide, by decide, by decide⟩, by decide, rfl, rfl, rfl, rfl, ⟨by decide, by decide, by decide⟩, rfl, rfl,
   ⟨by decide, by decide, by decide⟩⟩

theorem witness_StandbyExecutesItsCommands :
    ((begun toB pair).eng .b).core.role = 2 ∧ Formed timeGetSpec (ctx (.eng .b) toB) [] (begun toB pair)
    ∧ Formed parseCommitSpec (ctx (.eng .b) toB) [] (begun toB pair) ∧ parseCommitSpec.opcode = 0x0304
    ∧ commandOf (.timeGet toB []) = some (timeGetSpec, toB, []) ∧ commandOf (.parseCommit toB []) = some (parseCommitSpec, toB, []) :=
  ⟨by decide, ⟨by decide, by decide, by decide⟩, ⟨by decide, by decide, by decide⟩, rfl, rfl, rfl⟩

/-- Engine A has given up and the switchover to B has begun. -/
def leaving : State :=
  { pair with engA := engOn .a 5, sup := { pair.sup with switch := some { cause := 1, src := .a, dst := .b, step := 2, lost := 0, stale := false } } }

theorem witness_TargetsResolve :
    pathUp .sup .sup pair = true ∧ pathUp .sup (.eng .a) pair = true ∧ pathUp .sup (.eng .b) pair = true ∧ twinPart single.part = false
    ∧ pathUp .sup (.eng .a) single = true ∧ pair.active = some .a ∧ leaving.active = none ∧ switching leaving = true
    ∧ pathUp (.eng .a) .sup (onA (fun x => { x with core := { x.core with supOk := false } }) pair) = false ∧ pathUp .sup (.eng .a) State.reset = false := by decide

theorem witness_NopRepeatsItsParameters : sysNopSpec.opcode = 0x0105 ∧ timeGetSpec.opcode = 0x0801 ∧ (List.replicate 1015 (0 : Word)).length = 1015
    ∧ (List.replicate 1016 (0 : Word)).length = 1016 := by
  exact ⟨rfl, rfl, List.length_replicate .., List.length_replicate ..⟩

/-- Times of 1,000,000,000 ns at each place that supplies one. -/
theorem witness_BadNanosecondsAreOutOfRange :
    Formed timeSetSpec (ctx (.eng .a) toA) [0, 0, 1000000000, 0, 0, 0, 1000000000, 0, 1000] (begun toA pair)
    ∧ Allowed timeSetSpec (.eng .a) (begun toA pair) ∧ 999999999 < (par [0, 0, 1000000000] 2).toNat
    ∧ Formed timeStepSpec (ctx (.eng .a) toA) [0, 0, 1000, 0, 0, 1000000000, 0] (begun toA pair)
    ∧ Allowed timeStepSpec (.eng .a) (begun toA pair)
    ∧ Formed timeSchedEdgeSpec (ctx (.eng .a) toA) [0x100, 0, 0, 0, 1000000000, 0] (begun toA pair)
    ∧ Allowed timeSchedEdgeSpec (.eng .a) (begun toA pair)
    ∧ Formed schedCommitGclSpec (ctx (.eng .a) toA) [0, 0, 0, 1000000000, 0, 1000000, 0] (begun toA pair)
    ∧ Allowed schedCommitGclSpec (.eng .a) (begun toA pair)
    ∧ Formed timePutSampleSpec (ctx (.eng .a) toA) [0, 0, 0, 0, 0, 1000000000, 0] (begun toA pair)
    ∧ Allowed timePutSampleSpec (.eng .a) (begun toA pair)
    ∧ Formed twinSwapRolesSpec (ctx .sup toSup) [1000, 0, 0, 1000000000, 0] (begun toSup pair)
    ∧ Allowed twinSwapRolesSpec .sup (begun toSup pair) ∧ swapAsap [1000, 0, 0, 1000000000, 0] = false :=
  ⟨⟨by decide, by decide, by decide⟩, ⟨by decide, by decide⟩, by decide, ⟨by decide, by decide, by decide⟩, ⟨by decide, by decide⟩,
   ⟨by decide, by decide, by decide⟩, ⟨by decide, by decide⟩, ⟨by decide, by decide, by decide⟩, ⟨by decide, by decide⟩,
   ⟨by decide, by decide, by decide⟩, ⟨by decide, by decide⟩, ⟨by decide, by decide, by decide⟩, ⟨by decide, by decide⟩, by decide⟩

theorem witness_ChainedPairsCountAsOne :
    chainedPair statsReset 21 = true ∧ chainedPair statsReset 1993 = true ∧ counter statsReset 42 < 2 ^ 32 ∧ counter statsReset 43 < 2 ^ 32 := by
  decide

def emptyDesc : Desc := { w0 := 0, w1 := 0, w2 := 0, w3 := 0, data := [], pcieOk := true }

def ringed : State :=
  onA (fun x => ((x.modRing 0 fun q => { q with enabled := true, posted := [emptyDesc] }).modRing 1 fun q => { q with enabled := true }).modRing 5
    fun q => { q with enabled := true, posted := [emptyDesc] }) pair

theorem witness_EmptyDescriptorsAreSkipped :
    descBad emptyDesc = false ∧ emptyDesc.pcieOk = true ∧ descLen emptyDesc = 0 ∧ ringFetches (ringed.eng .a) = true
    ∧ ((ringed.eng .a).ring 0).posted = [emptyDesc] ∧ ((ringed.eng .a).ring (5 + 0)).posted = [emptyDesc] := by decide

theorem witness_TimeCounterAddsInc : timeReset.slew = none ∧ timeReset.subUnit < 1000000000000 ∧ timeReset.dev < 2 ^ 64 * 1000000000 * 2 ^ 32 := by decide

theorem witness_MailboxMemory : Memory.wf [(3, 7#8)] = true ∧ Memory.wf ([] : List Host.Cell) = true := by decide

theorem witness_QuietStatesAreSettled : Quiet pair := ⟨rfl, rfl, rfl, by decide, by decide⟩

/-! ## Witnesses: start-up -/

theorem witness_inOperation : InOperation pair .a ∧ InOperation pair .b ∧ InOperation single .a :=
  ⟨⟨by decide, by decide⟩, ⟨by decide, by decide⟩, ⟨by decide, by decide⟩⟩

theorem witness_FlowControlEvents : InOperation pair .b ∧ ((pair.eng .b).port 0).up = false := ⟨witness_inOperation.2.1, by decide⟩

theorem witness_SupplyValidStartsTheModule :
    State.reset.power.supplyValid = false ∧ State.reset.power.cycled = true ∧ pair.power.supplyValid = true
    ∧ ({ State.reset with power := { powerReset with cycled := false } } : State).power.cycled = false := by decide

/-- The supervisor waits to boot, its slot holding an image that runs. -/
def unbooted : State := { State.reset with power := { powerReset with supplyValid := true, startStep := 1, cycled := false } }

theorem witness_ResetLineAndRails :
    pair.sup.running = true ∧ State.reset.sup.running = false ∧ unbooted.power.supplyValid = true ∧ unbooted.sup.running = false
    ∧ (bootUnit .sup unbooted).sup.fw.running = some 0
    ∧ (bootUnit .sup { unbooted with sup := { supReset with slots := Vector.replicate 2 emptySlot } }).sup.fw.running = none := by decide +kernel

def railsDown : State := onSup (fun p => { p with running := true }) unbooted

theorem witness_rails : railsDown.sup.running = true ∧ railsDown.engA.running = false ∧ railsDown.engB.running = false ∧ railsDown.power.supplyValid = true ∧ railsDown.power.railsUp = false
    ∧ mayLeave .a { railsDown with power := powerOn, engA := { engineReset .a with core := coreReset } } = true := by decide

theorem witness_EngineStart :
    ((starting .released).eng .a).core.phase = .released ∧ ((starting .firmware).eng .a).core.phase = .firmware
    ∧ ((starting .firmware).eng .a).core.role = 0 ∧ ((starting .calibrated).eng .a).core.phase = .calibrated
    ∧ ((starting .calibrated).eng .a).core.role = 0 ∧ (starting .calibrated).power.f4Held = false ∧ twinPart pair.part = true := by decide

theorem witness_startInOperation : InOperation (starting .released) .a := ⟨by decide, by decide⟩

/-! ## Witnesses: the twins -/

theorem witness_Mirrors : Mirrors pair .a .b := ⟨by decide, by decide, by decide, by decide, by decide, by decide⟩

theorem witness_HeartbeatsAreJudged :
    pair.sup.running = true ∧ pair.engA.running = true ∧ pair.engB.running = true ∧ pair.standby ≠ some .a ∧ pair.fof.up = true
    ∧ pair.fof.beatLost = false := by decide

/-- Engine A has given up, and its GIVE_UP is seen on the sideband. -/
def gaveUp (b f : Beat) : State :=
  { pair with engA := engOn .a 5, sup := { pair.sup with viewA := { viewOn with beat := b }, viewB := { viewOn with fofBeat := f } } }

theorem witness_ActiveIsJudgedByItsBeats :
    (gaveUp .giveUp .giveUp).sup.sound = true ∧ (gaveUp .giveUp .giveUp).sup.switch = none ∧ watched (gaveUp .giveUp .giveUp) = some .a
    ∧ (gaveUp .giveUp .giveUp).standby = some .b ∧ eligible (gaveUp .giveUp .giveUp) .b = true
    ∧ fofSeen .b (gaveUp .giveUp .giveUp) = .giveUp ∧ fofSeen .b (gaveUp .giveUp .absent) = .absent
    ∧ ((gaveUp .absent .absent).sup.view .a).beat = .absent ∧ ((gaveUp .alive .alive).sup.view .a).beat = .alive
    ∧ fofSeen .b (gaveUp .absent .alive) ≠ .absent := by decide

theorem witness_SupervisorFaultsAndRecovery :
    pair.sup.faulty = false ∧ (onSup (fun p => { p with faulty := true }) pair).sup.faulty = true ∧ twinPart single.part = false
    ∧ (onSup (fun p => { p with faulty := true }) single).sup.faulty = true
    ∧ (onA (fun x => { x with core := { x.core with supRestart := true } }) pair).engA.core.supRestart = true
    ∧ pair.engA.core.supRestart = false ∧ pair.engB.core.supRestart = false := by decide

/-- The link has been down: both engines report COPY 3. -/
def apart : State :=
  { pair with fof := fofReset, engA := { pair.engA with twin := { pair.engA.twin with copy := 3 } },
              engB := { pair.engB with twin := { pair.engB.twin with copy := 3, sync := 0 } } }

/-- A copy runs. -/
def copying : State := { pair with engB := { pair.engB with twin := { pair.engB.twin with copy := 1, sync := 0 } } }

/-- A command of the active awaits its acknowledgement. -/
def awaiting : State :=
  onA (fun x => { x with host := { x.host with waiting :=
    [{ arrival := toA, opcode := 0x0304, params := [], forwarded := true, await := none, ackOf := some 5, committed := true, gen := 5, mirrored := false,
       status := 0, completed := stampZero, body := [] }] } })
    { pair with fof := { pair.fof with commits := [{ gen := 5, opcode := 0x0304, params := [] }], acks := [5] } }

theorem witness_MirroringReachesTheStandby :
    apart.fof.up = false ∧ apart.active = some .a ∧ apart.standby = some .b ∧ (apart.eng .b).twin.copy = 3 ∧ (copying.eng .b).twin.copy = 1
    ∧ awaiting.fof.commits = [{ gen := 5, opcode := 0x0304, params := [] }] ∧ (awaiting.eng .b).serving = true ∧ awaiting.fof.acks = [5]
    ∧ oldestAck (awaiting.eng .a) = some 5 ∧ awaiting.fof.up = true ∧ (pair.eng .a).clk.syntLocked = true ∧ (copying.eng .b).twin.sync = 0
    ∧ (pair.eng .b).twin.sync ≠ 0 ∧ (pair.eng .a).serving = true ∧ (pair.eng .b).twin.setDue = false
    ∧ (pair.eng .b).twin.sync = 2 ∧ (pair.eng .b).time.slew = none ∧ (pair.eng .a).time.stepCount = (pair.eng .b).time.stepCount
    ∧ ({ pair.engB with twin := { pair.engB.twin with sync := 1 } } : Engine).twin.sync = 1 ∧ (20 : Int).natAbs ≤ 20
    ∧ 50 < (51 : Int).natAbs
    ∧ (∀ l, l < 4 → ({ pair.engB with twin := { pair.engB.twin with sync := 1 } } : Engine).fofDefault l = false)
    ∧ ({ pair.engB with twin := { pair.engB.twin with sync := 1 }, cal := { pair.engB.cal with badSets := [661] } } : Engine).fofDefault 1
        = true := by decide

theorem witness_awaitingMirrors : Mirrors awaiting .a .b := ⟨by decide, by decide, by decide, by decide, by decide, by decide⟩

def scrubbing : State := onA (fun x => { x with twin := { x.twin with scrubRunning := true } }) pair

/-- A digest window has closed and waits for its comparison. -/
def closed : State := onA (fun x => { x with twin := { x.twin with digestClosed := [{ number := 1, boundary := 65536 }] } }) pair

/-- A scrub of the active without a standby. -/
def alone : State := { scrubbing with engB := engOn .b 0 }

theorem witness_DigestsAndScrub :
    (pair.eng .a).twin.digestClosed = [] ∧ (closed.eng .a).twin.digestClosed = [{ number := 1, boundary := 65536 }]
    ∧ closed.active = some .a ∧ (gaveUp .giveUp .giveUp).active = none ∧ (starting .released).standby = some .b
    ∧ (starting .released).active = none ∧ (scrubbing.eng .a).twin.scrubRunning = true ∧ scrubbing.active = some .a ∧ scrubbing.standby = some .b
    ∧ (pair.eng .a).twin.scrubRunning = false ∧ alone.active = some .a ∧ alone.standby = none ∧ (alone.eng .a).twin.scrubRunning = true := by decide

/-- The switchover to B at a step of Table 11.3. -/
def switchAtStep (n : Nat) : State :=
  { pair with engA := engOn .a 0, engB := engOn .b 1,
              sup := { pair.sup with switch := some { cause := 1, src := .a, dst := .b, step := n, lost := 0, stale := false } } }

theorem witness_Switching :
    Switching (switchAtStep 5) { cause := 1, src := .a, dst := .b, step := 5, lost := 0, stale := false }
    ∧ Switching (switchAtStep 6) { cause := 1, src := .a, dst := .b, step := 6, lost := 0, stale := false }
    ∧ Switching (switchAtStep 7) { cause := 1, src := .a, dst := .b, step := 7, lost := 0, stale := false } :=
  ⟨⟨by decide, rfl, by decide⟩, ⟨by decide, rfl, by decide⟩, ⟨by decide, rfl, by decide⟩⟩

def planned (done : Bool) (next : Option Nat) (n : Nat) : State :=
  onSup (fun p => { p with swap := some { swAt := 131072000, prepUs := 1000, commanded := true, prepared := done }, swapNext := next,
                           swapRetries := n }) pair

/-- A planned swap that cannot take place: the standby reports itself faulty. -/
def unfit (done : Bool) : State :=
  let s := planned done none 0
  { s with engB := { s.engB with twin := { s.engB.twin with selfFaulty := true } } }

/-- The conditions of R344 hold when a planned swap is prepared and when it takes place, or fail then. -/
theorem witness_swapConditions :
    (let s := passTo .a (131072000 - 1000 * us16) (planned false none 0)
     swapRefusal s = none ∧ s.active = some .a ∧ s.standby = some .b)
    ∧ (let s := passTo .a 131072000 (planned true none 0)
       swapRefusal s = none ∧ s.active = some .a ∧ s.standby = some .b)
    ∧ swapRefusal (passTo .a (131072000 - 1000 * us16) (unfit false)) = some .state
    ∧ swapRefusal (passTo .a 131072000 (unfit true)) = some .state ∧ (planned true none 0).active.getD .b = .a := by decide +kernel

/-- A planned swap between SW_AT and its grant. -/
def ungranted : State :=
  { pair with engA := engOn .a 2, sup := { pair.sup with switch := some { cause := 4, src := .a, dst := .b, step := 3, lost := 0, stale := false } } }

theorem witness_grantSwap :
    ungranted.sup.switch = some { cause := 4, src := .a, dst := .b, step := 3, lost := 0, stale := false } ∧ (ungranted.eng .b).core.role = 2
    ∧ (ungranted.eng .b).running = true ∧ ungranted.sup.sound = true ∧ (onSup (fun p => { p with faulty := true }) ungranted).sup.sound = false := by
  decide

theorem witness_SwitchoverAndSwapSteps :
    (switchAtStep 5).sup.sound = true ∧ (onSup (fun p => { p with faulty := true }) (switchAtStep 5)).sup.sound = false ∧ pair.sup.swap = none
    ∧ pair.sup.swapNext = none ∧ pair.sup.switch = none ∧ twinPart leaving.part = true
    ∧ leaving.sup.switch = some { cause := 1, src := .a, dst := .b, step := 2, lost := 0, stale := false }
    ∧ runHolds { cause := 1, src := .a, dst := .b, step := 2, lost := 0, stale := false } leaving = false
    ∧ (planned true none 0).sup.swap = some { swAt := 131072000, prepUs := 1000, commanded := true, prepared := true } ∧
    (planned false none 0).sup.switch = none
    ∧ (planned true (some 5) 0).sup.swapNext = some 5 ∧ (planned true (some 5) 0).sup.swapRetries = 0
    ∧ (planned true (some 5) 1).sup.swapRetries ≠ 0 ∧ (planned true none 0).sup.running = true := by decide

/-! ## Witnesses: time, clocks and references -/

def stepping : State :=
  onA (fun x => { x with time := { x.time with step := some { jump := 2, rem := 0, applyAt := 65536, rate := 1000, servo := false } } }) pair

/-- Both engines hold the same step. -/
def bothStepping : State := { stepping with engB := { stepping.engB with time := { stepping.engB.time with step := stepping.engA.time.step } } }

theorem witness_DeviceTimeEvents :
    (stepping.eng .a).time.step = some { jump := 2, rem := 0, applyAt := 65536, rate := 1000, servo := false }
    ∧ (pair.eng .a).time.step = none ∧ (bothStepping.eng .b).time.step = (bothStepping.eng .a).time.step
    ∧ (bothStepping.eng .b).awake = true ∧ twinPart bothStepping.part = true := by decide

theorem witness_slewCompletes :
    (passTime false (slewCycles { remain := -65536000000000001, rate := 1 })
      { timeReset with slew := some { remain := -65536000000000001, rate := 1 } }).slew = none := by decide +kernel

theorem witness_steppingInOperation : InOperation stepping .a := ⟨by decide, by decide⟩

theorem witness_EventInputEdges :
    ((modEvtIn 0 (fun q => { q with last := some 10 }) (pair.eng .a)).time.evtIn[0]).last = some 10 ∧ 10 < 10 + 8 * ns16
    ∧ ((pair.eng .a).time.evtIn[0]).last = none ∧ ((pair.eng .a).time.evtIn[0]).queue.length < 64
    ∧ ((pair.eng .a).time.evtIn[0]).deliver = false
    ∧ 64 ≤ ((modEvtIn 0 (fun q => { q with queue := List.replicate 64 { seq := 1, rise := true, time := stampZero } })
        (pair.eng .a)).time.evtIn[0]).queue.length := by decide

def edging (f : Option Nat) : State :=
  onA (modEvtOut 0 fun q => { q with fall := f, sched := [{ seq := 1, action := 1, widthNs := 0, at_ := 65536 }] }) pair

theorem witness_EventOutputEdges :
    ((edging (some 9)).eng .a).time.evtOut[0].fall = some 9 ∧ ((edging none).eng .a).time.evtOut[0].fall = none
    ∧ ((edging none).eng .a).time.evtOut[0].sched = [{ seq := 1, action := 1, widthNs := 0, at_ := 65536 }]
    ∧ (edging none).power.steer = .a ∧ (edging none).power.steer ≠ .b ∧ (edging none).power.alignerHolds = false
    ∧ (edging none).power.alignerLow = false ∧ ((edging none).eng .a).core.role ≠ 4 ∧ (pair.eng .a).time.evtOut[0].sched = [] := by decide

theorem witness_edgingInOperation : InOperation (edging none) .a ∧ InOperation (edging (some 9)) .b :=
  ⟨⟨by decide, by decide⟩, ⟨by decide, by decide⟩⟩

def fallen : State := onA (fun x => { x with clk := { x.clk with lock := 1#16 <<< 14 } }) pair

theorem witness_ClockDomainEvents :
    (fallen.eng .a).clk.fallback = true ∧ (fallen.eng .a).clk.syntLocked = false ∧ (pair.eng .a).clk.fallback = false
    ∧ (pair.eng .a).clk.suspended = false ∧ loopPresent pair.part .synt = true ∧ loopPresent single.part .fof = false
    ∧ (onA (fun x => { x with clk := { x.clk with suspended := true } }) pair).engA.clk.suspended = true := by decide

theorem witness_CorePaceEvents :
    heldPowered .a (starting .held) = true ∧ (engOn .a 1).ports.vcoreHold = false ∧ (engOn .a 1).ports.awaitWindow = false
    ∧ ({ engOn .a 1 with ports := { (engOn .a 1).ports with awaitWindow := true } } : Engine).ports.awaitWindow = true
    ∧ ({ engOn .a 1 with ports := { (engOn .a 1).ports with vcoreHold := true } } : Engine).ports.vcoreHold = true
    ∧ ({ engOn .a 1 with ports := { (engOn .a 1).ports with minSpeed := 625 } } : Engine).ports.minSpeed = 625 ∧ paceFloor (engOn .a 1).pace.pace = 625
    ∧ ({ engOn .a 1 with ports := { (engOn .a 1).ports with minSpeed := 624 } } : Engine).ports.minSpeed < 625
    ∧ ({ engOn .a 1 with pace := { (engOn .a 1).pace with vcoreMv := 850 } } : Engine).pace.vcoreMv < 900
    ∧ ({ engOn .a 1 with pace := { (engOn .a 1).pace with vcoreMv := 900 } } : Engine).pace.vcoreMv = 900 := by decide

/-- A pulse reference that is enabled, and a calibration against PPSIN0. -/
def pulsed : State := onA (fun x => x.modRef 4 fun q => { q with enable := true }) pair

def calibrating (n : Nat) : State :=
  let k : CalAsym :=
    { port := 0, input := 0, apply := true, windowS := 10, cablePs := 0, edges := n, rejected := 0, sum := 0, sumSq := 0, failed := false }
  onA (fun x => { x with net := { x.net with cal := some k } }) pair

theorem witness_ReferenceEvents :
    (pulsed.eng .a).running = true ∧ ((pulsed.eng .a).ref 4).enable = true ∧ (pulsed.eng .a).kind 4 = .pulse
    ∧ true ≠ ((pulsed.eng .a).ref 4).falling ∧ (pulsed.eng .a).net.cal = none ∧ ((pair.eng .a).ref 4).enable = false
    ∧ ((calibrating 5).eng .a).net.cal.isSome = true
    ∧ ((onA (fun x => x.modRef 4 fun q => { q with enable := true, assign := 2 }) (calibrating 5)).eng .a).net.cal.isSome = true
    ∧ ((pulsed.eng .a).ref 4).assign = 0 ∧ (4 : Fin 42).val = 4 + 0 := by decide

theorem witness_pulsedInOperation : InOperation pulsed .a ∧ InOperation (calibrating 5) .a :=
  ⟨⟨by decide, by decide⟩, ⟨by decide, by decide⟩⟩

def slewing : State :=
  onA (fun x => (x.modSlot 0 fun q => { q with boRate := 5, buildOut := 9 }).modSlot 1 fun q => { q with boRate := 5, buildOut := 9 }) pair

def aligning : State := onA (fun x => { x with refs := { x.refs with align := 3 } }) pair

def lastAligning : State := onA (fun x => { x with refs := { x.refs with align := 1 } }) pair

/-- A domain switch waits for the next update of engine A. -/
def switching2 : State := onA (fun x => { x with net := { x.net with switch := some { slot := 1, rate := 0 } } }) pair

theorem witness_ServoAndAnchorEvents :
    ((starting .released).eng .a).running = false ∧ single.standby = none ∧ single.active = some .a ∧ (single.eng .a).net.switch = none
    ∧ (single.eng .a).running = true ∧ ((slewing.eng .a).slot 0).boRate ≠ 0 ∧ ((slewing.eng .a).slot 1).boRate ≠ 0
    ∧ (pair.eng .a).refs.align.getLsbD 0 = false ∧ (aligning.eng .a).refs.align.getLsbD 0 = true
    ∧ (aligning.eng .a).refs.align &&& ~~~(1#12 <<< 0) ≠ 0 ∧ (pair.eng .a).net.cal = none
    ∧ calAsymHolds ((calibrating 4).eng .a) 0 = false ∧ 2 * 4 < 10 ∧ calAsymHolds (locked.eng .a) 0 = true ∧ 10 ≤ 2 * 5
    ∧ (aligning.eng .a).refs.align &&& ~~~(1#12 <<< 1) ≠ 0 ∧ (lastAligning.eng .a).refs.align &&& ~~~(1#12 <<< 0) = 0
    ∧ (switching2.eng .a).net.switch = some { slot := 1, rate := 0 } ∧ switching2.standby = some .b ∧ (pair.eng .a).level 0 < 3 ∧ ¬ (locked.eng .a).level 0 < 3 := by decide

/-- A front port of engine A that is up and runs its slot itself. -/
def ptpUp (p2p : Bool) (st : Nat) : State :=
  onA (fun x => ((x.modPort 0 fun q => { q with up := true, mode := 7, modeNow := 7, ahnud := { q.ahnud with level := 2 } }).modSlot 0 fun q => { q with enable := true, p2p := p2p }).modPtp 0 0
    fun q => { q with state := st }) pair

theorem witness_TimePacketSends :
    sendsPdelay (pair.eng .a) 0 0 = false ∧ sendsPtp (pair.eng .a) 0 0 = false ∧ sendsPdelay ((ptpUp true 3).eng .a) 0 0 = true
    ∧ sendsPdelay ((ptpUp false 3).eng .a) 0 0 = false ∧ sendsPtp ((ptpUp false 3).eng .a) 0 0 = true
    ∧ (((ptpUp false 3).eng .a).ptp 0 0).state = 3 ∧ (((ptpUp false 3).eng .a).slot 0).p2p = false
    ∧ ((ptpUp true 3).eng .a).level 0 ≠ 3 := by decide

/-! ## Witnesses: frames, queues and ports -/

def aFrame : Frame :=
  { ingress := 0, stamp := stampZero, jumps := 0, bytes := [], orig := [], hdrs := [], pflags := 0, truncPtp := false, epoch := 0,
    pp := portParseReset, pr := portRuleReset, edge := false, hit0 := 0, hit1 := 0, cls := 0, acls := 0, dropElig := false, cells := [], under := false, pMin := 0, pHr := 0,
    pShared := 0, pRes := 0, pEg := [], round := 0, refs := 1, sample := none, trap := 0, red := none, bad := 0, multi := false,
    several := false, pass1 := false, noTag := false, seqs := [], phi := 0, slot := 0 }

def aCopy : Copy :=
  { frame := 0, port := 1, queue := 0, cls := 0, launch := none, tag := none, rewrites := [], mirror := false, trap := 0, staged := false,
    held := false, enq := 0, charged := false, ring := false }

def residual : State := onA (fun x => (x.putFrame 0 aFrame).modBuf fun b =>
    { b with residue := [aCopy], classes := Vector.replicate 8 { classReset with lossless := false } }) pair

def bothRings : State := onA (fun x => x.modRing 6 fun q => { q with enabled := true, posted := [emptyDesc] }) ringed

def losslessResidual : State := onA (fun x => x.modBuf fun b => { b with classes := Vector.replicate 8 classReset }) residual

/-- A frame stands in the Roundabout. -/
def rounding : State := onA (fun x => (x.putFrame 0 { aFrame with round := 1 }).modBuf fun b =>
    { b with round := [{ frame := 0, action := none, vid := 0, learn := 0, flags := 0, tag := none }] }) pair

/-- A front port of engine A that is up and receives nothing. -/
def open0 : State := portA 0 fun q => { q with up := true, mode := 7, modeNow := 7 }

theorem witness_FramePathEvents :
    takeResidue 1 0 (pair.eng .a).buf.residue = none ∧ takeResidue 1 0 (residual.eng .a).buf.residue = some (aCopy, [])
    ∧ (residual.eng .a).frame 0 = some aFrame ∧ ((residual.eng .a).cls aCopy.cls).lossless = false
    ∧ takeResidue 1 0 (losslessResidual.eng .a).buf.residue = some (aCopy, []) ∧ (losslessResidual.eng .a).frame 0 = some aFrame
    ∧ ((losslessResidual.eng .a).cls aCopy.cls).lossless = true ∧ takeRound (pair.eng .a) [] (pair.eng .a).buf.round = none
    ∧ (takeRound (rounding.eng .a) [] (rounding.eng .a).buf.round).isSome = true ∧ ((pair.eng .a).eg 0).tx = none
    ∧ findAt 0 (pair.eng .a).buf.arriving = none ∧ (open0.eng .a).holdsQueues open0.part 0 = true
    ∧ (single.eng .a).holdsQueues .rhf3240S 16 = false
    ∧ (pair.eng .a).sendReady 0 = false ∧ (ringed.eng .a).sendReady 0 = true ∧ (ringed.eng .a).sendReady 1 = false
    ∧ (bothRings.eng .a).sendReady 0 = true ∧ (bothRings.eng .a).sendReady 1 = true
    ∧ oldestCopy (residual.eng .a) (fun k => decide (k.port = 1) && decide (k.cls = 0)) (residual.eng .a).buf.residue = some (0, aCopy)
    ∧ oldestCopy (residual.eng .a) (fun k => decide (k.port = 2) && decide (k.cls = 0)) (residual.eng .a).buf.residue = none := by decide

def gated : State :=
  onA (fun x => x.modEgPort 0 fun g => { g with oper := some { entries := [0xFF0003E8], base := 0, cycle := 1000 } }) pair

def changing : State := onA (fun x => x.modEgPort 0 fun g => { g with commit := some { ct := 65536, list := none } }) pair

/-- A running gate list, and a commit whose change time stands before or at the next change of gates. -/
def gatedChanging (ct : Nat) : State := onA (fun x => x.modEgPort 0 fun g => { g with commit := some { ct := ct, list := none } }) gated

def preempting : State := onA (fun x => x.modEgPort 0 fun g => { g with preempt := { g.preempt with enable := true, state := 2 } }) pair

def draining : State := onA (fun x => { x with rules := { x.rules with drain := some { epoch := 0, bankB := false, flipAt := 65536 } } }) pair

theorem witness_SchedulerAndTableTimers :
    ((gated.eng .a).eg 0).oper = some { entries := [0xFF0003E8], base := 0, cycle := 1000 } ∧ ((gated.eng .a).eg 0).commit = none
    ∧ ((pair.eng .a).eg 0).oper = none ∧ ((changing.eng .a).eg 0).commit = some { ct := 65536, list := none }
    ∧ (gclNext { entries := [0xFF0003E8], base := 0, cycle := 1000 } ((gated.eng .a).eg 0).entry ((gated.eng .a).eg 0).cycleStart).1 = 1000
    ∧ ((gatedChanging 1001).eng .a |>.eg 0).commit = some { ct := 1001, list := none }
    ∧ ((gatedChanging 1000).eng .a |>.eg 0).commit = some { ct := 1000, list := none }
    ∧ (let k := (preempting.eng .a).eg 0; k.preempt.enable && k.preempt.state == 2) = true
    ∧ (pair.eng .a).rules.drain = none ∧ (draining.eng .a).rules.drain = some { epoch := 0, bankB := false, flipAt := 65536 }
    ∧ (pair.eng .a).egress.dups = [] ∧ (pair.eng .a).egress.proxies = [] ∧ (pair.eng .a).rules.flip = none
    ∧ ((onA (fun x => { x with rules := { x.rules with flip := some 9 } }) pair).eng .a).rules.flip = some 9 := by decide

def heldTables : State :=
  onA (fun x => { x with egress := { x.egress with dups := [{ pair := 0, src := 0, seq := 0, port := 0, at_ := 0 }], proxies := [{ pair := 0, src := 0, used := 0, seq := 0 }] } }) pair

theorem witness_heldTables :
    (heldTables.eng .a).egress.dups.map (fun k => k.at_ + forgetTime (heldTables.eng .a) k.pair) = [forgetTime (heldTables.eng .a) 0]
    ∧ (heldTables.eng .a).egress.proxies.map (fun k => k.used + 60 * s16) = [60 * s16] := by decide

theorem witness_PortLifeEvents :
    ((portA 0 fun q => { q with up := true }).eng .a |>.port 0).up = true ∧ portFitted single.part 16 = true
    ∧ ((pair.eng .a).port 0).up = false ∧ portFitted pair.part 0 = true ∧ (0 : Fin 34).val ≠ 32 ∧ (32 : Fin 34).val = 32
    ∧ ((portA 0 fun q => { q with mode := 7 }).eng .a |>.port 0).mode = 7 := by decide

def detecting : State := portA 0 fun q => { q with mode := 13, modeNow := 13, advert := 0xFF }

theorem witness_NegotiationEvents :
    ((pair.eng .a).port 0).mode ≠ 13 ∧ ((pair.eng .a).port 0).modeNow ≠ 13
    ∧ ((portA 0 fun q => { q with up := true, mode := 13 }).eng .a |>.port 0).up = true
    ∧ candidates (((portA 0 fun q => { q with mode := 13, modeNow := 13, advert := 0 }).eng .a).port 0) = [] ∧ ((detecting.eng .a).port 0).mode = 13 ∧ ((detecting.eng .a).port 0).modeNow = 13
    ∧ ((detecting.eng .a).port 0).up = false ∧ candidates ((detecting.eng .a).port 0) ≠ [] := by decide

/-! ## Witnesses: faults, calibration, statistics, host and firmware -/

def reported : State := onA (report fault3) pair

theorem witness_FaultEvents :
    (ringFirst ((reported.eng .a).fault.ring ++ (reported.eng .a).fault.slots)).isSome = true ∧ (pair.eng .a).fault.ring = []
    ∧ (pair.eng .a).fault.slots = []
    ∧ (windowed.eng .a).fault.windows.find? (fun w => w.msg.cls = 2 && w.msg.source == 8 && w.msg.kind == 2 && w.msg.inj == false)
        = some { msg := fault2 }
    ∧ (windowed.eng .a).fault.windows.find? (fun w => w.msg.cls = 3 && w.msg.inj == false) = some { msg := fault3 }
    ∧ (pair.eng .a).fault.windows = [] := by decide

def due (p : Nat) : State := onA (fun x => x.modPath 4 0 fun k => { k with due := true, probes := p }) pair

theorem witness_CalibrationEvents :
    pathPresent pair.part 4 0 = true ∧ (((due 0).eng .a).path 4 0).due = true ∧ kindEnabled ((due 0).eng .a) 4 = true
    ∧ suspendedPath ((due 0).eng .a) 4 0 = false ∧ ((pair.eng .a).path 4 0).due = false ∧ (pair.eng .a).cal.repairing = false
    ∧ ((onA (fun x => { x with cal := { x.cal with repairing := true } }) pair).eng .a).cal.repairing = true := by decide

theorem witness_SnapshotAndSampleEvents :
    (pair.eng .a).stats.snapPeriodMs = 0 ∧ ((onA (fun x => { x with stats := { x.stats with snapPeriodMs := 10 } }) pair).eng .a).stats.snapPeriodMs ≠ 0 := by
  decide

/-- The PCIe link is up and a ring enabled. -/
def hosted : State := onA (fun x => { x with host := { x.host with pcieUp := true } }) ringed

theorem witness_HostInterfaceEvents :
    spiServes pair = true ∧ spiServes State.reset = false ∧ ((hosted.eng .a).ring 1).enabled = true ∧ (hosted.eng .a).host.pcieUp = true
    ∧ ((hosted.eng .a).ring 1).stopped = false ∧ ((0 : Word) - ((hosted.eng .a).ring 1).engineIdx).toNat ≤ 2 ^ ((hosted.eng .a).ring 1).sizeLog2
    ∧ 2 ^ ((hosted.eng .a).ring 1).sizeLog2 < ((0xFFFFFFFF : Word) - ((hosted.eng .a).ring 1).engineIdx).toNat := by decide

/-- A session, a restart and a burn on a unit. -/
def busy (u : UnitId) : State :=
  modFw u (fun f => { f with session := some { slot := 1, next := 4, prev := 0, unit := u, chan := .spi }, restart := some false, burn := some (3, 1) }) pair

theorem witness_FirmwareEvents :
    unitFitted pair.part .sup = true ∧ unitFitted pair.part (.eng .a) = true ∧ (unitFw .sup pair).session = none ∧ (unitFw .sup pair).restart = none
    ∧ (unitFw .sup pair).burn = none
    ∧ (unitFw (.eng .a) (busy (.eng .a))).session = some { slot := 1, next := 4, prev := 0, unit := .eng .a, chan := .spi }
    ∧ (unitFw .sup (busy .sup)).session.isSome = true ∧ (unitFw (.eng .a) (busy (.eng .a))).restart = some false
    ∧ (unitFw .sup (busy .sup)).restart = some false ∧ (unitFw (.eng .a) (busy (.eng .a))).burn = some (3, 1)
    ∧ (unitFw .sup (busy .sup)).burn = some (3, 1) := by decide

/-! ## Values of the manual's own examples -/

/-- Worked example "encoding a launch time" (R28 to R30). -/
theorem test_launch_time_words :
    stampWords { t := (1767225637 * 1000000000 + 250000125) * 65536 + 24576, qual := 0 }
      = [0x00000000, 0x6955B925, 0x0EE6B2FD, 0x60000000]
    ∧ timeOf 0x00000000 0x6955B925 0x0EE6B2FD 0x60000000 = (1767225637 * 1000000000 + 250000125) * 65536 + 24576 := by decide +kernel

/-- Worked example "a 38 km span at 25 Gb/s" (R230). -/
theorem test_headroom_38_km :
    hrSize 25000 { fcReset 2 with lenM := 38000 } = 18902 ∧ hrSize 25000 { fcReset 2 with lenM := 38000, minFrame := 1500 } = 5457 := by
  decide +kernel

/-- Worked example "a launch on the 25 Gb/s grid", for any engine whose P12 runs MODE 5 with 7.25 ns of transmit delay: the point is
500,000,002.13 ns, and 2.56 ns later for a time 10 ps past it (R253). -/
theorem test_launch_grid (x : Engine) (hm : (x.port 12).modeNow = 5) (hd : x.delay 12 1 = 475136) :
    x.gridPhase25 12 = 213 * 65536 / 4
    ∧ x.gridPoint25 12 ((1767225700 * 1000000000 + 500000000) * 65536 + 55705)
        = (1767225700 * 1000000000 + 500000002) * 65536 * 25 + 13 * 65536 / 4
    ∧ x.gridPoint25 12 ((1767225700 * 1000000000 + 500000002) * 65536 + 9175)
        = (1767225700 * 1000000000 + 500000004) * 65536 * 25 + 69 * 65536 / 4 := by
  simp only [Engine.gridPoint25, Engine.gridPhase25, hm, hd]
  decide +kernel

/-- Worked example "a 1310/1550 nm span on one fibre": ASYM reads -5,108, which is 0xEC0C, in units of 4 ps (R280). -/
theorem test_asymmetry_model :
    asymUnits ((engOn .a 1).modNetPort 4 fun n =>
      { n with model := asymModel { n with txWl := 1550, rxWl := 1310 } (901138 * 65536 / 10) }) 4 = -5108 := by decide +kernel

/-- Worked example "a speed monitor fault that escalates" (Table 12.1). -/
theorem test_fault_messages :
    msgBits { fault2 with source := 4, kind := 2, cls := 3, address := 0x228, seq := 0x27 } = 0x0402600000022827#64
    ∧ msgBits { fault2 with source := 4, kind := 1, cls := 1, address := 3, seq := 0x20 } = 0x0401200000000320#64 := by decide +kernel

/-- Worked example "settling with an A2-only neighbour" (R118). -/
theorem test_settled_level : chosen 0b1111 0b0111 = 3 := by decide

/-- Worked example "one-step Sync through a trackside node": 34.75 ns with and without the jump of 1,024 ns (R87). -/
theorem test_residence :
    residenceOf { pair.engA with time := { timeReset with jumpSum := 1024 * 65536 } } { aFrame with stamp := { t := 2670592, qual := 0 } }
        { t := 2670592 + 2277376 + 1024 * 65536, qual := 0 } = 2277376
    ∧ residenceOf pair.engA { aFrame with stamp := { t := 2670592, qual := 0 } } { t := 4947968, qual := 0 } = 2277376 := by decide +kernel

/-- The double-tagged Sync of the worked example "a byte limit too short for a transparent clock", from its Ethernet header on. -/
def taggedSync : List Byte :=
  List.replicate 12 0 ++ [0x88, 0xA8, 0, 1, 0x81, 0x00, 0, 1, 0x08, 0x00]
    ++ [0x46, 0, 0, 76, 0, 0, 0, 0, 1, 17, 0, 0] ++ List.replicate 12 0
    ++ [0x01, 0x3F, 0x01, 0x3F, 0, 52, 0, 0] ++ [0x00, 0x02, 0, 44] ++ List.replicate 40 0

/-- The same worked example: with BYTE_LIMIT 64 PARSE_LAST_TRUNC reads 0x1811_1B40, and with 88 the PTP header is recorded. -/
theorem test_parse_byte_limit :
    (let r := parseFrom parserReset { parserReset.ports[0] with byteLimit := 64 } 0 0 0 taggedSync
     truncWord 6 r = 0x18111B40 ∧ r.hdrs.length = 5) ∧
    (let r := parseFrom parserReset { parserReset.ports[0] with byteLimit := 88 } 0 0 0 taggedSync
     r.reason = 0 ∧ r.hdrs.length = 6 ∧ r.head = none) := by decide +kernel

/-- Worked example "an IPv4 length contradiction found after the head has left": IP4_TOTAL_LONG is found at the tail. -/
theorem test_length_conflict :
    (parseFrom parserReset parserReset.ports[0] 0 0 0
      (List.replicate 12 0 ++ [0x08, 0x00, 0x45, 0, 0x05, 0xDC, 0, 0, 0, 0, 1, 17, 0, 0] ++ List.replicate 8 0
        ++ [0, 1, 0, 2, 0x05, 0xC8, 0, 0] ++ List.replicate 954 0)).tail = some { kind := 3, node := 4 }
    ∧ confWord 4 { kind := 3, node := 4 } true true = 0x10C4C000 ∧ confWord 4 { kind := 3, node := 4 } true false = 0x10C48000 := by
  decide +kernel

/-- Worked example "two GNSS clocks that disagree": REFIN1's REF_STAT (Table 10.4). -/
theorem test_ref_stat :
    refStat ((engOn .a 1).modRef 1 fun q => { q with state := 4, softWarn := true, rank := 2, cause := 5, assign := 0, hist := 0x10 }) 1
      = 0x90251000 := by decide +kernel

end Sys2Proof.Tests
end

section
/-! The scope chapter's rules on time words (R29) and on empty ring descriptors (R24). -/

namespace Sys2Proof

open Sys2Proof.Machine

/-! ## Time words out of range (R29) -/

/-- A well-formed packet that its unit may take, but with a field out of range, fails the range check of Table 15.4 and no earlier one. -/
theorem check_eq_range {sp : CmdSpec} {c : Ctx} {ps : List Word} {s : State} {body : List Word} (hf : Formed sp c ps s)
    (ha : Allowed sp c.unit s) (hr : sp.rangeErr c ps s = some body) : check sp c ps s = some (.range, body) := by
  simp [check, hf.length, hf.reserved, hf.present, ha.role, ha.mode, hr]

/-- A command of the table that is taken at once and fails the range check is answered ERR_RANGE, and changes nothing else. -/
theorem answered_range {i : Instr} {sp : CmdSpec} {a : Arrival} {ps : List Word} {s : State} {u : UnitId} {fwd : Bool} {body : List Word}
    (hi : exec i s = .next (takeCommand sp a ps s)) (ht : Taken a s u fwd)
    (hf : Formed sp { unit := u, arrival := a, mirror := false } ps (begun a s)) (ha : Allowed sp u (begun a s))
    (hr : sp.rangeErr { unit := u, arrival := a, mirror := false } ps (begun a s) = some body) :
    Answered i s a u fwd sp.opcode .range body := by
  have hc := check_eq_range hf ha hr
  rw [Answered, hi, takeCommand_refused ht hc]

theorem badNsec_iff (ps : List Word) (k : Nat) : badNsec ps k = true ↔ 999999999 < (par ps (k + 2)).toNat := decide_eq_true_iff

section
variable (c : Ctx) {ps : List Word} (s : State)

theorem timeSet_rangeErr_of_badNsec (h : badNsec ps 0 = true ∨ badNsec ps 4 = true) : timeSetSpec.rangeErr c ps s = some [] := by
  rcases h with h | h <;> simp [timeSetSpec, rangeIf, h]

theorem timeStep_rangeErr_of_badNsec (h : badNsec ps 3 = true) : timeStepSpec.rangeErr c ps s = some [] := by
  simp [timeStepSpec, rangeIf, h]

theorem timeSchedEdge_rangeErr_of_badNsec (h : badNsec ps 2 = true) : timeSchedEdgeSpec.rangeErr c ps s = some [] := by
  simp [timeSchedEdgeSpec, rangeIf, h]

theorem schedCommitGcl_rangeErr_of_badNsec (h : badNsec ps 1 = true) : schedCommitGclSpec.rangeErr c ps s = some [] := by
  simp [schedCommitGclSpec, portSpec, rangeIf, h]

theorem timePutSample_rangeErr_of_badNsec (h : badNsec ps 3 = true) : timePutSampleSpec.rangeErr c ps s = some [] := by
  simp [timePutSampleSpec, configSpec, rangeIf, h]

/-- With ASAP clear; with ASAP set the command's time words are not read. -/
theorem twinSwapRoles_rangeErr_of_badNsec (hn : swapAsap ps = false) (h : badNsec ps 1 = true) :
    twinSwapRolesSpec.rangeErr c ps s = some [] := by
  simp [twinSwapRolesSpec, twinSpec, rangeIf, hn, h]

end

/-- Settles O12: by the command, whose range check refuses a bad NSEC whatever its other fields hold. -/
theorem badNanosecondsAreOutOfRange : Obligations.BadNanosecondsAreOutOfRange := by
  intro i sp k a ps s u fwd hcmd ht hf ha hns
  have hbad : badNsec ps k = true := (badNsec_iff ps k).mpr hns
  obtain ⟨rfl, rfl, hk⟩ | ⟨rfl, rfl, rfl⟩ | ⟨rfl, rfl, rfl⟩ | ⟨rfl, rfl, rfl⟩ | ⟨rfl, rfl, rfl⟩ | ⟨rfl, rfl, rfl, hasap⟩ := hcmd
  · have hword : badNsec ps 0 = true ∨ badNsec ps 4 = true := by
      obtain rfl | rfl := hk
      · exact .inl hbad
      · exact .inr hbad
    exact answered_range rfl ht hf ha (timeSet_rangeErr_of_badNsec _ _ hword)
  · exact answered_range rfl ht hf ha (timeStep_rangeErr_of_badNsec _ _ hbad)
  · exact answered_range rfl ht hf ha (timeSchedEdge_rangeErr_of_badNsec _ _ hbad)
  · exact answered_range rfl ht hf ha (schedCommitGcl_rangeErr_of_badNsec _ _ hbad)
  · exact answered_range rfl ht hf ha (timePutSample_rangeErr_of_badNsec _ _ hbad)
  · exact answered_range rfl ht hf ha (twinSwapRoles_rangeErr_of_badNsec _ _ hasap hbad)

/-! ## Ring descriptors of length 0 (R24) -/

/-- An empty descriptor at the front of a fetched command ring only moves the ring on and is counted in DESC_SKIP: no packet is taken. -/
theorem fetchOn_empty {d : Desc} {rest : List Desc} {e : EngId} {s : State} (hbad : descBad d = false) (hok : d.pcieOk = true)
    (hlen : descLen d = 0) (hfit : engFitted s.part e = true) (hfetch : ringFetches (s.eng e) = true)
    (hpost : ((s.eng e).ring 0).posted = d :: rest) :
    fetchOn e s = some (s.modEng e fun x =>
      (x.modRing 0 fun q => { q with posted := rest, engineIdx := q.engineIdx + 1 }).bump 96) := by
  simp [fetchOn, hfit, hfetch, hpost, hbad, hok, hlen, State.modEng]

/-- An empty descriptor at the front of a send ring only moves the ring on, signals its completion and is counted in DESC_SKIP: no
frame is sent. -/
theorem sendFetch_empty {d : Desc} {rest : List Desc} {x : Engine} (p : Part) (e : EngId) {j : Nat} (draw : Nat) (hbad : descBad d = false)
    (hok : d.pcieOk = true) (hlen : descLen d = 0) (hpost : (x.ring (5 + j)).posted = d :: rest) :
    sendFetch p e j draw x =
      ((x.modRing (5 + j) fun q => { q with posted := rest, engineIdx := q.engineIdx + 1 }).irq 5).bump (101 + j) := by
  simp [sendFetch, hpost, hbad, hok, hlen]

/-- An empty buffer takes no word of the record: all of them go to the buffers after it. -/
theorem fillBuffers_cons_empty {d : Desc} (r : Nat) (rest : List Desc) (w : Word) (ws : List Word) (first : Bool) (x : Engine)
    (hlen : descLen d = 0) : fillBuffers r (d :: rest) (w :: ws) first x = fillBuffers r rest (w :: ws) first
      ((x.modRing r fun q => { q with posted := rest, engineIdx := q.engineIdx + 1 }).bump (96 + r)) := by
  rw [fillBuffers, if_pos hlen]

/-- Settles O14: by the ring, its command ring, a send ring, or a ring to the host. -/
theorem emptyDescriptorsAreSkipped : Obligations.EmptyDescriptorsAreSkipped := by
  intro d hbad hok hlen
  refine ⟨?command, ?send, ?toHost⟩
  case command =>
    intro e s rest hfit hfetch hpost
    exact fetchOn_empty hbad hok hlen hfit hfetch hpost
  case send =>
    intro p e j draw x rest hpost
    exact sendFetch_empty p e draw hbad hok hlen hpost
  case toHost =>
    intro r rest w ws first x
    exact fillBuffers_cons_empty r rest w ws first x hlen

end Sys2Proof
end

section
/-! The counters chapter's rule on chained pairs of counters (R402). -/

namespace Sys2Proof

open Sys2Proof.Machine

/-! ## Events on a chained pair -/

/-- The carry goes into the odd counter in the same update; marking a wrap changes no value. -/
theorem bumpBy_even_counters {c : StatsState} {i : Nat} (n : Nat) (hch : chainedPair c i = true) :
    (bumpBy n (2 * i) c).counters =
      put 0 (2 * i + 1) ((counter c (2 * i + 1) + (counter c (2 * i) + n) / 2 ^ 32) % 2 ^ 32)
        (put 0 (2 * i) ((counter c (2 * i) + n) % 2 ^ 32) c.counters) := by
  have hpair : 2 * i / 2 = i := by omega
  have heven : ¬ 2 * i % 2 = 1 := by omega
  simp only [bumpBy, hpair, if_pos hch, if_neg heven]
  split <;> split <;> rfl

theorem counter_bumpBy_low {c : StatsState} {i : Nat} (n : Nat) (hch : chainedPair c i = true) :
    counter (bumpBy n (2 * i) c) (2 * i) = (counter c (2 * i) + n) % 2 ^ 32 := by
  have hne : 2 * i ≠ 2 * i + 1 := by omega
  rw [counter, bumpBy_even_counters n hch, look_put, if_neg hne, look_put, if_pos rfl]

theorem counter_bumpBy_high {c : StatsState} {i : Nat} (n : Nat) (hch : chainedPair c i = true) :
    counter (bumpBy n (2 * i) c) (2 * i + 1) = (counter c (2 * i + 1) + (counter c (2 * i) + n) / 2 ^ 32) % 2 ^ 32 := by
  rw [counter, bumpBy_even_counters n hch, look_put, if_pos rfl]

theorem bumpBy_odd_of_chained {c : StatsState} {i : Nat} (n : Nat) (hch : chainedPair c i = true) :
    bumpBy n (2 * i + 1) c = c := by
  have hpair : (2 * i + 1) / 2 = i := by omega
  have hodd : (2 * i + 1) % 2 = 1 := by omega
  simp only [bumpBy, hpair, if_pos hch, if_pos hodd]

/-- Adding to the low of two 32-bit words, with the carry into the high one, adds to their 64-bit value; neither needs a bound. -/
theorem twoWords_add (lo hi n : Nat) :
    (lo + n) % 2 ^ 32 + 2 ^ 32 * ((hi + (lo + n) / 2 ^ 32) % 2 ^ 32) = (lo + 2 ^ 32 * hi + n) % 2 ^ 64 := by
  omega

/-! ## The pairs that are chained -/

theorem chainedByDefault_iff {i : Nat} (hi : i < 2048) :
    chainedByDefault i = true ↔ i = 21 ∨ i = 32 ∨ ∃ p, p < 34 ∧ (i = 144 + 56 * p ∨ i = 144 + 56 * p + 1) := by
  simp only [chainedByDefault, Bool.or_eq_true, Bool.and_eq_true, beq_iff_eq, decide_eq_true_eq]
  constructor
  · rintro ((h | h) | ⟨⟨hge, -⟩, hmod⟩)
    · exact .inl h
    · exact .inr (.inl h)
    · exact .inr (.inr ⟨(i - 144) / 56, by omega, by omega⟩)
  · rintro (h | h | ⟨p, -, h⟩)
    · exact .inl (.inl h)
    · exact .inl (.inr h)
    · exact .inr ⟨⟨by omega, hi⟩, by omega⟩

/-- No pair is set apart at reset: each is as its default says. -/
theorem chainedPair_statsReset (i : Nat) : chainedPair statsReset i = chainedByDefault i := rfl

/-! ## Chaining and unchaining -/

/-- Another entry reads as before, whatever default the table is kept with: that of a chain flag differs from pair to pair. -/
theorem look_put_of_ne {α : Type} [DecidableEq α] {d d' x : α} {k a : Nat} {t : List (Nat × α)} (h : a ≠ k) :
    look d a (put d' k x t) = look d a t := by
  unfold put
  split
  · rw [look_eraseAt, if_neg h]
  · rw [look_insertAt, if_neg h]

/-- Chaining `n + 1` pairs is chaining the first `n` and then one more. -/
theorem setChain_succ (on : Bool) (first n : Nat) (c : StatsState) :
    setChain on first (n + 1) c =
      { setChain on first n c with
        chained := put (chainedByDefault (first + n)) (first + n) on (setChain on first n c).chained } := by
  simp only [setChain, List.range_succ, List.foldl_append, List.foldl_cons, List.foldl_nil]

theorem counter_setChain (on : Bool) (first n k : Nat) (c : StatsState) : counter (setChain on first n c) k = counter c k := by
  induction n with
  | zero => rfl
  | succ n ih => rw [setChain_succ, counter, ← ih, counter]

/-- The pairs named are as the command says, and every other pair is as it was. -/
theorem chainedPair_setChain (on : Bool) (first n i : Nat) (c : StatsState) :
    chainedPair (setChain on first n c) i = if first ≤ i ∧ i < first + n then on else chainedPair c i := by
  induction n with
  | zero =>
    have hout : ¬ (first ≤ i ∧ i < first + 0) := by omega
    rw [if_neg hout]
    rfl
  | succ n ih =>
    rw [setChain_succ, chainedPair]
    by_cases hlast : i = first + n
    · subst hlast
      rw [look_put, if_pos rfl, if_pos (by omega)]
    · have hsame : (first ≤ i ∧ i < first + (n + 1)) ↔ (first ≤ i ∧ i < first + n) := by omega
      rw [look_put_of_ne hlast, ← chainedPair, ih]
      simp only [hsame]

/-- Settles O13: the events by the carry between the pair's two words, the pairs after reset by their defaults, chaining pair by pair. -/
theorem chainedPairsCountAsOne : Obligations.ChainedPairsCountAsOne := by
  refine ⟨?events, ?afterReset, ?chaining⟩
  case events =>
    intro c i n _ hch _ _
    refine ⟨?_, bumpBy_odd_of_chained n hch⟩
    simp only [counter_bumpBy_low n hch, counter_bumpBy_high n hch]
    exact twoWords_add _ _ n
  case afterReset =>
    intro i hi
    rw [chainedPair_statsReset]
    exact chainedByDefault_iff hi
  case chaining =>
    intro on first n c
    refine ⟨fun k => counter_setChain on first n k c, fun i hge hlt => ?_⟩
    rw [chainedPair_setChain, if_pos ⟨hge, hlt⟩]

end Sys2Proof
end

section
/-! The command interface chapter's rules on the unit that may execute a command (R421, R422), and on SYS.NOP and the parameter lengths
(R448). -/

namespace Sys2Proof

open Sys2Proof.Machine

/-! ## The rows that carry a command of Table 15.6 -/

theorem exec_of_commandOf {i : Instr} {sp : CmdSpec} {a : Arrival} {ps : List Word} (h : commandOf i = some (sp, a, ps)) (s : State) :
    exec i s = .next (takeCommand sp a ps s) := by
  cases i <;> cases h <;> rfl

theorem specOf_opcode_of_commandOf {i : Instr} {sp : CmdSpec} {a : Arrival} {ps : List Word} (h : commandOf i = some (sp, a, ps)) :
    specOf sp.opcode = some sp := by
  cases i <;> cases h <;> rfl

theorem mem_allSpecs_of_commandOf {i : Instr} {sp : CmdSpec} {a : Arrival} {ps : List Word} (h : commandOf i = some (sp, a, ps)) :
    sp ∈ allSpecs := List.mem_of_find?_eq_some (specOf_opcode_of_commandOf h)

/-- A command of the table that is taken at once and fails a check gets that check's status and body, and changes nothing else. -/
theorem answered_of_check {i : Instr} {sp : CmdSpec} {a : Arrival} {ps : List Word} {s : State} {u : UnitId} {fwd : Bool} {st : Status}
    {body : List Word} (hi : commandOf i = some (sp, a, ps)) (ht : Taken a s u fwd)
    (hc : check sp { unit := u, arrival := a, mirror := false } ps (begun a s) = some (st, body)) :
    Answered i s a u fwd sp.opcode st body := by
  rw [Answered, exec_of_commandOf hi, takeCommand_refused ht hc]

/-! ## The unit that may execute a command (R421, R422) -/

/-- The commands that the supervisor executes (R421). -/
def supervisorOpcodes : List (BitVec 16) :=
  [0x0101, 0x0105, 0x0B02, 0x0B03, 0x0B04, 0x0B05, 0x0C08, 0x0C09, 0x0F01, 0x0F02, 0x0F03, 0x0F04, 0x0F05]

/-- The commands marked in the standby column of Table 15.6 (R422). -/
def standbyOpcodes : List (BitVec 16) :=
  [0x0101, 0x0103, 0x0104, 0x0105, 0x0106, 0x0303, 0x0402, 0x0503, 0x0606, 0x0801, 0x0904, 0x0B01, 0x0C03,
    0x0D02, 0x0D03, 0x0D04, 0x0E01, 0x0E02, 0x0E05, 0x0F01, 0x0F02, 0x0F03, 0x0F04, 0x0F05]

theorem onSup_eq_mem_supervisorOpcodes : ∀ sp ∈ allSpecs, sp.onSup = decide (sp.opcode ∈ supervisorOpcodes) := by decide

theorem onStandby_eq_mem_standbyOpcodes : ∀ sp ∈ allSpecs, sp.onStandby = decide (sp.opcode ∈ standbyOpcodes) := by decide

/-- No engine executes FAULT.RELEASE or FAULT.READ_LOG (R421). -/
theorem engines_lack_release_and_readLog : ∀ sp ∈ allSpecs, sp.opcode = 0x0C08 ∨ sp.opcode = 0x0C09 →
    sp.onActive = false ∧ sp.onStandby = false := by decide

theorem roleErr_sup {sp : CmdSpec} (h : sp ∈ allSpecs) (s : State) : roleErr sp .sup s = !decide (sp.opcode ∈ supervisorOpcodes) := by
  rw [roleErr, onSup_eq_mem_supervisorOpcodes sp h]

theorem roleErr_standby {sp : CmdSpec} (h : sp ∈ allSpecs) {s : State} {e : EngId} (hrole : (s.eng e).core.role = 2) :
    roleErr sp (.eng e) s = !decide (sp.opcode ∈ standbyOpcodes) := by
  rw [roleErr, if_pos hrole, onStandby_eq_mem_standbyOpcodes sp h]

theorem roleErr_eng_of_release_or_readLog {sp : CmdSpec} (h : sp ∈ allSpecs) (hop : sp.opcode = 0x0C08 ∨ sp.opcode = 0x0C09)
    (e : EngId) (s : State) : roleErr sp (.eng e) s = true := by
  obtain ⟨hactive, hstandby⟩ := engines_lack_release_and_readLog sp h hop
  simp [roleErr, hactive, hstandby]

/-- A supervisor in its boot ROM is judged by its mode first (R460); elsewhere a well-formed packet that its unit may not take fails
the role check of Table 15.4 and no earlier one. -/
theorem check_eq_role {sp : CmdSpec} {c : Ctx} {ps : List Word} {s : State} (hf : Formed sp c ps s)
    (hrom : c.unit = .sup → s.sup.bootRom = false) (hr : roleErr sp c.unit s = true) : check sp c ps s = some (.role, []) := by
  have hmode : (s.sup.bootRom && decide (c.unit = .sup)) = false := by
    by_cases hu : c.unit = .sup
    · rw [hrom hu, Bool.false_and]
    · rw [decide_eq_false hu, Bool.and_false]
  simp [check, hf.length, hf.reserved, hf.present, hmode, hr]

/-- Settles O8: the role check of Table 15.4 reads the opcode of the supervisor's commands off the table, and passes
FAULT.RELEASE and FAULT.READ_LOG on no engine. -/
theorem supervisorExecutesItsCommands : Obligations.SupervisorExecutesItsCommands := by
  intro i sp a ps s fwd hi
  have hmem := mem_allSpecs_of_commandOf hi
  refine ⟨fun ht hf hrom => ⟨fun hop => ?executes, fun hop => ?others⟩, fun e ht hf hop => ?engine⟩
  case executes =>
    rw [roleErr_sup hmem, supervisorOpcodes, decide_eq_true hop, Bool.not_true]
  case others =>
    have hr : roleErr sp .sup (begun a s) = true := by
      rw [roleErr_sup hmem, supervisorOpcodes, decide_eq_false hop, Bool.not_false]
    exact answered_of_check hi ht (check_eq_role hf (fun _ => hrom) hr)
  case engine =>
    exact answered_of_check hi ht (check_eq_role hf nofun (roleErr_eng_of_release_or_readLog hmem hop e _))

/-- Settles O9: on a standby the role check reads the opcode off the table's standby column. -/
theorem standbyExecutesItsCommands : Obligations.StandbyExecutesItsCommands := by
  intro i sp a ps s e fwd hi ht hrole hf marked
  have hmem := mem_allSpecs_of_commandOf hi
  refine ⟨fun hop => ?executes, fun hop => ?others⟩
  case executes =>
    rw [roleErr_standby hmem hrole, standbyOpcodes, decide_eq_true hop, Bool.not_true]
  case others =>
    have hr : roleErr sp (.eng e) (begun a s) = true := by
      rw [roleErr_standby hmem hrole, standbyOpcodes, decide_eq_false hop, Bool.not_false]
    exact answered_of_check hi ht (check_eq_role hf nofun hr)

/-! ## Parameter lengths (check 10 of Table 15.4) -/

theorem check_eq_length {sp : CmdSpec} {c : Ctx} {ps : List Word} {s : State} (h : sp.lenOk c s ps = false) :
    check sp c ps s = some (.length, []) := by
  simp [check, h]

/-- The commands whose length depends on their parameters or on the state. -/
def variableLengthOpcodes : List (BitVec 16) :=
  [0x0105, 0x0106, 0x0401, 0x0403, 0x0405, 0x0509, 0x050A, 0x0603, 0x0703, 0x0F02]

/-- The commands whose layout takes no parameters (R448). -/
def parameterlessOpcodes : List (BitVec 16) := [0x0304, 0x0305, 0x0407, 0x0801, 0x0B01, 0x0E05, 0x0F01]

theorem filter_variableLength : allSpecs.filter (fun sp => decide (sp.opcode ∈ variableLengthOpcodes)) =
    [sysNopSpec, sysSetMgmtSpec, ruleWriteEntrySpec, ruleWriteProfileSpec, ruleFlipBankSpec, fwdSetSpreadSpec, fwdWriteIndirectSpec,
     queueSetMinSpec, schedWriteGclSpec, fwWriteImageSpec] := rfl

theorem filter_parameterless : allSpecs.filter (fun sp => decide (sp.opcode ∈ parameterlessOpcodes)) =
    [parseCommitSpec, parseLoadDefaultsSpec, ruleLoadDefaultsSpec, timeGetSpec, twinGetStateSpec, statsSnapNowSpec, fwGetInfoSpec] := rfl

theorem lenOk_fixedLength : ∀ sp ∈ allSpecs.filter (fun sp => decide (sp.opcode ∉ variableLengthOpcodes)), ∃ n, sp.lenOk = lenIs n := by
  repeat refine List.forall_mem_cons.mpr ⟨⟨_, rfl⟩, ?_⟩
  exact List.forall_mem_nil _

theorem lenOk_parameterless : ∀ sp ∈ allSpecs, sp.opcode ∈ parameterlessOpcodes → sp.lenOk = lenIs 0 := by
  have hnamed : ∀ sp ∈ allSpecs.filter (fun sp => decide (sp.opcode ∈ parameterlessOpcodes)), sp.lenOk = lenIs 0 := by
    rw [filter_parameterless]
    simp only [List.forall_mem_cons]
    exact ⟨rfl, rfl, rfl, rfl, rfl, rfl, rfl, List.forall_mem_nil _⟩
  exact fun sp h hop => hnamed sp (List.mem_filter.mpr ⟨h, decide_eq_true hop⟩)

/-- Some length within the 1,015 words of a packet is none that the command takes. -/
def LacksLength (sp : CmdSpec) : Prop :=
  ∃ n, n ≤ 1015 ∧ ∀ (c : Ctx) (s : State) (ps : List Word), ps.length = n → sp.lenOk c s ps = false

theorem lacksLength_of_lenIs {sp : CmdSpec} {n : Nat} (h : sp.lenOk = lenIs n) : LacksLength sp := by
  by_cases hn : n = 0
  · exact ⟨1, by omega, fun c s ps hl => by simp [h, lenIs, hl, hn]⟩
  · exact ⟨0, by omega, fun c s ps hl => by simp [h, lenIs, hl, Ne.symm hn]⟩

theorem lacksLength_of_nil {sp : CmdSpec} (h : ∀ (c : Ctx) (s : State), sp.lenOk c s [] = false) : LacksLength sp :=
  ⟨0, by omega, fun c s ps hl => by rw [List.eq_nil_of_length_eq_zero hl, h]⟩

theorem lacksLength_ruleFlipBank : LacksLength ruleFlipBankSpec :=
  ⟨2, by omega, fun c s ps hl => by simp [ruleFlipBankSpec, configSpec, hl]⟩

/-- Each but SYS.NOP needs a parameter word, or, RULE.FLIP_BANK, takes one at most. -/
theorem lacksLength_variableLength : ∀ sp ∈ [sysSetMgmtSpec, ruleWriteEntrySpec, ruleWriteProfileSpec, ruleFlipBankSpec, fwdSetSpreadSpec,
    fwdWriteIndirectSpec, queueSetMinSpec, schedWriteGclSpec, fwWriteImageSpec], LacksLength sp := by
  simp only [List.forall_mem_cons]
  refine ⟨lacksLength_of_nil ?_, lacksLength_of_nil ?_, lacksLength_of_nil ?_, lacksLength_ruleFlipBank, lacksLength_of_nil ?_,
    lacksLength_of_nil ?_, lacksLength_of_nil ?_, lacksLength_of_nil ?_, lacksLength_of_nil ?_, List.forall_mem_nil _⟩
  all_goals intro c s
  · simp [sysSetMgmtSpec, setupSpec]
    omega
  · simp [ruleWriteEntrySpec, configSpec]
    split <;> decide
  · simp [ruleWriteProfileSpec, configSpec]
    omega
  · simp [fwdSetSpreadSpec, configSpec]
    split <;> decide
  · simp [fwdWriteIndirectSpec, configSpec]
  · simp [queueSetMinSpec, portSpec]
    split <;> decide
  · simp [schedWriteGclSpec, portSpec]
  · simp [fwWriteImageSpec, fwSpec]

theorem lacksLength_of_ne_sysNop {sp : CmdSpec} (h : sp ∈ allSpecs) (hop : sp.opcode ≠ 0x0105) : LacksLength sp := by
  by_cases hvar : sp.opcode ∈ variableLengthOpcodes
  · have hmem : sp ∈ allSpecs.filter (fun sp => decide (sp.opcode ∈ variableLengthOpcodes)) :=
      List.mem_filter.mpr ⟨h, decide_eq_true hvar⟩
    rw [filter_variableLength] at hmem
    obtain rfl | hmem := List.mem_cons.mp hmem
    · exact absurd rfl hop
    · exact lacksLength_variableLength sp hmem
  · obtain ⟨n, hn⟩ := lenOk_fixedLength sp (List.mem_filter.mpr ⟨h, decide_eq_true hvar⟩)
    exact lacksLength_of_lenIs hn

theorem lenIs_zero (c : Ctx) (s : State) (ps : List Word) : lenIs 0 c s ps = decide (ps.length = 0) := rfl

/-! ## SYS.NOP (R448) -/

/-- No unit is ever in a mode that keeps SYS.NOP from it. -/
theorem stateErr_sysNop (u : UnitId) (s : State) : stateErr sysNopSpec u s = false := by
  cases u <;> simp [stateErr, sysNopSpec]

theorem roleErr_sysNop (u : UnitId) (s : State) : roleErr sysNopSpec u s = false := by
  cases u <;> simp [roleErr, sysNopSpec]

/-- It is answered by an engine that has given up, at every level of the standby, and while a fast scrub runs. -/
theorem lateChecks_sysNop (u : UnitId) (ps : List Word) (s : State) :
    givenUp sysNopSpec u s = false ∧ levelErr sysNopSpec u ps s = false ∧ scrubBusy sysNopSpec u s = false := by
  refine ⟨?_, ?_, ?_⟩
  · cases u <;> simp [givenUp, sysNopSpec]
  · cases u <;> cases hd : s.standby <;> simp [levelErr, hd, sysNopSpec]
  · cases u <;> simp [scrubBusy, sysNopSpec]

theorem check_sysNop {ps : List Word} (h : ps.length ≤ 1015) (c : Ctx) (s : State) : check sysNopSpec c ps s = none := by
  obtain ⟨hgiven, hlevel, hscrub⟩ := lateChecks_sysNop c.unit ps s
  have hlen : sysNopSpec.lenOk c s ps = true := decide_eq_true h
  have hrsvd : sysNopSpec.rsvdOk ps = true := rfl
  have habsent : sysNopSpec.absent s.part ps = false := rfl
  have hrange : sysNopSpec.rangeErr c ps s = none := rfl
  have hjudge : sysNopSpec.judge c ps s = none := rfl
  simp [check, hlen, hrsvd, habsent, stateErr_sysNop, roleErr_sysNop, hrange, hjudge, hgiven, hlevel, hscrub, statusIf]

/-- Its one effect is its reply. -/
theorem perform_sysNop (u : UnitId) (a : Arrival) (fwd : Bool) (ps : List Word) (s : State) :
    perform sysNopSpec u a fwd ps s = deliver a (replyNow u a 0x0105 fwd .ok ps s) s := by
  cases u <;> simp [perform, sysNopSpec, Applied.now]

theorem answered_sysNop {a : Arrival} {ps : List Word} {s : State} {u : UnitId} {fwd : Bool} (ht : Taken a s u fwd)
    (hlen : ps.length ≤ 1015) : Answered (.sysNop a ps) s a u fwd 0x0105 .ok ps := by
  rw [Answered, exec_of_commandOf rfl, takeCommand_taken ht (check_sysNop hlen _ _), perform_sysNop]

theorem answered_sysNop_tooLong {a : Arrival} {ps : List Word} {s : State} {u : UnitId} {fwd : Bool} (ht : Taken a s u fwd)
    (hlen : 1015 < ps.length) : Answered (.sysNop a ps) s a u fwd 0x0105 .length [] :=
  answered_of_check (sp := sysNopSpec) rfl ht (check_eq_length (decide_eq_false (Nat.not_le.mpr hlen)))

/-- Settles O11: SYS.NOP by the checks it passes, the other commands by their lengths. -/
theorem nopRepeatsItsParameters : Obligations.NopRepeatsItsParameters := by
  refine ⟨fun a ps s u fwd ht => ⟨answered_sysNop ht, answered_sysNop_tooLong ht⟩, fun sp h hop => lacksLength_of_ne_sysNop h hop,
    ?parameterless, ?tooLong⟩
  case parameterless =>
    intro sp h hop c s ps
    rw [lenOk_parameterless sp h hop, lenIs_zero]
  case tooLong =>
    intro i sp a ps s u fwd hi hop ht hps
    have hlen : sp.lenOk { unit := u, arrival := a, mirror := false } (begun a s) ps = false := by
      rw [lenOk_parameterless sp (mem_allSpecs_of_commandOf hi) hop, lenIs_zero]
      exact decide_eq_false (mt List.length_eq_zero_iff.mp hps)
    exact answered_of_check hi ht (check_eq_length hlen)

end Sys2Proof
end

section

-- Each of the model's tests waits for the kernel on a thread of its own, which takes the compile near its memory limit. So no proof below
-- is elaborated beside another, and the first one rests until the tests are done.
set_option Elab.async false

section
/-! The safety of the supply and of the start-up: every command completes, only the events of the supply move it, and every step keeps
the state legal (Tables 16.1 and 17.1). -/

namespace Sys2Proof

open Sys2Proof.Machine

/-! ## What a calm step keeps -/

/-- An engine that is in operation after a calm step was so before it, or has power and the part has it. -/
theorem awake_of_calm {s t : State} (h : Calm s t) {e : EngId} (ha : (t.eng e).awake = true) :
    (s.eng e).awake = true ∨ (s.power.railsUp = true ∧ engFitted s.part e = true) := by
  sleep 90000
  obtain hoff | hheld | hrest := h.phase e
  · simp [Engine.awake, hoff] at ha
  · simp [Engine.awake, hheld] at ha
  · exact hrest

theorem legal_of_calm {s t : State} (hs : Legal s) (h : Calm s t) : Legal t where
  awakeA ha := by
    rw [h.railsUp]
    obtain hold | ⟨hup, -⟩ := awake_of_calm h (e := .a) ha
    · exact hs.awakeA hold
    · exact hup
  awakeB hb := by
    rw [h.railsUp, h.part]
    obtain hold | hnew := awake_of_calm h (e := .b) hb
    · exact hs.awakeB hold
    · exact hnew
  good hg := h.railsUp ▸ hs.good (h.railsGood hg)
  rails hr := h.supplyValid ▸ hs.rails (h.railsUp ▸ hr)
  brown hv := h.brownOut ▸ hs.brown (h.supplyValid ▸ hv)
  last := by
    obtain hsame | ⟨hfive, -⟩ := h.startStep
    · exact hsame ▸ hs.last
    · exact hfive.le
  down hv := by
    have hdown : s.power.supplyValid = false := h.supplyValid ▸ hv
    obtain hsame | ⟨-, hup⟩ := h.startStep
    · exact hsame ▸ hs.down hdown
    · exact absurd (hs.rails hup) (by simp [hdown])
  up hr := by
    obtain hsame | ⟨hfive, -⟩ := h.startStep
    · exact hsame ▸ hs.up (h.railsUp ▸ hr)
    · omega

/-! ## What the five events of the supply do -/

theorem startSupply_valid {s : State} (h : s.power.supplyValid = true) : startSupply s = s := by simp [startSupply, h]

/-- The part and the queue, which the module never loses. -/
structure KeepsQueue (s t : State) : Prop where
  part : t.part = s.part
  pending : t.pending = s.pending

theorem keepsQueue_of_calm {s t : State} (h : Calm s t) : KeepsQueue s t := ⟨h.part, h.pending⟩

theorem startSupply_keepsQueue (s : State) : KeepsQueue s (startSupply s) := by
  unfold startSupply
  split
  · exact ⟨rfl, rfl⟩
  · dsimp only
    split <;> exact ⟨rfl, rfl⟩

/-- The supply's part of the start: the steering stands on engine A, at step 1 of Table 16.1. -/
def suppliedPower (s : State) : PowerState :=
  { s.power with supplyValid := true, brownOut := false, steer := .a, startStep := 1, cycled := false,
                 f4Held := s.power.f4Held && !s.power.cycled, alignerLow := s.power.f4Held && !s.power.cycled }

/-- An engine held in reset. -/
def heldEngine (x : Engine) : Engine := { x with core := { x.core with phase := .held } }

theorem startSupply_uncycled {s : State} (hv : s.power.supplyValid = false) (hc : s.power.cycled = false) :
    startSupply s = { s with power := suppliedPower s, engA := heldEngine s.engA, engB := heldEngine s.engB } := by
  unfold startSupply
  rw [if_neg (by simp [hv]), if_neg (by simp [hc])]
  simp only [suppliedPower, hc]
  rfl

theorem startSupply_cycled {s : State} (hv : s.power.supplyValid = false) (hc : s.power.cycled = true) :
    startSupply s = { s with
      power := suppliedPower s
      engA := clearRS (heldEngine s.engA)
      engB := clearRS (heldEngine s.engB)
      sup := { s.sup with viewA := { s.sup.viewA with fenced := false }, viewB := { s.sup.viewB with fenced := false } } } := by
  unfold startSupply
  rw [if_neg (by simp [hv]), if_pos (by simp [hc])]
  rfl

theorem startSupply_power {s : State} (hv : s.power.supplyValid = false) : (startSupply s).power = suppliedPower s := by
  cases hc : s.power.cycled
  · rw [startSupply_uncycled hv hc]
  · rw [startSupply_cycled hv hc]

theorem startSupply_phases {s : State} (hv : s.power.supplyValid = false) :
    (startSupply s).engA.core.phase = .held ∧ (startSupply s).engB.core.phase = .held := by
  cases hc : s.power.cycled
  · rw [startSupply_uncycled hv hc]; exact ⟨rfl, rfl⟩
  · rw [startSupply_cycled hv hc]; exact ⟨rfl, rfl⟩

theorem startSupply_legal {s : State} (hs : Legal s) : Legal (startSupply s) := by
  cases hv : s.power.supplyValid
  · have hrails : s.power.railsUp = false := by
      by_contra hr
      exact Bool.false_ne_true (hv.symm.trans (hs.rails (eq_true_of_ne_false hr)))
    have hgood : s.power.railsGood = false := by
      by_contra hg
      exact Bool.false_ne_true (hrails.symm.trans (hs.good (eq_true_of_ne_false hg)))
    obtain ⟨hA, hB⟩ := startSupply_phases hv
    constructor <;> simp [startSupply_power hv, suppliedPower, Engine.awake, hA, hB, hrails, hgood]
  · rwa [startSupply_valid hv]

theorem loseRails_keepsQueue (brown : Bool) (s : State) : KeepsQueue s (loseRails brown s) :=
  have h : Calm s (cutBurns (abandonAll s)) := cutBurns_calm _ (abandonAll_calm _ (calm_refl s))
  ⟨h.part, h.pending⟩

theorem loseRails_legal (brown : Bool) (s : State) : Legal (loseRails brown s) := by
  constructor <;> simp [loseRails, engineUnpowered, Engine.awake]

/-- The supervisor's part of the start-up: step 2 of Table 16.1 is reached, and nothing else of the supply moves. -/
def reachStep2 (s : State) : State := { s with power := { s.power with startStep := max s.power.startStep 2 } }

theorem reachStep2_legal {s : State} (hs : Legal s) (hv : s.power.supplyValid = true) : Legal (reachStep2 s) where
  awakeA := hs.awakeA
  awakeB := hs.awakeB
  good := hs.good
  rails := hs.rails
  brown := hs.brown
  last := by
    have hlast := hs.last
    show max s.power.startStep 2 ≤ 5
    omega
  down hd := by
    have hd' : s.power.supplyValid = false := hd
    simp [hv] at hd'
  up hr := by
    have hup := hs.up hr
    show 4 ≤ max s.power.startStep 2
    omega

theorem execSupervisorBoot_cases {s t : State} (h : execSupervisorBoot s = .next t) :
    t = s ∨ (s.power.supplyValid = true ∧ Calm (reachStep2 (bootUnit .sup s)) t) := by
  unfold execSupervisorBoot at h
  split at h
  · exact .inl (Host.Outcome.next.inj h).symm
  next hstart =>
    have hv : s.power.supplyValid = true := by
      simp only [Bool.or_eq_true, Bool.not_eq_true', not_or] at hstart
      exact eq_true_of_ne_false hstart.1
    dsimp only at h
    split at h
    all_goals
      obtain rfl := Host.Outcome.next.inj h
      refine .inr ⟨hv, ?_⟩
    · exact mk_calm.mpr (parts_calm (calm_refl (reachStep2 (bootUnit .sup s))))
    · refine judgeGrants_calm _ (judgeLevel_calm _ _ (judgeLevel_calm _ _ (reportRoles_calm _ ?_)))
      exact mk_calm.mpr (parts_calm (calm_refl (reachStep2 (bootUnit .sup s))))

theorem execRailSequenceDone_cases {s t : State} (h : execRailSequenceDone s = .next t) :
    t = s ∨ (s.power.supplyValid = true ∧ t.part = s.part ∧ t.pending = s.pending
      ∧ t.power = { s.power with railsUp := true, railsGood := true, charging := !s.power.onHoldup, steer := .a, startStep := 4 }
      ∧ t.engA.core = s.engA.core ∧ t.engB.core = s.engB.core) := by
  unfold execRailSequenceDone at h
  split at h
  next hc =>
    simp only [Bool.and_eq_true] at hc
    obtain ⟨⟨-, hv⟩, -⟩ := hc
    obtain rfl := Host.Outcome.next.inj h
    exact .inr ⟨hv, rfl, rfl, rfl, rfl, rfl⟩
  · exact .inl (Host.Outcome.next.inj h).symm

/-- The five events of the supply. -/
theorem eq_of_switchesSupply {c : Instr} (h : switchesSupply c ≠ false) :
    c = .supplyValid ∨ c = .brownOut ∨ c = .thermalShutdown ∨ c = .supervisorBoot ∨ c = .railSequenceDone := by
  cases c
  case supplyValid => exact .inl rfl
  case brownOut => exact .inr (.inl rfl)
  case thermalShutdown => exact .inr (.inr (.inl rfl))
  case supervisorBoot => exact .inr (.inr (.inr (.inl rfl)))
  case railSequenceDone => exact .inr (.inr (.inr (.inr rfl)))
  all_goals exact absurd rfl h

theorem exec_keepsQueue {c : Instr} {s t : State} (h : exec c s = .next t) : KeepsQueue s t := by
  by_cases hc : switchesSupply c = false
  · exact keepsQueue_of_calm ((exec_fine c s hc).calm t h)
  have lost (h : Host.Outcome.next (if s.power.supplyValid = true then loseRails true s else s) = (.next t : Host.Outcome State Fault Refusal)) :
      KeepsQueue s t := by
    obtain rfl := Host.Outcome.next.inj h
    split
    · exact loseRails_keepsQueue true s
    · exact ⟨rfl, rfl⟩
  obtain rfl | rfl | rfl | rfl | rfl := eq_of_switchesSupply hc
  · exact Host.Outcome.next.inj h ▸ startSupply_keepsQueue s
  · exact lost h
  · exact lost h
  · obtain rfl | ⟨-, hcalm⟩ := execSupervisorBoot_cases h
    · exact ⟨rfl, rfl⟩
    · have hboot := bootUnit_calm .sup s (calm_refl s)
      exact ⟨hcalm.part.trans hboot.part, hcalm.pending.trans hboot.pending⟩
  · obtain rfl | ⟨-, hpart, hpending, -⟩ := execRailSequenceDone_cases h
    · exact ⟨rfl, rfl⟩
    · exact ⟨hpart, hpending⟩

theorem exec_legal {c : Instr} {s t : State} (hs : Legal s) (h : exec c s = .next t) : Legal t := by
  by_cases hc : switchesSupply c = false
  · exact legal_of_calm hs ((exec_fine c s hc).calm t h)
  have lost (h : Host.Outcome.next (if s.power.supplyValid = true then loseRails true s else s) = (.next t : Host.Outcome State Fault Refusal)) :
      Legal t := by
    obtain rfl := Host.Outcome.next.inj h
    split
    · exact loseRails_legal true s
    · exact hs
  obtain rfl | rfl | rfl | rfl | rfl := eq_of_switchesSupply hc
  · exact Host.Outcome.next.inj h ▸ startSupply_legal hs
  · exact lost h
  · exact lost h
  · obtain rfl | ⟨hv, hcalm⟩ := execSupervisorBoot_cases h
    · exact hs
    · have hboot := bootUnit_calm .sup s (calm_refl s)
      exact legal_of_calm (reachStep2_legal (legal_of_calm hs hboot) (hboot.supplyValid.trans hv)) hcalm
  · obtain rfl | ⟨hv, hpart, -, hpower, hcoreA, hcoreB⟩ := execRailSequenceDone_cases h
    · exact hs
    · have hbrown := hs.brown hv
      constructor <;> simp [hpower, hv, hbrown, hpart]
      intro hb
      have hb' : s.engB.awake = true := by simpa only [Engine.awake, hcoreB] using hb
      exact (hs.awakeB hb').2

theorem legal_of_pending {s : State} (rest : List Instr) (hs : Legal s) : Legal { s with pending := rest } :=
  ⟨hs.awakeA, hs.awakeB, hs.good, hs.rails, hs.brown, hs.last, hs.down, hs.up⟩

/-- Settles O4: a tick and every command but the five of the supply are calm, and each of the five keeps the tables' order. -/
theorem everyStepKeepsTheStateLegal : Obligations.EveryStepKeepsTheStateLegal := by
  intro s t hs h
  unfold step at h
  split at h
  · exact Host.Outcome.next.inj h ▸ legal_of_calm hs (tick_calm s (calm_refl s))
  · exact exec_legal (legal_of_pending _ hs) h

/-- Settles O6: all that a calm command may do to the supply. -/
theorem supplyMovesOnlyByItsEvents : Obligations.SupplyMovesOnlyByItsEvents := by
  intro c s t hvalid hbrown hthermal hboot hrails h
  have hc : switchesSupply c = false := by
    by_contra hc
    obtain rfl | rfl | rfl | rfl | rfl := eq_of_switchesSupply hc
    · exact hvalid rfl
    · exact hbrown rfl
    · exact hthermal rfl
    · exact hboot rfl
    · exact hrails rfl
  have hcalm := (exec_fine c s hc).calm t h
  refine ⟨hcalm.supplyValid, hcalm.brownOut, hcalm.railsUp, hcalm.railsGood, hcalm.startStep, fun e ha => ?_⟩
  exact (awake_of_calm hcalm ha).imp_right And.left

/-! ## Every command completes -/

/-- An outcome that is a next state, or the refusal of a unit that the part lacks. -/
def Completes (s : State) (o : Host.Outcome State Fault Refusal) : Prop :=
  (∃ t, o = .next t) ∨ (o = .refused .noSuchUnit ∧ twinPart s.part = false)

theorem next_completes (s t : State) : Completes s (.next t) := .inl ⟨t, rfl⟩

/-- Every part has engine A. -/
theorem twinPart_of_not_fitted {p : Part} {e : EngId} (h : ¬ engFitted p e = true) : twinPart p = false := by
  cases e
  · exact absurd rfl h
  · exact eq_false_of_ne_true h

theorem onEngine_completes (e : EngId) (s : State) (f : State → State) : Completes s (onEngine e s f) := by
  unfold onEngine
  split
  · split <;> exact next_completes s _
  next hfit => exact .inr ⟨rfl, twinPart_of_not_fitted hfit⟩

theorem fitted_completes (e : EngId) (s t : State) :
    Completes s (if engFitted s.part e = true then .next t else .refused .noSuchUnit) := by
  split
  · exact next_completes s t
  next hfit => exact .inr ⟨rfl, twinPart_of_not_fitted hfit⟩

theorem onTwin_completes (s : State) (f : State → State) : Completes s (onTwin s f) := by
  unfold onTwin
  split
  · exact next_completes s _
  next htwin => exact .inr ⟨rfl, eq_false_of_ne_true htwin⟩

theorem onUnit_completes (u : UnitId) (s : State) (f : State → State) : Completes s (onUnit u s f) := by
  cases u with
  | sup => exact next_completes s _
  | eng e => exact fitted_completes e s _

theorem settledOut_completes {s : State} {o : Host.Outcome State Fault Refusal} (h : Completes s o) : Completes s (settledOut o) := by
  obtain ⟨t, rfl⟩ | ⟨rfl, htwin⟩ := h
  · exact next_completes s (settled t)
  · exact .inr ⟨rfl, htwin⟩

theorem ite_completes {s : State} {c : Prop} [Decidable c] {o o' : Host.Outcome State Fault Refusal} (h : Completes s o) (h' : Completes s o') :
    Completes s (if c then o else o') := by
  split
  · exact h
  · exact h'

theorem rowHeartbeatLoss_completes (p : BeatPath) (s : State) : Completes s (rowHeartbeatLoss p s) := by
  cases p with
  | toSup e => exact onEngine_completes e s _
  | toEng e => exact onEngine_completes e s _
  | fof e => exact onTwin_completes s _

theorem execSupervisorBoot_completes (s : State) : Completes s (execSupervisorBoot s) :=
  ite_completes (next_completes s _) (ite_completes (next_completes s _) (next_completes s _))

theorem execEngineBoot_completes (e : EngId) (bad : List Nat) (s : State) : Completes s (execEngineBoot e bad s) := by
  unfold execEngineBoot
  split
  next hfit => exact .inr ⟨rfl, twinPart_of_not_fitted (by simpa using hfit)⟩
  · exact ite_completes (next_completes s _) (ite_completes (next_completes s _)
      (ite_completes (next_completes s _) (ite_completes (next_completes s _) (ite_completes (next_completes s _) (next_completes s _)))))

/-- Every row of the table but a few is an effect as it stands, or one inside an engine, between the twins or inside a unit, with or without
what follows on the channels. -/
theorem exec_completes (c : Instr) (s : State) : Completes s (exec c s) := by
  cases c
  case heartbeatLoss p => exact settledOut_completes (rowHeartbeatLoss_completes p s)
  case supervisorBoot => exact execSupervisorBoot_completes s
  case railSequenceDone => exact ite_completes (next_completes s _) (next_completes s _)
  case engineBoot e bad => exact execEngineBoot_completes e bad s
  case engineLeaveReset e => exact fitted_completes e s _
  case governorSample e => exact settledOut_completes (ite_completes (next_completes s _) (onEngine_completes e s _))
  case speedMonitorWindow e speeds => exact ite_completes (next_completes s _) (onEngine_completes e s _)
  all_goals dsimp only [exec]
  all_goals first
    | exact next_completes s _
    | exact onEngine_completes _ s _
    | exact onTwin_completes s _
    | exact onUnit_completes _ s _
    | exact settledOut_completes (next_completes s _)
    | exact settledOut_completes (onEngine_completes _ s _)
    | exact settledOut_completes (onTwin_completes s _)
    | exact settledOut_completes (onUnit_completes _ s _)

/-- Settles O5: the rows by their shape, what they leave alone by calmness. -/
theorem everyCommandCompletes : Obligations.EveryCommandCompletes := by
  refine ⟨exec_completes, fun c s t h => ?_⟩
  have hkeeps := exec_keepsQueue h
  exact ⟨hkeeps.part, hkeeps.pending⟩

end Sys2Proof
end

section
/-! One step, the state after reset, the packet checks and target resolution, the time counter, the mailbox memory, and the states in which
the channels are at rest. -/

namespace Sys2Proof

open Sys2Proof.Machine

/-! ## One step -/

/-- Settles O1: the queue's front is what a step matches on. -/
theorem stepRunsFrontCommand : Obligations.StepRunsFrontCommand := by
  intro s c rest h
  rw [step, h]

/-- Settles O2: a tick passes one cycle on each engine; the table spells no command. -/
theorem idleStepIsOneTick : Obligations.IdleStepIsOneTick := by
  refine ⟨fun s h => ?_, fun s n w => ⟨rfl, rfl⟩⟩
  have hcycle : passEngine 1 = fun x => if x.awake = true then { x with time := passTime x.clk.fallback 1 x.time } else x := rfl
  simp only [step, h, tick, Machine.pass, hcycle]

theorem timeReset_edge : ∀ n : Fin 8, timeReset.evtIn[n].edge = 0 := by decide

theorem reset_legal : Legal State.reset where
  awakeA h := absurd h Bool.false_ne_true
  awakeB h := absurd h Bool.false_ne_true
  good h := absurd h Bool.false_ne_true
  rails h := absurd h Bool.false_ne_true
  brown h := absurd h Bool.false_ne_true
  last := Nat.zero_le 5
  down _ := rfl
  up h := absurd h Bool.false_ne_true

/-- Settles O3: the reset state read off field by field, engine by engine. -/
theorem resetIsLegal : Obligations.ResetIsLegal := by
  refine ⟨reset_legal, rfl, rfl, rfl, fun e => ?_⟩
  have heng : State.reset.eng e = engineReset e := by cases e <;> rfl
  simp only [heng]
  exact ⟨rfl, rfl, timeReset_edge, rfl, rfl, rfl, rfl, rfl, rfl, rfl⟩

/-! ## Packets that are refused, and targets (Tables 15.4 and 15.5) -/

/-- A packet that its channel takes, but whose target cannot be reached, is answered where it arrived. -/
theorem submit_unreachable {sp : CmdSpec} {a : Arrival} {ps : List Word} {s : State} {st : Status} (hopen : channelOpen a s = true)
    (hfresh : (tagsOf a s).contains a.tag = false) (hroom : (tagsOf a s).length < 64)
    (hunheard : (replayOf a s).find? (fun q => q.reply.tag = a.tag && q.crc = a.crc) = none) (hfence : a.fence = false)
    (hroute : route a (begun a s) = .fail st) :
    submit sp a ps s = deliver a (replyNow a.via a sp.opcode false st [] (begun a s)) (begun a s) := by
  have hn : ¬ (tagsOf a s).length ≥ 64 := Nat.not_le.mpr hroom
  unfold begun at hroute ⊢
  simp only [submit, hopen, accept, intake, hfresh, hunheard, hfence, routeExec, hroute, hn, if_true, if_false, decide_false,
    Bool.false_and, Bool.false_eq_true]

/-- Settles O7: by the check that fails, by the route that does, or by the closed channel. -/
theorem refusedCommandsChangeNothing : Obligations.RefusedCommandsChangeNothing := by
  intro i sp a ps s hi
  refine ⟨fun u fwd st body ht hc => answered_of_check hi ht hc, fun st hopen hfresh hroom hunheard hfence hroute => ?unreachable,
    fun hclosed => ?closed⟩
  case unreachable =>
    rw [Answered, exec_of_commandOf hi, takeCommand, submit_unreachable hopen hfresh hroom hunheard hfence hroute]
  case closed =>
    rw [exec_of_commandOf hi, takeCommand, submit, hclosed, if_neg Bool.false_ne_true]

/-- Settles O10: by the target, row by row of Table 15.5. -/
theorem targetsResolve : Obligations.TargetsResolve := by
  intro a s
  refine ⟨?sup, ?engA, ?noB, ?engB, ?onlyA, ?active, ?switching, ?unreachable⟩
  case sup => intro ht hp; simp [route, ht, hp, eq_comm]
  case engA => intro ht hp; simp [route, ht, hp, eq_comm]
  case noB => intro ht hpart; simp [route, ht, hpart]
  case engB => intro ht hpart hp; simp [route, ht, hpart, hp, eq_comm]
  case onlyA => intro ht hpart hp; simp [route, ht, hpart, hp, eq_comm]
  case active => intro ht hpart e he hp; simp [route, ht, hpart, he, hp, eq_comm]
  case switching => intro ht hpart he hs; simp [route, ht, hpart, he, hs]
  case unreachable =>
    rintro u hp (⟨ht, rfl⟩ | ⟨ht, rfl⟩)
    · simp [route, ht, hp]
    · simp [route, ht, hp]

/-! ## The time counter (R66) -/

/-- Without a slew a D1 cycle adds INC. -/
theorem passTime_one_idle {fb : Bool} {t : TimeState} (h : t.slew = none) :
    (passTime fb 1 t).dev = (t.dev + t.inc) % devMod ∧ (passTime fb 1 t).inc = t.inc := by
  simp [passTime, h]

/-- A slew that moves SYN-T leaves what a cycle adds alone (R72). -/
theorem passTime_one_synt {t : TimeState} {w : Slew} (h : t.slew = some w) (hsub : t.subUnit < 1000000000000) :
    (passTime false 1 t).dev = (t.dev + t.inc) % devMod ∧ (passTime false 1 t).inc = t.inc := by
  have hcarry : ((t.subUnit : Int) + 0) / 1000000000000 = 0 := by omega
  have hdev : (((t.dev + 1 * t.inc : Nat) : Int) % (devMod : Int)).toNat = (t.dev + t.inc) % devMod := by
    rw [Nat.one_mul, ← Int.natCast_mod, Int.toNat_natCast]
  refine ⟨?_, by simp [passTime, h]⟩
  simp only [passTime, h, Bool.false_eq_true, if_false, hcarry]
  rw [Int.add_zero]
  exact hdev

/-- Settles O15: a cycle by its slew, a reading by division. -/
theorem timeCounterAddsInc : Obligations.TimeCounterAddsInc := by
  refine ⟨fun fb t hslew hsub => ?cycle, fun t hdev => ?reading⟩
  case cycle =>
    cases hs : t.slew with
    | none => exact passTime_one_idle hs
    | some w =>
      obtain hnone | rfl := hslew
      · exact absurd hnone (by simp [hs])
      · exact passTime_one_synt hs hsub
  case reading =>
    simp only [secOf, nsecOf, fracOf, TimeState.now16]
    omega

/-! ## The mailbox memory -/

theorem Memory.read_writes {vs : List Byte} : ∀ {m : List Host.Cell} {a b : Nat},
    Memory.read (Memory.writes m a vs) b = if a ≤ b ∧ b < a + vs.length then vs.getD (b - a) 0 else Memory.read m b := by
  induction vs with
  | nil =>
    intro m a b
    rw [if_neg (by rw [List.length_nil]; omega)]
    rfl
  | cons v vs ih =>
    intro m a b
    rw [Memory.writes, ih, Memory.read_write, List.length_cons]
    by_cases hb : b = a
    · subst hb
      simp
    · by_cases hin : a + 1 ≤ b ∧ b < a + 1 + vs.length
      · have hsub : b - a = (b - (a + 1)) + 1 := by omega
        rw [if_pos hin, if_pos (by omega), hsub, List.getD_cons_succ]
      · rw [if_neg hin, if_neg hb, if_neg (by omega)]

/-- Settles O16: one byte by the table's read after a write, many by induction on them. -/
theorem mailboxMemoryReadsWhatWasWritten : Obligations.MailboxMemoryReadsWhatWasWritten :=
  ⟨fun _ _ _ _ hm => ⟨Memory.wf_write hm, Memory.read_write⟩, fun _ _ _ _ hm => ⟨Memory.wf_writes hm, Memory.read_writes⟩⟩

/-! ## Channels at rest -/

theorem flushWaiting_idle {e : EngId} {s : State} (h : (s.eng e).host.waiting = []) : flushWaiting e s = s := by
  have hsame : (s.modEng e fun x => { x with host := { x.host with waiting := x.host.waiting.filter fun w => !w.done } }) = s := by
    rw [State.modEng, h, List.filter_nil, ← h]
    exact setEng_self s e
  rw [flushWaiting, hsame, h]
  rfl

theorem complete_idle {e : EngId} {c : Await} {st : Status} {body : Engine → Waiting → List Word} {s : State}
    (h : (s.eng e).host.waiting = []) : complete e c st body s = s := by
  have hsame : s.setEng e { s.eng e with host := { (s.eng e).host with
      waiting := (s.eng e).host.waiting.map fun w => finish c st (s.eng e).now (s.eng e).host.cfgGen (body (s.eng e) w) w } } = s := by
    rw [h, List.map_nil, ← h]
    exact setEng_self s e
  rw [complete, hsame, flushWaiting_idle h]

theorem flushSup_idle {s : State} (h : s.sup.waiting = []) : flushSup s = s := by
  have hsame : ({ s with sup := { s.sup with waiting := s.sup.waiting.filter fun w => !w.done } } : State) = s := by
    rw [h, List.filter_nil, ← h]
  rw [flushSup, hsame, h]
  rfl

theorem tieGraph_idle {s : State} (h : (splitGraph s.fof.commits).1 = []) : tieGraph s = s := by
  unfold tieGraph
  split
  · rfl
  · simp [h]

theorem finishPace_idle {s : State} (ha : s.engA.host.waiting = []) (hb : s.engB.host.waiting = []) : finishPace s = s := by
  rw [finishPace, complete_idle (e := .a) ha, complete_idle (e := .b) hb]

theorem flushAll_idle {s : State} (h : Quiet s) : flushAll s = s := by
  have hpace : (if allSettled s = true then finishPace s else s) = s := by
    rw [finishPace_idle h.waitA h.waitB, ite_self]
  rw [flushAll, tieGraph_idle h.graph]
  rw [hpace, flushWaiting_idle (e := .a) h.waitA, flushWaiting_idle (e := .b) h.waitB, flushSup_idle h.waitS]

/-- Settles O17: nothing is flushed, and no channel has a step to take. -/
theorem quietStatesAreSettled : Obligations.QuietStatesAreSettled := by
  intro s h
  rw [settled, flushAll_idle h]
  cases channelFuel s with
  | zero => rfl
  | succ n => simp [channelRun, h.rest]

end Sys2Proof
end

section
/-! How a row of the table is read: a host command through its effect, an event through the unit in which it happens. -/

namespace Sys2Proof

open Sys2Proof.Machine

/-- A command of the table does what its effect says. -/
theorem commandDoes_of_apply {sp : CmdSpec} {i : Arrival → List Word → Instr} {eff : Ctx → List Word → State → Applied}
    (hi : ∀ a ps, commandOf (i a ps) = some (sp, a, ps)) (happly : sp.apply = eff) : CommandDoes sp i eff := by
  subst happly
  intro a ps s u fwd ht hc
  rw [exec_of_commandOf (hi a ps), takeCommand_taken ht hc]

/-- The same, of an effect that agrees with the command's own where it is executed. -/
theorem commandDoes_of_apply_eq {sp : CmdSpec} {i : Arrival → List Word → Instr} {eff : Ctx → List Word → State → Applied}
    (hi : ∀ a ps, commandOf (i a ps) = some (sp, a, ps)) (happly : ∀ c ps s, sp.apply c ps s = eff c ps s) : CommandDoes sp i eff :=
  commandDoes_of_apply hi (funext fun c => funext fun ps => funext fun s => happly c ps s)

/-- An event inside an engine in operation is its effect. -/
theorem onEngine_inOperation {e : EngId} {s : State} (h : InOperation s e) (f : State → State) : onEngine e s f = .next (f s) :=
  onEngine_awake h.fitted h.awake f

theorem does_of_onEngine {i : EngId → Instr} {f : EngId → State → State} (hi : ∀ e s, exec (i e) s = onEngine e s (f e)) : Does i f :=
  fun e s h => (hi e s).trans (onEngine_inOperation h (f e))

theorem changes_of_onEngine {i : EngId → Instr} {f : Engine → Engine}
    (hi : ∀ e s, exec (i e) s = onEngine e s fun s => s.modEng e f) : Changes i f :=
  fun e s h => (hi e s).trans (onEngine_inOperation h _)

theorem doesThenSettles_of_onEngine {i : EngId → Instr} {f : EngId → State → State}
    (hi : ∀ e s, exec (i e) s = settledOut (onEngine e s (f e))) : DoesThenSettles i f := by
  intro e s h
  rw [hi, onEngine_inOperation h]
  rfl

end Sys2Proof
end

section
/-! Vectors: what is read of one after a change of one element or of all. -/

namespace Sys2Proof.Machine

variable {α : Type} {n : Nat}

theorem vget_of_lt (v : Vector α n) (d : α) {i : Nat} (h : i < n) : vget v d i = v[i] := by
  simp [vget, Array.getD, h]

theorem vget_fin (v : Vector α n) (d : α) (i : Fin n) : vget v d i.val = v[i] := vget_of_lt v d i.isLt

@[simp] theorem getElem_vset_self (v : Vector α n) (i : Fin n) (x : α) : (vset v i x)[i] = x := by
  simp [vset]

theorem getElem_vset_ne (v : Vector α n) {i j : Fin n} (h : j ≠ i) (x : α) : (vset v i x)[j] = v[j] := by
  simp only [vset, Fin.getElem_fin]
  exact Vector.getElem_set_ne i.isLt j.isLt fun hij => h (Fin.ext hij.symm)

@[simp] theorem vmodN_fin (v : Vector α n) (i : Fin n) (f : α → α) : vmodN v i.val f = vset v i (f v[i]) := by
  simp [vmodN, vmod]

theorem vget_vmodN_self (v : Vector α n) (d : α) {i : Nat} (h : i < n) (f : α → α) : vget (vmodN v i f) d i = f (vget v d i) := by
  have hfin := vmodN_fin v ⟨i, h⟩ f
  simp only at hfin
  rw [hfin, vget_of_lt _ _ h, vget_of_lt _ _ h]
  exact getElem_vset_self v ⟨i, h⟩ _

theorem vget_vmodN_ne (v : Vector α n) (d : α) {i j : Nat} (h : j ≠ i) (f : α → α) : vget (vmodN v i f) d j = vget v d j := by
  by_cases hi : i < n
  · simp [vget, vmodN, hi, vmod, vset, Array.getD_eq_getD_getElem?, Array.getElem?_set_ne, Ne.symm h]
  · simp [vmodN, hi]

theorem vget_map (v : Vector α n) (d : α) {i : Nat} (h : i < n) (f : α → α) : vget (v.map f) d i = f (vget v d i) := by
  rw [vget_of_lt _ _ h, vget_of_lt _ _ h, Vector.getElem_map]

end Sys2Proof.Machine
end

section
/-! What the host commands do once they have passed their checks: the chapters' command tables. -/

namespace Sys2Proof

open Sys2Proof.Machine

/-! ## What the commands set -/

/-- SYS.SET_IRQ sets the enables and the moderation, and gives or drops what was held back. -/
theorem setIrq_fields (ps : List Word) (q : IrqState) :
    (setIrq ps q).enable = (par ps 0).setWidth 16 ∧ (setIrq ps q).msi = flag (par ps 1) 1 ∧ (setIrq ps q).pin = flag (par ps 1) 0
      ∧ (setIrq ps q).modUs = (par ps 2).toNat ∧ (setIrq ps q).status = q.status := by
  unfold setIrq
  dsimp only
  split <;> exact ⟨rfl, rfl, rfl, rfl, rfl⟩

theorem setIrq_held_disabled (ps : List Word) (q : IrqState) {b : Nat} (h : (par ps 0).getLsbD b = false) :
    (setIrq ps q).held.getLsbD b = false := by
  unfold setIrq
  dsimp only
  split <;> simp [h]

theorem setIrq_unmoderated {ps : List Word} (h : par ps 2 = 0) (q : IrqState) : (setIrq ps q).running = 0 ∧ (setIrq ps q).held = 0 := by
  have hzero : (par ps 2).toNat = 0 := by rw [h]; rfl
  simp [setIrq, hzero]

/-- Whether a lane's delays have been put aside in the present cycle. -/
def boardPending (t : TimeState) (l : Nat) : Option BoardOld := t.boardOld.find? fun k => k.lane = l && k.cycle = t.tbCycles

/-- What is put aside for a lane within a cycle stays so: the first change puts the delays aside, a later one leaves them. -/
theorem find?_setBoard (l : Nat) (rx tx : Int) (t : TimeState) :
    (setBoard l rx tx t).boardOld.find? (fun k => k.lane = l && k.cycle = t.tbCycles)
      = some ((boardPending t l).getD { lane := l, cycle := t.tbCycles, rx := vget t.rxBoard 0 l, tx := vget t.txBoard 0 l }) := by
  have hkept : (t.boardOld.filter fun k => decide (k.cycle = t.tbCycles)).find? (fun k => k.lane = l && k.cycle = t.tbCycles)
      = boardPending t l := by
    rw [List.find?_filter, boardPending]
    congr 1
    funext k
    by_cases hc : k.cycle = t.tbCycles <;> simp [hc]
  unfold setBoard
  dsimp only
  split
  next hany =>
    rw [hkept]
    cases hp : boardPending t l with
    | some k => rfl
    | none =>
      obtain ⟨k, hk, hlane⟩ := List.any_eq_true.mp hany
      obtain ⟨hmem, hcycle⟩ := List.mem_filter.mp hk
      have hnone := List.find?_eq_none.mp hp k hmem
      simp_all
  next hany =>
    have hp : boardPending t l = none := by
      rw [← hkept]
      refine List.find?_eq_none.mpr fun k hk hsame => hany (List.any_eq_true.mpr ⟨k, hk, ?_⟩)
      simp_all
    rw [List.find?_append, hkept, hp]
    simp

/-- Within the present cycle a stamp uses the delays from before, which the first change of the cycle has put aside (R86). -/
theorem setBoard_present (l : Nat) (rx tx : Int) (t : TimeState) (dir : Nat) : (setBoard l rx tx t).board l dir = t.board l dir := by
  have hcycle : (setBoard l rx tx t).tbCycles = t.tbCycles := rfl
  unfold TimeState.board
  rw [hcycle, find?_setBoard, ← boardPending]
  cases boardPending t l <;> rfl

/-- In a later cycle it uses the new ones. -/
theorem setBoard_later {l : Nat} (hl : l < 32) (rx tx : Int) {n : Nat} {t : TimeState} (h : t.tbCycles < n) (dir : Nat) :
    ({ setBoard l rx tx t with tbCycles := n } : TimeState).board l dir = if dir = 0 then rx else tx := by
  have hold : ∀ k ∈ (setBoard l rx tx t).boardOld, k.cycle = t.tbCycles := by
    intro k hk
    unfold setBoard at hk
    dsimp only at hk
    split at hk
    · simpa using (List.mem_filter.mp hk).2
    · obtain hk | hk := List.mem_append.mp hk
      · simpa using (List.mem_filter.mp hk).2
      · rw [List.mem_singleton.mp hk]
  have hnone : (setBoard l rx tx t).boardOld.find? (fun k => k.lane = l && k.cycle = n) = none := by
    refine List.find?_eq_none.mpr fun k hk hsame => ?_
    have hcycle := hold k hk
    simp only [Bool.and_eq_true, decide_eq_true_eq] at hsame
    omega
  have hrx : vget (setBoard l rx tx t).rxBoard 0 l = rx := vget_vmodN_self _ _ hl _
  have htx : vget (setBoard l rx tx t).txBoard 0 l = tx := vget_vmodN_self _ _ hl _
  simp only [TimeState.board, hnone, hrx, htx]

theorem d0Osc_d0External (x : Engine) : d0Osc (d0External x) = true := by
  unfold d0External
  split
  · assumption
  · simp [d0Osc, carryD0]

theorem d0Osc_d0Tcxo (x : Engine) : d0Osc (d0Tcxo x) = false := by
  unfold d0Tcxo
  split
  · simp [d0Osc, carryD0]
  · exact eq_false_of_ne_true ‹_›

theorem ref_putPolicies {x : Engine} {r : Nat} (hr : r < 42) {ps : List Word} (h : (x.ref r).input = some ps) :
    (putPolicies x).ref r = putInput ps (x.ref r) := by
  unfold Engine.ref at h ⊢
  rw [putPolicies, vget_map _ _ hr]
  simp only [h]

theorem slot_putPolicies {x : Engine} {d : Nat} (hd : d < 2) {ps : List Word} (h : (x.slot d).policy = some ps) :
    (putPolicies x).slot d = putPolicy ps (x.slot d) := by
  unfold Engine.slot at h ⊢
  rw [putPolicies, vget_map _ _ hd]
  simp only [h]

theorem look_filter_not {α : Type} {d : α} {k : Nat} {t : List (Nat × α)} {p : Nat → Bool} (h : p k = true) :
    look d k (t.filter fun q => !p q.1) = d := by
  induction t with
  | nil => rfl
  | cons q t ih =>
    by_cases hq : p q.1 = true
    · simpa [hq] using ih
    · have hne : k ≠ q.1 := fun he => hq (he ▸ h)
      simp [hq, look, Ne.symm hne, ih]

/-- No time that passes changes a counter. -/
theorem pass_stats (n : Nat) (s : State) (e : EngId) : ((Machine.pass n s).eng e).stats = (s.eng e).stats := by
  have hengine (x : Engine) : (passEngine n x).stats = x.stats := by
    unfold passEngine
    split <;> rfl
  rw [Machine.pass, modBoth_eng, hengine]
  cases e <;> rfl

theorem counter_clearOn (e : EngId) (s : State) {first n k : Nat} (hge : first ≤ k) (hlt : k < first + n) :
    counter ((clearOn e first n s).eng e).stats k = 0 := by
  have hin : (decide (first ≤ k) && decide (k < first + n)) = true := by simp [hge, hlt]
  rw [clearOn, pass_stats, setEng_eng]
  exact look_filter_not (p := fun i => decide (first ≤ i) && decide (i < first + n)) hin

/-! ## The command tables -/

/-- Settles O18: each command's effect is the one that its row names. -/
theorem sysCommandsTakeEffect : Obligations.SysCommandsTakeEffect := by
  refine ⟨?sysReadReg, ?sysSetPace, ?sysSetRing, ?sysSetIrq, ?irqBlock, ?sysNop, ?sysSetMgmt⟩
  case sysReadReg => exact commandDoes_of_apply (fun _ _ => rfl) rfl
  case sysSetPace =>
    refine commandDoes_of_apply_eq (fun _ _ => rfl) fun c ps s => ?_
    simp only [sysSetPaceSpec, configSpec, Bool.and_eq_true]
  case sysSetRing => exact commandDoes_of_apply (fun _ _ => rfl) rfl
  case sysSetIrq => exact commandDoes_of_apply (fun _ _ => rfl) rfl
  case irqBlock =>
    intro ps q
    obtain ⟨henable, hmsi, hpin, hmod, hstatus⟩ := setIrq_fields ps q
    exact ⟨henable, hmsi, hpin, hmod, hstatus, fun b _ hb => setIrq_held_disabled ps q hb, fun hzero => setIrq_unmoderated hzero q⟩
  case sysNop => exact commandDoes_of_apply (fun _ _ => rfl) rfl
  case sysSetMgmt => exact commandDoes_of_apply (fun _ _ => rfl) rfl

/-- Settles O19: each command's effect is the one that its row names. -/
theorem portCommandsTakeEffect : Obligations.PortCommandsTakeEffect := by
  refine ⟨?portSetMode, ?portSetLinkTimers, ?portSetTimeLevels, ?portSetAhnudEtype, ?portSetCutThrough⟩
  case portSetMode =>
    refine commandDoes_of_apply_eq (fun _ _ => rfl) fun c ps s => ?_
    simp only [portSetModeSpec, portSpec, Applied.now]
    split <;> rfl
  case portSetLinkTimers => exact commandDoes_of_apply (fun _ _ => rfl) rfl
  case portSetTimeLevels => exact commandDoes_of_apply (fun _ _ => rfl) rfl
  case portSetAhnudEtype => exact commandDoes_of_apply (fun _ _ => rfl) rfl
  case portSetCutThrough => exact commandDoes_of_apply (fun _ _ => rfl) rfl

/-- Settles O20: each command's effect is the one that its row names. -/
theorem parseCommandsTakeEffect : Obligations.ParseCommandsTakeEffect := by
  refine ⟨?parseSetPort, ?parseWriteNode, ?parseReadNode, ?parseCommit, ?parseLoadDefaults⟩
  case parseSetPort => exact commandDoes_of_apply (fun _ _ => rfl) rfl
  case parseWriteNode => exact commandDoes_of_apply (fun _ _ => rfl) rfl
  case parseReadNode =>
    refine commandDoes_of_apply_eq (fun _ _ => rfl) fun c ps s => ?_
    simp only [parseReadNodeSpec, readSpec, Applied.now, tells]
    cases (if flag (par ps 0) 31 = true then findAt (field (par ps 0) 5 0) (s.eng c.eng).parser.staged else none) <;> rfl
  case parseCommit => exact commandDoes_of_apply (fun _ _ => rfl) rfl
  case parseLoadDefaults => exact commandDoes_of_apply (fun _ _ => rfl) rfl

/-- Settles O21: each command's effect is the one that its row names. -/
theorem ruleCommandsTakeEffect : Obligations.RuleCommandsTakeEffect := by
  refine ⟨?ruleWriteEntry, ?ruleReadEntry, ?ruleWriteProfile, ?ruleClearBank, ?ruleFlipBank, ?ruleSetOrg, ?ruleLoadDefaults, ?ruleSetPort, ?ruleWriteRewrite, ?ruleWriteMeter, ?ruleSetMirror⟩
  case ruleWriteEntry => exact commandDoes_of_apply (fun _ _ => rfl) rfl
  case ruleReadEntry =>
    refine commandDoes_of_apply_eq (fun _ _ => rfl) fun c ps s => ?_
    simp only [ruleReadEntrySpec, readSpec, Applied.now]
    cases findAt (field (par ps 0) 12 0) (bankOf c ps s).entries <;> rfl
  case ruleWriteProfile => exact commandDoes_of_apply (fun _ _ => rfl) rfl
  case ruleClearBank => exact commandDoes_of_apply (fun _ _ => rfl) rfl
  case ruleFlipBank =>
    refine commandDoes_of_apply_eq (fun _ _ => rfl) fun c ps s => ?_
    simp only [ruleFlipBankSpec, configSpec]
    cases (s.eng (other c.eng)).rules.flip <;> cases (s.eng (other c.eng)).rules.lastFlip <;> rfl
  case ruleSetOrg => exact commandDoes_of_apply (fun _ _ => rfl) rfl
  case ruleLoadDefaults => exact commandDoes_of_apply (fun _ _ => rfl) rfl
  case ruleSetPort => exact commandDoes_of_apply (fun _ _ => rfl) rfl
  case ruleWriteRewrite => exact commandDoes_of_apply (fun _ _ => rfl) rfl
  case ruleWriteMeter => exact commandDoes_of_apply (fun _ _ => rfl) rfl
  case ruleSetMirror => exact commandDoes_of_apply (fun _ _ => rfl) rfl

/-- Settles O22: each command's effect is the one that its row names. -/
theorem fwdCommandsTakeEffect : Obligations.FwdCommandsTakeEffect := by
  refine ⟨?fwdAdd, ?fwdDelete, ?fwdLookup, ?fwdFlush, ?fwdSetLearn, ?fwdSetAgeing, ?fwdSetVlan, ?fwdWriteMcast, ?fwdSetSpread, ?fwdWriteIndirect, ?fwdSetMcResidue⟩
  case fwdAdd => exact commandDoes_of_apply (fun _ _ => rfl) rfl
  case fwdDelete => exact commandDoes_of_apply (fun _ _ => rfl) rfl
  case fwdLookup =>
    refine commandDoes_of_apply_eq (fun _ _ => rfl) fun c ps s => ?_
    simp only [fwdLookupSpec, readSpec, Applied.now, tells]
    cases findAt (parKey ps) (s.eng c.eng).rules.fdb <;> rfl
  case fwdFlush => exact commandDoes_of_apply (fun _ _ => rfl) rfl
  case fwdSetLearn => exact commandDoes_of_apply (fun _ _ => rfl) rfl
  case fwdSetAgeing => exact commandDoes_of_apply (fun _ _ => rfl) rfl
  case fwdSetVlan => exact commandDoes_of_apply (fun _ _ => rfl) rfl
  case fwdWriteMcast => exact commandDoes_of_apply (fun _ _ => rfl) rfl
  case fwdSetSpread => exact commandDoes_of_apply (fun _ _ => rfl) rfl
  case fwdWriteIndirect => exact commandDoes_of_apply (fun _ _ => rfl) rfl
  case fwdSetMcResidue => exact commandDoes_of_apply (fun _ _ => rfl) rfl

/-- Settles O23: each command's effect is the one that its row names. -/
theorem queueCommandsTakeEffect : Obligations.QueueCommandsTakeEffect := by
  refine ⟨?queueSetClass, ?queueSetPortFc, ?queueSetMin, ?queueSetAge, ?queueSetBufferMode, ?queueGetOccupancy⟩
  case queueSetClass => exact commandDoes_of_apply (fun _ _ => rfl) rfl
  case queueSetPortFc => exact commandDoes_of_apply (fun _ _ => rfl) rfl
  case queueSetMin => exact commandDoes_of_apply (fun _ _ => rfl) rfl
  case queueSetAge => exact commandDoes_of_apply (fun _ _ => rfl) rfl
  case queueSetBufferMode => exact commandDoes_of_apply (fun _ _ => rfl) rfl
  case queueGetOccupancy => exact commandDoes_of_apply (fun _ _ => rfl) rfl

/-- Settles O24: each command's effect is the one that its row names. -/
theorem schedCommandsTakeEffect : Obligations.SchedCommandsTakeEffect := by
  refine ⟨?schedSetClass, ?schedSetPortShaper, ?schedWriteGcl, ?schedCommitGcl, ?schedSetPreempt, ?schedSetLaunch, ?schedSetRedundancy⟩
  case schedSetClass => exact commandDoes_of_apply (fun _ _ => rfl) rfl
  case schedSetPortShaper => exact commandDoes_of_apply (fun _ _ => rfl) rfl
  case schedWriteGcl => exact commandDoes_of_apply (fun _ _ => rfl) rfl
  case schedCommitGcl => exact commandDoes_of_apply (fun _ _ => rfl) rfl
  case schedSetPreempt => exact commandDoes_of_apply (fun _ _ => rfl) rfl
  case schedSetLaunch => exact commandDoes_of_apply (fun _ _ => rfl) rfl
  case schedSetRedundancy => exact commandDoes_of_apply (fun _ _ => rfl) rfl

/-- Settles O25: each command's effect is the one that its row names. -/
theorem deviceTimeCommandsTakeEffect : Obligations.DeviceTimeCommandsTakeEffect := by
  refine ⟨?timeGet, ?timeSet, ?timeStep, ?timeSetBoardDelay, ?boardDelays, ?timeSetEvtin, ?timeReadEvents, ?timeSchedEdge, ?timeAlignOutputs⟩
  case timeGet => exact commandDoes_of_apply (fun _ _ => rfl) rfl
  case timeSet => exact commandDoes_of_apply (fun _ _ => rfl) rfl
  case timeStep => exact commandDoes_of_apply (fun _ _ => rfl) rfl
  case timeSetBoardDelay => exact commandDoes_of_apply (fun _ _ => rfl) rfl
  case boardDelays =>
    intro l rx tx n t
    exact ⟨setBoard_present l rx tx t 0, setBoard_present l rx tx t 1,
      fun h => ⟨setBoard_later l.isLt rx tx h 0, setBoard_later l.isLt rx tx h 1⟩⟩
  case timeSetEvtin => exact commandDoes_of_apply (fun _ _ => rfl) rfl
  case timeReadEvents => exact commandDoes_of_apply (fun _ _ => rfl) rfl
  case timeSchedEdge => exact commandDoes_of_apply (fun _ _ => rfl) rfl
  case timeAlignOutputs => exact commandDoes_of_apply (fun _ _ => rfl) rfl

/-- Settles O26: each command's effect is the one that its row names. -/
theorem networkTimeCommandsTakeEffect : Obligations.NetworkTimeCommandsTakeEffect := by
  refine ⟨?timeSetDomain, ?timeSetPtpPort, ?timeSetTc, ?timeSetAsym, ?timeCalAsym, ?timeSwitchDomain, ?timePutSample⟩
  case timeSetDomain => exact commandDoes_of_apply (fun _ _ => rfl) rfl
  case timeSetPtpPort => exact commandDoes_of_apply (fun _ _ => rfl) rfl
  case timeSetTc => exact commandDoes_of_apply (fun _ _ => rfl) rfl
  case timeSetAsym => exact commandDoes_of_apply (fun _ _ => rfl) rfl
  case timeCalAsym => exact commandDoes_of_apply (fun _ _ => rfl) rfl
  case timeSwitchDomain => exact commandDoes_of_apply (fun _ _ => rfl) rfl
  case timePutSample => exact commandDoes_of_apply (fun _ _ => rfl) rfl

/-- Settles O27: each command's effect is the one that its row names. -/
theorem refOutCommandsTakeEffect : Obligations.RefOutCommandsTakeEffect := by
  refine ⟨?refSetInput, ?refSetSlot, ?inputs, ?policies, ?refForce, ?refGetStatus, ?refSetOsc, ?oscillator, ?outSetSynth, ?outSetClkout, ?outSetPpsout⟩
  case refSetInput => exact commandDoes_of_apply (fun _ _ => rfl) rfl
  case refSetSlot => exact commandDoes_of_apply (fun _ _ => rfl) rfl
  case inputs =>
    intro x r ps h
    exact ⟨ref_putPolicies r.isLt h, rfl, rfl, rfl, rfl⟩
  case policies =>
    intro x d ps h
    exact ⟨slot_putPolicies d.isLt h, rfl, rfl, rfl⟩
  case refForce =>
    refine commandDoes_of_apply_eq (fun _ _ => rfl) fun c ps s => ?_
    simp only [refForceSpec, configSpec, Applied.now]
    cases s.active with
    | none => rfl
    | some d => simp only [Bool.and_eq_true, decide_eq_true_eq, and_assoc]
  case refGetStatus => exact commandDoes_of_apply (fun _ _ => rfl) rfl
  case refSetOsc =>
    refine commandDoes_of_apply_eq (fun _ _ => rfl) fun c ps s => ?_
    simp only [refSetOscSpec, configSpec, onSelf, Applied.now, sets, Bool.and_eq_true, Bool.not_eq_true']
  case oscillator => exact fun x => ⟨d0Osc_d0External x, d0Osc_d0Tcxo x⟩
  case outSetSynth => exact commandDoes_of_apply (fun _ _ => rfl) rfl
  case outSetClkout => exact commandDoes_of_apply (fun _ _ => rfl) rfl
  case outSetPpsout => exact commandDoes_of_apply (fun _ _ => rfl) rfl

/-- Settles O28: each command's effect is the one that its row names. -/
theorem twinCommandsTakeEffect : Obligations.TwinCommandsTakeEffect := by
  refine ⟨?twinGetState, ?twinSwapRoles, ?twinSetSwap, ?twinRejoin, ?twinFence⟩
  case twinGetState => exact commandDoes_of_apply (fun _ _ => rfl) rfl
  case twinSwapRoles => exact commandDoes_of_apply (fun _ _ => rfl) rfl
  case twinSetSwap => exact commandDoes_of_apply (fun _ _ => rfl) rfl
  case twinRejoin => exact commandDoes_of_apply (fun _ _ => rfl) rfl
  case twinFence => exact commandDoes_of_apply (fun _ _ => rfl) rfl

/-- Settles O29: each command's effect is the one that its row names. -/
theorem faultCommandsTakeEffect : Obligations.FaultCommandsTakeEffect := by
  refine ⟨?faultSetWindows, ?faultSetEvents, ?faultGetFirst, ?faultActNow, ?faultInject, ?faultInjectEcc, ?faultClearInj, ?faultRelease, ?faultReadLog⟩
  case faultSetWindows => exact commandDoes_of_apply (fun _ _ => rfl) rfl
  case faultSetEvents => exact commandDoes_of_apply (fun _ _ => rfl) rfl
  case faultGetFirst => exact commandDoes_of_apply (fun _ _ => rfl) rfl
  case faultActNow => exact commandDoes_of_apply (fun _ _ => rfl) rfl
  case faultInject => exact commandDoes_of_apply (fun _ _ => rfl) rfl
  case faultInjectEcc => exact commandDoes_of_apply (fun _ _ => rfl) rfl
  case faultClearInj => exact commandDoes_of_apply (fun _ _ => rfl) rfl
  case faultRelease => exact commandDoes_of_apply (fun _ _ => rfl) rfl
  case faultReadLog => exact commandDoes_of_apply (fun _ _ => rfl) rfl

/-- Settles O30: each command's effect is the one that its row names. -/
theorem calCommandsTakeEffect : Obligations.CalCommandsTakeEffect := by
  refine ⟨?calSet, ?calGetStatus, ?calRun, ?calRepair⟩
  case calSet => exact commandDoes_of_apply (fun _ _ => rfl) rfl
  case calGetStatus => exact commandDoes_of_apply (fun _ _ => rfl) rfl
  case calRun => exact commandDoes_of_apply (fun _ _ => rfl) rfl
  case calRepair => exact commandDoes_of_apply (fun _ _ => rfl) rfl

/-- Settles O31: each command's effect is the one that its row names. -/
theorem statsCommandsTakeEffect : Obligations.StatsCommandsTakeEffect := by
  refine ⟨?statsRead, ?statsClear, ?cleared, ?statsSetChain, ?statsSetSnapshot, ?statsSnapNow, ?statsSetSampler⟩
  case statsRead => exact commandDoes_of_apply (fun _ _ => rfl) rfl
  case statsClear => exact commandDoes_of_apply (fun _ _ => rfl) rfl
  case cleared => exact fun e first n s k hge hlt => counter_clearOn e s hge hlt
  case statsSetChain => exact commandDoes_of_apply (fun _ _ => rfl) rfl
  case statsSetSnapshot => exact commandDoes_of_apply (fun _ _ => rfl) rfl
  case statsSnapNow => exact commandDoes_of_apply (fun _ _ => rfl) rfl
  case statsSetSampler => exact commandDoes_of_apply (fun _ _ => rfl) rfl

/-- Settles O32: each command's effect is the one that its row names. -/
theorem fwCommandsTakeEffect : Obligations.FwCommandsTakeEffect := by
  refine ⟨?fwGetInfo, ?fwWriteImage, ?fwVerifyImage, ?fwSelectSlot, ?fwRestart⟩
  case fwGetInfo => exact commandDoes_of_apply (fun _ _ => rfl) rfl
  case fwWriteImage => exact commandDoes_of_apply (fun _ _ => rfl) rfl
  case fwVerifyImage => exact commandDoes_of_apply (fun _ _ => rfl) rfl
  case fwSelectSlot => exact commandDoes_of_apply (fun _ _ => rfl) rfl
  case fwRestart => exact commandDoes_of_apply (fun _ _ => rfl) rfl

end Sys2Proof
end

section
/-! Time packets, flow control, the life of the ports and their negotiation. -/

namespace Sys2Proof.Machine

/-- The bits set one after another for the members of a set below `n` are the members of the set. -/
theorem getLsbD_foldl_setBits (f : Nat → Bool) (n : Nat) (hn : n ≤ 8) (i : Nat) :
    ((List.range n).foldl (fun v q => if f q then v ||| (1#8 <<< q) else v) 0#8).getLsbD i = (decide (i < n) && f i) := by
  induction n with
  | zero => simp
  | succ n ih =>
    have hbit : ∀ v : BitVec 8, (if f n then v ||| (1#8 <<< n) else v).getLsbD i = (v.getLsbD i || (decide (i = n) && f n)) := by
      intro v
      cases f n
      · simp
      · by_cases h : i = n
        · simp [h]; omega
        · simp [h]; omega
    rw [List.range_succ, List.foldl_append, List.foldl_cons, List.foldl_nil, hbit, ih (by omega)]
    by_cases h : i = n
    · simp [h]
    · simp [h, show (i < n + 1) = (i < n) from propext (by omega)]

@[simp] theorem settlePauses_tripped (p : Fin 34) (c : Fin 8) (x : Engine) :
    ((settlePauses p.val x).fc p.val).tripped.getLsbD c.val = ((x.fc p.val).tripped.getLsbD c.val && x.paused p.val c.val) := by
  have hfc : ((settlePauses p.val x).fc p.val).tripped = (x.fc p.val).tripped &&&
      (List.range 8).foldl (fun v q => if x.paused p.val q then v ||| (1#8 <<< q) else v) 0#8 := by
    show (vget (vmodN x.buf.fc p.val _) _ p.val).tripped = _
    rw [vget_vmodN_self _ _ p.isLt]
    rfl
  rw [hfc, BitVec.getLsbD_and, getLsbD_foldl_setBits _ 8 (Nat.le_refl 8)]
  simp

@[simp] theorem settlePauses_storm (p : Fin 34) (x : Engine) : ((settlePauses p.val x).fc p.val).storm = (x.fc p.val).storm := by
  show (vget (vmodN x.buf.fc p.val _) _ p.val).storm = _
  rw [vget_vmodN_self _ _ p.isLt]
  rfl

/-- Only a port that is up repeats an XOFF. -/
theorem repeatXoff_down {p : Nat} {x : Engine} (h : (x.port p).up = false) : repeatXoff p x = x := by
  simp [repeatXoff, h]

theorem fcsOf_beq_good (bs : List Byte) (w : Word) : (fcsOf bs w == .good) = decide (w = ethCrc bs) := by
  unfold fcsOf
  by_cases h : w = ethCrc bs
  · simp [h]
  · rw [if_neg h]; split <;> simp [h]

theorem countFcs_fcsOf (p : Nat) (bs : List Byte) (w : Word) (x : Engine) : countFcs p (fcsOf bs w) x =
    if w = ethCrc bs then x else if w = ethCrc bs ^^^ 0x53544F4D#32 then x.bumpPort p 34 else x.bumpPort p 35 := by
  unfold fcsOf
  split
  · rfl
  · split <;> rfl

end Sys2Proof.Machine

namespace Sys2Proof

open Sys2Proof.Machine

/-- Settles O50: each packet is sent where the engine's conditions for it hold, and nothing changes otherwise. -/
theorem timePacketSends : Obligations.TimePacketSends := by
  unfold Obligations.TimePacketSends
  refine ⟨fun d p => changes_of_onEngine fun e s => ?_, fun d p e s h hpd hno => ?_, fun d p e s h hpd => ?_,
    fun d p e s h hpd hptp hst hp2p => ?_, fun p => changes_of_onEngine fun e s => ?_⟩
  · dsimp only [exec]
    simp only [execPtpSyncSend, Bool.and_eq_true, beq_iff_eq]
  · dsimp only [exec]
    simp only [execPtpDelayReqSend, onEngine_inOperation h]
    obtain hno | hno | hno := hno <;> cases e <;> simp_all [State.eng, State.modEng, State.setEng]
  · dsimp only [exec]
    simp only [execPtpDelayReqSend, onEngine_inOperation h]
    cases e <;> simp_all [State.eng, State.modEng, State.setEng]
  · dsimp only [exec]
    simp only [execPtpDelayReqSend, onEngine_inOperation h]
    cases e <;> simp_all [State.eng, State.modEng, State.setEng]
  · dsimp only [exec]
    simp only [execL1syncSend, sendL1Sync, Bool.and_eq_true, beq_iff_eq, bne_iff_ne, and_assoc, if_true]

/-- Settles O52: each row on its engine and port. -/
theorem flowControlEvents : Obligations.FlowControlEvents := by
  unfold Obligations.FlowControlEvents
  refine ⟨fun p => changes_of_onEngine fun _ _ => rfl, fun p x h => repeatXoff_down h, fun p i => changes_of_onEngine fun _ _ => rfl,
    fun p c x => ⟨settlePauses_tripped p c x, settlePauses_storm p x⟩, fun p c => changes_of_onEngine fun e s => ?_,
    fun p m => changes_of_onEngine fun _ _ => rfl, does_of_onEngine fun _ _ => rfl⟩
  dsimp only [exec]
  simp only [execPfcStorm, Bool.and_eq_true, bne_iff_ne, Bool.not_eq_true', and_assoc]

/-- Settles O54: each row on its engine and port. -/
theorem portLifeEvents : Obligations.PortLifeEvents := by
  unfold Obligations.PortLifeEvents
  refine ⟨fun p c => does_of_onEngine fun _ _ => rfl, fun h1 c => does_of_onEngine fun _ _ => rfl, fun p => does_of_onEngine fun e s => ?_,
    fun p => does_of_onEngine fun _ _ => rfl, fun h1 => does_of_onEngine fun _ _ => rfl, does_of_onEngine fun _ _ => rfl,
    does_of_onEngine fun _ _ => rfl, fun p => does_of_onEngine fun _ _ => rfl, fun e s p c met h hno => ?_, fun e s p c h hdown hp hfit met => ?_,
    fun m => changes_of_onEngine fun _ _ => rfl, fun m => changes_of_onEngine fun _ _ => rfl⟩
  · dsimp only [exec]
    simp only [execPortUpCondition, Bool.or_eq_true, Bool.not_eq_true']
  · dsimp only [exec]
    simp only [execBlockLockChange, onEngine_inOperation h, Bool.or_eq_true, beq_iff_eq, Bool.not_eq_true', or_assoc, if_pos hno]
  · dsimp only [exec]
    simp only [execBlockLockChange, onEngine_inOperation h, hdown, hfit, beq_eq_false_iff_ne.mpr hp]
    rfl

/-- Settles O55: each row on its engine and port. -/
theorem negotiationEvents : Obligations.NegotiationEvents := by
  unfold Obligations.NegotiationEvents
  refine ⟨fun p a b => changes_of_onEngine fun e s => ?_, fun p => changes_of_onEngine fun _ _ => rfl, fun p => changes_of_onEngine fun _ _ => rfl,
    fun p e s l h hno => ?_, fun p e s l h hno => ?_, fun p e s h hp hdown hm hnow hc => ⟨?_, ?_⟩, fun p a b => does_of_onEngine fun e s => ?_,
    fun p bs w => does_of_onEngine fun e s => ?_, fun p => changes_of_onEngine fun e s => ?_, fun p => changes_of_onEngine fun e s => ?_,
    fun p => does_of_onEngine fun e s => ?_, fun p => does_of_onEngine fun e s => ?_⟩
  · dsimp only [exec]
    simp only [execAnResolved] <;> rfl
  · dsimp only [exec]
    simp only [execParallelDetectStep, onEngine_inOperation h]
    rw [if_pos (by tauto)]
  · dsimp only [exec]
    simp only [execParallelDetectStep, onEngine_inOperation h]
    rw [if_pos (by tauto)]
  · dsimp only [exec]
    simp only [execParallelDetectStep, onEngine_inOperation h]
    rw [if_neg (by simp_all), if_neg (by simp)]
  · dsimp only [exec]
    simp only [execParallelDetectStep, onEngine_inOperation h]
    rw [if_neg (by simp_all), if_pos trivial]
  · dsimp only [exec]
    simp only [execLinkTrainingComplete]
  · dsimp only [exec]
    simp only [execAhnudFrameReceived, fcsOf_beq_good, countFcs_fcsOf]
  · dsimp only [exec]
    simp only [execAhnudOfferTimer, Bool.and_eq_true, Bool.or_eq_true, beq_iff_eq]
  · dsimp only [exec]
    simp only [execAhnudKeepTimer, Bool.and_eq_true, beq_iff_eq]
  · dsimp only [exec]
    simp only [execAhnudAnegWait, Bool.and_eq_true, beq_iff_eq, Bool.not_eq_true', and_assoc]
  · dsimp only [exec]
    simp only [execAhnudPartnerTimeout, Bool.and_eq_true, beq_iff_eq]

end Sys2Proof
end

section
/-! Device time, the clock domains, the core pace and the reference inputs. -/

namespace Sys2Proof.Machine

@[simp] theorem raise_time (x : Engine) (a k c : Nat) (w : Word) : (x.raise a k c w).time = x.time := rfl
@[simp] theorem raise_clk (x : Engine) (a k c : Nat) (w : Word) : (x.raise a k c w).clk = x.clk := rfl
@[simp] theorem raise_refs (x : Engine) (a k c : Nat) (w : Word) : (x.raise a k c w).refs = x.refs := rfl
@[simp] theorem raise_pace (x : Engine) (a k c : Nat) (w : Word) : (x.raise a k c w).pace = x.pace := rfl
@[simp] theorem raise_ports (x : Engine) (a k c : Nat) (w : Word) : (x.raise a k c w).ports = x.ports := rfl
@[simp] theorem raiseNext_time (x : Engine) (a k c : Nat) (w : Word) : (x.raiseNext a k c w).time = x.time := rfl
@[simp] theorem raiseNext_clk (x : Engine) (a k c : Nat) (w : Word) : (x.raiseNext a k c w).clk = x.clk := rfl
@[simp] theorem raiseNext_refs (x : Engine) (a k c : Nat) (w : Word) : (x.raiseNext a k c w).refs = x.refs := rfl
@[simp] theorem raiseNext_ports (x : Engine) (a k c : Nat) (w : Word) : (x.raiseNext a k c w).ports = x.ports := rfl

@[simp] theorem edge_time (x : Engine) (a b : Bool) (n : Nat) : (x.edge a b n).time = x.time := by unfold Engine.edge; dsimp only; split <;> rfl
@[simp] theorem edge_clk (x : Engine) (a b : Bool) (n : Nat) : (x.edge a b n).clk = x.clk := by unfold Engine.edge; dsimp only; split <;> rfl
@[simp] theorem edge_refs (x : Engine) (a b : Bool) (n : Nat) : (x.edge a b n).refs = x.refs := by unfold Engine.edge; dsimp only; split <;> rfl

@[simp] theorem setLoss_time (i : Nat) (x : Engine) : (setLoss i x).time = x.time := by simp [setLoss]
@[simp] theorem setLoss_refs (i : Nat) (x : Engine) : (setLoss i x).refs = x.refs := by simp [setLoss]
@[simp] theorem setLoss_clk (i : Nat) (x : Engine) : (setLoss i x).clk = { x.clk with loss := x.clk.loss ||| (1#16 <<< i) } := by simp [setLoss]
@[simp] theorem setLock_time (i : Nat) (b : Bool) (x : Engine) : (setLock i b x).time = x.time := rfl
@[simp] theorem setLock_refs (i : Nat) (b : Bool) (x : Engine) : (setLock i b x).refs = x.refs := rfl
@[simp] theorem setJudge_time (x : Engine) (l : Loop) (j : LoopJudge) : (x.setJudge l j).time = x.time := rfl
@[simp] theorem setJudge_refs (x : Engine) (l : Loop) (j : LoopJudge) : (x.setJudge l j).refs = x.refs := rfl

@[simp] theorem loseFine_time (x : Engine) : (loseFine x).time = x.time := by unfold loseFine; split <;> simp
@[simp] theorem loseFine_refs (x : Engine) : (loseFine x).refs = x.refs := by unfold loseFine; split <;> simp

@[simp] theorem setJudge_lock (x : Engine) (l : Loop) (j : LoopJudge) : (x.setJudge l j).clk.lock = x.clk.lock := rfl

theorem setLock_getLsbD {i : Nat} (hi : i < 16) (b : Bool) (x : Engine) (j : Nat) :
    (setLock i b x).clk.lock.getLsbD j = if j = i then b else x.clk.lock.getLsbD j := by
  have hbit : (1#16 <<< i).getLsbD j = decide (j = i) := by
    by_cases h : j = i
    · simp [h, hi]
    · simp [h]; omega
  cases b
  · show (x.clk.lock &&& ~~~(1#16 <<< i)).getLsbD j = _
    rw [BitVec.getLsbD_and, BitVec.getLsbD_not, hbit]
    by_cases hj : j < 16
    · by_cases h : j = i <;> simp [h, hj]
    · simp [hj, BitVec.getLsbD_of_ge x.clk.lock j (by omega)]
  · show (x.clk.lock ||| (1#16 <<< i)).getLsbD j = _
    rw [BitVec.getLsbD_or, hbit]
    by_cases h : j = i <;> simp [h]

/-- The loss of the fine lock touches bit 15 alone. -/
theorem loseFine_getLsbD (x : Engine) {j : Nat} (hj : j ≠ 15) : (loseFine x).clk.lock.getLsbD j = x.clk.lock.getLsbD j := by
  unfold loseFine
  split
  · simp [setLock_getLsbD (show 15 < 16 by decide), hj]
  · rfl

/-- Engine X as the loss of SYN-T's analog lock leaves it. -/
def dropSynt (x : Engine) : Engine := if x.clk.syntLocked then setLoss 0 (setLock 0 false x) else x

@[simp] theorem dropSynt_time (x : Engine) : (dropSynt x).time = x.time := by unfold dropSynt; split <;> simp
@[simp] theorem dropSynt_refs (x : Engine) : (dropSynt x).refs = x.refs := by unfold dropSynt; split <;> simp

theorem dropSynt_fallback (x : Engine) : (dropSynt x).clk.fallback = x.clk.fallback := by
  unfold dropSynt
  split
  · rw [setLoss_clk]
    exact setLock_getLsbD (by decide) false x 14
  · rfl

theorem dropSynt_syntLocked (x : Engine) : (dropSynt x).clk.syntLocked = false := by
  unfold dropSynt
  split
  · rw [setLoss_clk]
    exact setLock_getLsbD (by decide) false x 0
  next h => exact eq_false_of_ne_true h

/-- The time base after the fallback begins: the new increment, with the phase carried over. -/
def fallBack (inc : Nat) (ph : Int) (x : Engine) : Engine :=
  let y := setLock 14 true x
  { y with time := { carryPhase ph y.time with inc := inc },
           refs := { y.refs with pulling := true, syns := y.refs.syns.map fun k => { k with hold := true } } }

/-- A loss episode opens with one message to the collector. -/
def openEpisode (part : Part) (fine : Bool) (c : Engine) : Engine :=
  if c.refs.syntEpisode then c
  else
    let d : Engine := { c with refs := { c.refs with syntEpisode := true } }
    if fine then d.raiseNext 0x08 0x02 (if twinPart part then 3 else 2) 0 else d.raise 0x08 0x02 (if twinPart part then 3 else 2) 0

theorem openEpisode_fields (part : Part) (fine : Bool) (c : Engine) :
    (openEpisode part fine c).time = c.time ∧ (openEpisode part fine c).clk = c.clk
      ∧ (openEpisode part fine c).refs.pulling = c.refs.pulling := by
  unfold openEpisode
  split
  · exact ⟨rfl, rfl, rfl⟩
  · cases fine <;> exact ⟨rfl, rfl, rfl⟩

/-- Off the fallback already, the loss drops the locks, begins the fallback and opens the episode. -/
theorem syntLost_of_main (part : Part) (inc : Nat) (ph : Int) {x : Engine} (h : x.clk.fallback = false) :
    syntLost part inc ph x = openEpisode part (x.clk.lock.getLsbD 15) (fallBack inc ph (loseFine (dropSynt x))) := by
  have hb : (loseFine (dropSynt x)).clk.fallback ≠ true := by
    rw [ClockState.fallback, loseFine_getLsbD _ (by decide)]
    exact ne_true_of_eq_false ((dropSynt_fallback x).trans h)
  rw [← if_neg (c := (loseFine (dropSynt x)).clk.fallback = true) (t := loseFine (dropSynt x)) (e := fallBack inc ph (loseFine (dropSynt x))) hb]
  rfl

theorem syntLost_carries (part : Part) (inc : Nat) (ph : Int) {x : Engine} (h : x.clk.fallback = false) :
    (syntLost part inc ph x).time.inc = inc ∧ (syntLost part inc ph x).time.dev = ((x.time.dev + ph) % devMod).toNat
      ∧ (syntLost part inc ph x).clk.fallback = true ∧ (syntLost part inc ph x).clk.syntLocked = false
      ∧ (syntLost part inc ph x).refs.pulling = true := by
  rw [syntLost_of_main part inc ph h]
  obtain ⟨htime, hclk, hpulling⟩ := openEpisode_fields part (x.clk.lock.getLsbD 15) (fallBack inc ph (loseFine (dropSynt x)))
  have hlock (j : Nat) := setLock_getLsbD (show 14 < 16 by decide) true (loseFine (dropSynt x)) j
  refine ⟨?_, ?_, ?_, ?_, hpulling⟩
  · rw [htime]; rfl
  · rw [htime]
    show (((loseFine (dropSynt x)).time.dev + ph) % devMod : Int).toNat = _
    rw [loseFine_time, dropSynt_time]
  · rw [hclk]
    exact hlock 14
  · rw [hclk]
    exact (hlock 0).trans ((loseFine_getLsbD _ (by decide)).trans (dropSynt_syntLocked x))

/-! A slew is done once its cycles have passed. -/

theorem le_divUp_mul (a : Nat) {b : Nat} (hb : 0 < b) : a ≤ divUp a b * b := by
  have hdiv := Nat.div_add_mod (a + b - 1) b
  have hmod := Nat.mod_lt (a + b - 1) hb
  rw [divUp, Nat.mul_comm]
  omega

theorem slewMove_slewCycles {w : Slew} (h : 0 < w.rate) : slewMove (slewCycles w) w = w.remain := by
  have hle : w.remain.natAbs ≤ slewCycles w * w.rate * 2 ^ 33 := by
    rw [Nat.mul_assoc]
    exact le_divUp_mul _ (by positivity)
  simp only [slewMove]
  generalize slewCycles w * w.rate * 2 ^ 33 = most at hle
  split <;> omega

theorem passTime_slewCycles (fb : Bool) {t : TimeState} {w : Slew} (hw : t.slew = some w) (h : 0 < w.rate) :
    (passTime fb (slewCycles w) t).slew = none := by
  simp [passTime, hw, slewMove_slewCycles h]

/-! An engine that is held in reset is not in operation. -/

theorem heldPowered_of_inOperation {s : State} {e : EngId} (h : InOperation s e) : heldPowered e s = false := by
  have hawake := h.awake
  unfold Engine.awake at hawake
  cases hp : (s.eng e).core.phase <;> simp_all [heldPowered]

theorem foldl_raiseNext_ports (a k c : Nat) (f : Nat → Word) (l : List Nat) (x : Engine) :
    (l.foldl (fun y n => y.raiseNext a k c (f n)) x).ports = x.ports := by
  induction l generalizing x with
  | nil => rfl
  | cons n l ih => rw [List.foldl_cons, ih, raiseNext_ports]

/-- A window that is judged is no longer awaited. -/
theorem monitorWindow_awaitWindow (part : Part) (v : Vector Nat 12) (x : Engine) : (monitorWindow part v x).ports.awaitWindow = false := by
  simp only [monitorWindow]
  split
  · split
    · split <;> simp [foldl_raiseNext_ports]
    · split <;> split <;> simp [foldl_raiseNext_ports]
  · split <;> simp [foldl_raiseNext_ports]

end Sys2Proof.Machine

namespace Sys2Proof

open Sys2Proof.Machine

/-- Settles O43: each row on its engine. -/
theorem deviceTimeEvents : Obligations.DeviceTimeEvents := by
  unfold Obligations.DeviceTimeEvents
  refine ⟨fun e s p h hp => ?_, fun _ _ _ => rfl, fun _ _ => ⟨rfl, rfl, rfl, rfl, rfl⟩, fun e s h hp => ?_, does_of_onEngine fun e s => ?_,
    fun fb t w hw h => passTime_slewCycles fb hw h, fun l => changes_of_onEngine fun _ _ => rfl, changes_of_onEngine fun _ _ => ?_,
    fun m => changes_of_onEngine fun _ _ => rfl⟩
  · dsimp only [exec]
    simp only [execStepApply, rowStepApply, onEngine_inOperation h, stepApply, hp, settledOut, Bool.and_eq_true, beq_iff_eq, and_assoc] <;> rfl
  · dsimp only [exec]
    simp only [execStepApply, rowStepApply, onEngine_inOperation h, stepApply, hp, settledOut]
  · show onEngine e s (endSlew e) = _
    rfl
  · rfl

/-- Settles O46: each row on its engine and domain. -/
theorem clockDomainEvents : Obligations.ClockDomainEvents := by
  unfold Obligations.ClockDomainEvents
  refine ⟨fun l w d => doesThenSettles_of_onEngine fun e s => ?_, fun i p => does_of_onEngine fun _ _ => rfl, fun part i p x h => ?_,
    changes_of_onEngine fun _ _ => rfl, fun p => changes_of_onEngine fun e s => ?_, changes_of_onEngine fun e s => ?_,
    does_of_onEngine fun e s => ?_, changes_of_onEngine fun _ _ => rfl, fun m => changes_of_onEngine fun _ _ => rfl⟩
  · dsimp only [exec]
    simp only [execLockWindowEnd]
    congr 2
    funext t
    simp only [lockWindow, Bool.or_eq_true, Bool.not_eq_true'] <;> cases w <;> rfl
  · exact syntLost_carries part i p h
  · dsimp only [exec]
    simp only [execSyntReturn, Bool.and_eq_true]
  · dsimp only [exec]
    simp only [execSyntRelockRetry, resetSynt, Bool.and_eq_true, Bool.not_eq_true']
    rfl
  · dsimp only [exec]
    simp only [execPhasePullbackDone, Bool.and_eq_true, Bool.not_eq_true']

/-- Settles O47: each row on its engine, the monitors by their window. -/
theorem corePaceEvents : Obligations.CorePaceEvents := by
  unfold Obligations.CorePaceEvents
  refine ⟨fun e s h => ?_, fun v e s h => ?_, fun e s v h => ⟨?_, ?_⟩, fun k => changes_of_onEngine fun _ _ => rfl, fun s => ?_,
    changes_of_onEngine fun _ _ => rfl, fun x h => ?_, fun x h ha => ?_, monitorWindow_awaitWindow, fun x h ha => ⟨fun hge => ?_, fun hlt hv => ?_, fun hlt hv => ?_⟩⟩
  · dsimp only [exec]
    simp only [execGovernorSample, rowGovernorSample, heldPowered_of_inOperation h, onEngine_inOperation h]
    rfl
  · dsimp only [exec]
    simp only [execSpeedMonitorWindow, heldPowered_of_inOperation h, onEngine_inOperation h]
    rfl
  · dsimp only [exec]
    simp only [execGovernorSample, rowGovernorSample, h]
    rfl
  · dsimp only [exec]
    simp only [execSpeedMonitorWindow, h]
    rfl
  · rfl
  · simp [governor, h]
  · simp [governor, h, ha]
  · have hnot : ¬ x.ports.minSpeed < paceFloor x.pace.pace := by omega
    simp only [governor, h, ha, hnot]
    have hle : ∀ b : Bool, (if b = true then x.pace.vcoreMv - 5 else x.pace.vcoreMv) ≤ x.pace.vcoreMv := by
      intro b
      cases b <;> simp
    exact ⟨rfl, rfl, hle _⟩
  · have hne : x.pace.vcoreMv ≠ 900 := Nat.ne_of_lt hv
    simp only [governor, h, ha, if_pos hlt, if_neg hne, Bool.false_eq_true, if_false]
    split
    · rfl
    · rfl
  · simp only [governor, h, ha, if_pos hlt, if_pos hv, Bool.false_eq_true, if_false]
    have hraised : (x.pace.ceilingRaised || (decide (x.pace.ceilingUs + 10 > 100) && !x.pace.ceilingRaised))
        = (x.pace.ceilingRaised || decide (100 < x.pace.ceilingUs + 10)) := by
      cases x.pace.ceilingRaised <;> simp
    split <;> exact ⟨hv, rfl, hraised⟩

/-- Settles O48: each row on its engine and reference. -/
theorem referenceEvents : Obligations.ReferenceEvents := by
  unfold Obligations.ReferenceEvents
  refine ⟨fun r f p => does_of_onEngine fun e s => ?_, fun r => changes_of_onEngine fun _ _ => rfl, fun d => changes_of_onEngine fun _ _ => rfl,
    fun r => does_of_onEngine fun _ _ => rfl, fun r m => changes_of_onEngine fun _ _ => rfl, fun e s r rise after h => ?_⟩
  · dsimp only [exec]
    simp only [execRefMeasure, Bool.and_eq_true]
  · intro s1 y q at_ marks signalled z counted
    have hmarks : (y.running && q.enable && y.kind r.val == .pulse && rise != q.falling) = true ↔ marks := by
      simp only [marks, Bool.and_eq_true, beq_iff_eq, bne_iff_ne, and_assoc]
    have hcounted (t : Engine) : (match t.net.cal with
        | none => t
        | some k => if (rise && r.val == 4 + k.input) = true then
            { t with net := { t.net with cal := some (calAsymEdge (offSecond ((at_ : Int) - ps16 k.cablePs) - (t.slot t.net.steer).buildOut) k) } }
          else t) = counted t := by
      cases hcal : t.net.cal <;> simp only [counted, hcal, Bool.and_eq_true, beq_iff_eq]
    have hrow : exec (.pulseInputEdge e r rise after) s
        = .next (s1.setEng e (counted (if (y.running && q.enable && y.kind r.val == .pulse && rise != q.falling) = true then z else y))) := by
      rw [← hcounted]
      show execPulseInputEdge e r rise after s = _
      rw [execPulseInputEdge, onEngine_inOperation h]
      rfl
    exact ⟨fun hm => by rw [hrow, if_pos (hmarks.mpr hm)], fun hm => by rw [hrow, if_neg fun hc => hm (hmarks.mp hc)]⟩

end Sys2Proof
end

section
/-! The scheduler's and the tables' timers, faults, calibration, snapshots, the host interface and the firmware. -/

namespace Sys2Proof.Machine

theorem eg_modEgPort (p : Fin 32) (f : Egress → Egress) (x : Engine) : (x.modEgPort p.val f).eg p.val = f (x.eg p.val) :=
  vget_vmodN_self _ _ (by omega) f

theorem ring_modRing (r : Fin 8) (f : Ring → Ring) (x : Engine) : (x.modRing r.val f).ring r.val = f (x.ring r.val) :=
  vget_vmodN_self _ _ r.isLt f

theorem ring_stopRing (r : Fin 8) (err : BitVec 4) (x : Engine) :
    (stopRing r.val err x).ring r.val = { x.ring r.val with stopped := true, err := err } :=
  ring_modRing r _ x

/-! What a count leaves of the counters' state: the snapshots. -/

theorem bumpBy_snapshots (n i : Nat) (c : StatsState) :
    (bumpBy n i c).snapSeq = c.snapSeq ∧ (bumpBy n i c).snapAt = c.snapAt ∧ (bumpBy n i c).snapPeriodMs = c.snapPeriodMs := by
  unfold bumpBy
  dsimp only
  split
  · split
    · exact ⟨rfl, rfl, rfl⟩
    · split <;> split <;> exact ⟨rfl, rfl, rfl⟩
  · split <;> exact ⟨rfl, rfl, rfl⟩

/-- An engine that counts keeps its snapshots and its time. -/
structure SameSnapshots (x y : Engine) : Prop where
  seq : y.stats.snapSeq = x.stats.snapSeq
  at_ : y.stats.snapAt = x.stats.snapAt
  period : y.stats.snapPeriodMs = x.stats.snapPeriodMs
  time : y.time = x.time

theorem SameSnapshots.refl (x : Engine) : SameSnapshots x x := ⟨rfl, rfl, rfl, rfl⟩

theorem SameSnapshots.trans {x y z : Engine} (h : SameSnapshots x y) (g : SameSnapshots y z) : SameSnapshots x z :=
  ⟨g.seq.trans h.seq, g.at_.trans h.at_, g.period.trans h.period, g.time.trans h.time⟩

theorem sameSnapshots_bumpN (x : Engine) (i n : Nat) : SameSnapshots x (x.bumpN i n) :=
  ⟨(bumpBy_snapshots n i x.stats).1, (bumpBy_snapshots n i x.stats).2.1, (bumpBy_snapshots n i x.stats).2.2, rfl⟩

theorem sameSnapshots_countXoff (x : Engine) (p c : Nat) : SameSnapshots x (x.countXoff p c) := by
  unfold Engine.countXoff
  dsimp only
  split
  · obtain ⟨hs, ha, hp, ht⟩ := sameSnapshots_bumpN x (portCtr p (84 + c)) ((x.time.tbCycles - (x.inAcct p c).xoffAt) / 500)
    exact ⟨hs, ha, hp, ht⟩
  · exact .refl x

theorem sameSnapshots_countStall (x : Engine) : SameSnapshots x x.countStall := by
  unfold Engine.countStall
  split
  · exact .refl x
  next t _ =>
    obtain ⟨hs, ha, hp, ht⟩ := sameSnapshots_bumpN x 61 ((x.time.tbCycles - t) / 500)
    exact ⟨hs, ha, hp, ht⟩

theorem sameSnapshots_countXoffs (x : Engine) : SameSnapshots x x.countXoffs := by
  have hfold (l : List (Nat × Acct)) (y : Engine) (h : SameSnapshots x y) :
      SameSnapshots x (l.foldl (fun y e => y.countXoff (e.1 / 8) (e.1 % 8)) y) := by
    induction l generalizing y with
    | nil => exact h
    | cons k l ih => exact ih _ (h.trans (sameSnapshots_countXoff y _ _))
  exact hfold _ _ (sameSnapshots_countStall x)

/-- A snapshot, taken or skipped, takes the next number and leaves the period, its instant and the time. -/
theorem takeSnapshot_fields (b : Bool) (x : Engine) :
    (takeSnapshot b x).stats.snapSeq = (x.stats.snapSeq + 1) % 2 ^ 32 ∧ (takeSnapshot b x).stats.snapAt = x.stats.snapAt
      ∧ (takeSnapshot b x).stats.snapPeriodMs = x.stats.snapPeriodMs ∧ (takeSnapshot b x).time = x.time := by
  obtain ⟨hs, ha, hp, ht⟩ := sameSnapshots_countXoffs x
  unfold takeSnapshot
  dsimp only
  split
  · obtain ⟨hs', ha', hp'⟩ := bumpBy_snapshots 1 90 { x.countXoffs.stats with snapSeq := (x.countXoffs.stats.snapSeq + 1) % 2 ^ 32 }
    exact ⟨hs'.trans (by rw [hs]), ha'.trans ha, hp'.trans hp, ht⟩
  · exact ⟨by simp only [latchSnapshot, hs], ha, hp, ht⟩

/-- The instant after a periodic snapshot is a later multiple. -/
theorem snapInstant_periodicSnapshot_ne {x : Engine} (h : 0 < x.stats.snapPeriodMs) (t : Nat) :
    (periodicSnapshot t x).snapInstant ≠ t := by
  obtain ⟨-, ha, hp, ht⟩ := takeSnapshot_fields false { x with stats := { x.stats with snapAt := some t } }
  have hperiod : 0 < x.stats.snapPeriodMs * 1000 * us16 := Nat.mul_pos (Nat.mul_pos h (by decide)) (by decide)
  unfold Engine.snapInstant periodicSnapshot
  simp only [ha, hp]
  have hnext := Nat.lt_div_mul_add hperiod (a := t)
  split
  · rw [Nat.succ_mul]
    omega
  · omega

end Sys2Proof.Machine

namespace Sys2Proof

open Sys2Proof.Machine

/-- Settles O53: each row on its engine, by what its timer finds. -/
theorem schedulerAndTableTimers : Obligations.SchedulerAndTableTimers := by
  unfold Obligations.SchedulerAndTableTimers
  refine ⟨fun e s p l h hop => ⟨fun hk => ?_, fun k hk hle => ?_⟩, fun e s p h hop => ?_, fun p w x => ?_, fun e s p k h hk => ?_, fun e s p h hk => ?_,
    fun p => changes_of_onEngine fun e s => ?_, fun p => changes_of_onEngine fun e s => ?_, fun e s h hd => ?_, fun e s t r h hd => ?_,
    fun e s h hd => ?_, fun e s t r h hd => ?_, does_of_onEngine fun _ _ => rfl, fun e s h hf => ?_, fun e s t h hf => ?_, fun x t hf => ?_,
    fun e s h hd => ?_, fun e s d h hd => ?_⟩
  · dsimp only [exec]
    simp only [execGclEntryChange, onEngine_inOperation h, hop]
    cases hc : ((s.eng e).eg p.val).commit with
    | none => simp
    | some k => rw [if_neg (by simpa using hk k hc)]
  · dsimp only [exec]
    simp only [execGclEntryChange, onEngine_inOperation h, hop, hk]
    rw [if_pos (by simpa using hle)]
  · dsimp only [exec]
    simp only [execGclEntryChange, onEngine_inOperation h, hop]
  · simp only [enterGcl, eg_modEgPort]
    refine ⟨trivial, ?_, ?_, ?_⟩
    · rintro (ha | ⟨h1, h2⟩)
      · simp [ha]
      · simp [h1, h2]
    · intro ha h1
      simp [ha, h1]
    · intro ha h2
      simp [ha, h2]
  · dsimp only [exec]
    simp only [execGclChangeTime, onEngine_inOperation h, hk, decide_eq_true_eq] <;> cases k.list <;> rfl
  · dsimp only [exec]
    simp only [execGclChangeTime, onEngine_inOperation h, hk]
  · dsimp only [exec]
    simp only [execPreemptVerifyTimer, Bool.or_eq_true, bne_iff_ne, Bool.not_eq_true', not_and_or, Bool.not_eq_true, or_assoc, ne_eq]
  · dsimp only [exec]
    simp only [execPreemptVerifyResponse, Bool.and_eq_true, beq_iff_eq, and_assoc]
  · dsimp only [exec]
    simp only [execDupForget, onEngine_inOperation h, hd, List.map_nil]
  · dsimp only [exec]
    simp only [execDupForget, onEngine_inOperation h, hd]
  · dsimp only [exec]
    simp only [execProxyAge, onEngine_inOperation h, hd, List.map_nil]
  · dsimp only [exec]
    simp only [execProxyAge, onEngine_inOperation h, hd]
  · dsimp only [exec]
    simp only [execFlipAt, onEngine_inOperation h, hf]
  · dsimp only [exec]
    simp only [execFlipAt, onEngine_inOperation h, hf]
  · simp [flipBank, hf]
  · dsimp only [exec]
    simp only [execDrainEnd, rowDrainEnd, onEngine_inOperation h, endDrain, hd, settledOut]
  · dsimp only [exec]
    simp only [execDrainEnd, rowDrainEnd, onEngine_inOperation h, endDrain, hd, settledOut]

/-- Settles O56: each row on its engine, by the window or block that it names. -/
theorem faultEvents : Obligations.FaultEvents := by
  unfold Obligations.FaultEvents
  refine ⟨fun e s m h hm => ?_, fun e s h hr hs => ?_, fun e s src k inj w h hw => ?_, fun e s inj w h hw => ?_, fun e s src k inj h hw => ⟨?_, ?_⟩,
    fun b => changes_of_onEngine fun _ _ => rfl, fun b => doesThenSettles_of_onEngine fun _ _ => rfl, doesThenSettles_of_onEngine fun _ _ => rfl,
    doesThenSettles_of_onEngine fun _ _ => rfl, changes_of_onEngine fun e s => ?_, changes_of_onEngine fun _ _ => rfl,
    changes_of_onEngine fun _ _ => rfl, fun b l => ⟨?_, ?_, rfl⟩, fun st n o late => does_of_onEngine fun e s => ?_,
    fun t i => ⟨changes_of_onEngine fun _ _ => rfl, does_of_onEngine fun _ _ => rfl⟩⟩
  · dsimp only [exec]
    simp only [execFaultMessageArrival, rowFaultMessageArrival, onEngine_inOperation h, arriveFault, hm, settledOut]
  · dsimp only [exec]
    simp only [execFaultMessageArrival, rowFaultMessageArrival, onEngine_inOperation h, arriveFault, hr, hs, settledOut, List.append_nil, ringFirst]
  · dsimp only [exec]
    simp only [execF2WindowEnd, rowF2WindowEnd, onEngine_inOperation h, endF2, hw, settledOut]
  · dsimp only [exec]
    simp only [execF3WindowEnd, rowF3WindowEnd, onEngine_inOperation h, endF3, hw, settledOut]
  · dsimp only [exec]
    simp only [execF2WindowEnd, rowF2WindowEnd, onEngine_inOperation h, endF2, hw, settledOut, List.find?_nil]
  · dsimp only [exec]
    simp only [execF3WindowEnd, rowF3WindowEnd, onEngine_inOperation h, endF3, hw, settledOut, List.find?_nil]
  · dsimp only [exec]
    simp only [execFwWatchdog, Bool.and_eq_true, Option.isSome_iff_ne_none]
  · cases b <;> rfl
  · cases b <;> rfl
  · dsimp only [exec]
    simp only [execBufferScrub, Bool.and_eq_true, decide_eq_true_eq, Bool.not_eq_true', and_assoc] <;> cases st <;> rfl

/-- Settles O57: each row on its engine. -/
theorem calibrationEvents : Obligations.CalibrationEvents := by
  unfold Obligations.CalibrationEvents
  refine ⟨fun k i => does_of_onEngine fun e s => ?_, fun e s k i v h => ⟨?_, fun hp hd he hs => ?_⟩, fun e s k i h hd => ?_, fun e s k i h hp hd he hs => ?_,
    changes_of_onEngine fun _ _ => rfl, fun r => changes_of_onEngine fun _ _ => rfl, fun e s h hr => ?_, fun e s h hr => ?_⟩
  · dsimp only [exec]
    simp only [execCalDue, Bool.and_eq_true, Bool.not_eq_true', and_assoc]
  · dsimp only [exec]
    simp only [execCalProbe, rowCalProbe, onEngine_inOperation h, settledOut]
    rfl
  · dsimp only [exec]
    simp only [execCalProbe, rowCalProbe, onEngine_inOperation h, settledOut, hp, hd, he, hs]
    rfl
  · dsimp only [exec]
    simp only [execCalStarve, rowCalStarve, onEngine_inOperation h, settledOut, hd]
    simp
  · dsimp only [exec]
    simp only [execCalStarve, rowCalStarve, onEngine_inOperation h, settledOut, hp, hd, he, hs]
    rfl
  · dsimp only [exec]
    simp only [execRepairPassEnd, rowRepairPassEnd, onEngine_inOperation h, settledOut, hr]
    rfl
  · dsimp only [exec]
    simp only [execRepairPassEnd, rowRepairPassEnd, onEngine_inOperation h, settledOut, hr]
    rfl

/-- Settles O58: each row on its engine. -/
theorem snapshotAndSampleEvents : Obligations.SnapshotAndSampleEvents := by
  unfold Obligations.SnapshotAndSampleEvents
  refine ⟨fun e s h hp => ?_, fun e s h hp => ?_, fun x _ hp => snapInstant_periodicSnapshot_ne hp _, fun x b => (takeSnapshot_fields b x).1,
    does_of_onEngine fun _ _ => rfl, does_of_onEngine fun _ _ => rfl⟩
  · dsimp only [exec]
    simp only [execSnapshotInstant, onEngine_inOperation h, if_pos hp]
  · dsimp only [exec]
    simp only [execSnapshotInstant, onEngine_inOperation h, if_neg hp]

/-- Settles O59: each row by its channel. -/
theorem hostInterfaceEvents : Obligations.HostInterfaceEvents := by
  unfold Obligations.HostInterfaceEvents
  refine ⟨fun r => doesThenSettles_of_onEngine fun _ _ => rfl, fun r i d => doesThenSettles_of_onEngine fun _ _ => rfl, fun r i d x hen hup => ?_,
    fun o bs => changes_of_onEngine fun _ _ => rfl, fun n => doesThenSettles_of_onEngine fun _ _ => rfl, changes_of_onEngine fun _ _ => rfl,
    fun bs w => doesThenSettles_of_onEngine fun _ _ => rfl, doesThenSettles_of_onEngine fun _ _ => rfl, doesThenSettles_of_onEngine fun _ _ => rfl,
    fun b => changes_of_onEngine fun _ _ => rfl, fun m => changes_of_onEngine fun _ _ => rfl, fun r => changes_of_onEngine fun _ _ => rfl,
    fun c hc => changes_of_onEngine fun e s => ?_, fun c hc => does_of_onEngine fun e s => ?_, fun _ _ _ _ => rfl, fun _ _ _ => rfl,
    fun s h => ⟨?_, ?_, ?_, ?_⟩, fun s whole h => ⟨?_, ?_, ?_⟩⟩
  · simp only [doorbell, hen, hup, Bool.not_true, Bool.or_self, Bool.false_eq_true, if_false]
    refine ⟨?_, fun hst hle => ?_, fun hst hlt => ?_⟩
    · split
      · rw [ring_modRing]
      · split
        · rw [ring_stopRing, ring_modRing]
        · rw [ring_modRing, ring_modRing]
    · rw [if_neg (by simp [hst]), if_neg (by omega), ring_modRing, ring_modRing]
    · rw [if_neg (by simp [hst]), if_pos hlt, ring_stopRing]
      exact ⟨rfl, rfl⟩
  · fin_cases c
    · rfl
    · rfl
    · rfl
    · exact absurd rfl hc
  · obtain rfl : c = 3 := Fin.ext hc
    rfl
  · dsimp only [exec]
    simp only [execSpiReadStatus, onSpi, h, if_true]
  · dsimp only [exec]
    simp only [execSpiUnknownInstruction, onSpi, h, if_true]
  · dsimp only [exec]
    simp only [execSpiReadReply, onSpi, h, settledOut, if_true]
    rfl
  · dsimp only [exec]
    simp only [execSpiReadReply, onSpi, h, settledOut, if_true]
  · dsimp only [exec]
    simp only [execSpiReadStatus, onSpi, h]
    rfl
  · dsimp only [exec]
    simp only [execSpiUnknownInstruction, onSpi, h]
    rfl
  · dsimp only [exec]
    simp only [execSpiReadReply, onSpi, h, settledOut]
    rfl

/-- Settles O60: each row by its unit. -/
theorem firmwareEvents : Obligations.FirmwareEvents := by
  unfold Obligations.FirmwareEvents
  have hunit {u : UnitId} {s : State} (hu : unitFitted s.part u = true) (f : State → State) : onUnit u s f = .next (f s) := by
    cases u with
    | sup => rfl
    | eng e => exact if_pos hu
  refine ⟨fun s u hu hn => ?_, fun s u q hu hq => ?_, fun s e m he hm => ?_, fun s m hm => ?_, fun s u hu hn => ?_, fun s u hu hn => ?_,
    fun s e svn keys he hb => ?_, fun s svn keys hb => ?_⟩
  · dsimp only [exec]
    simp only [execFwSessionTimeout, hunit hu, abandonUnit, hn]
  · dsimp only [exec]
    simp only [execFwSessionTimeout, hunit hu, abandonUnit, hq]
  · dsimp only [exec]
    simp only [execFwRestartExecute, rowFwRestartExecute, hunit (u := .eng e) he, restartUnit, hm, settledOut]
  · dsimp only [exec]
    simp only [execFwRestartExecute, rowFwRestartExecute, hunit (u := .sup) rfl, restartUnit, hm, settledOut]
  · dsimp only [exec]
    simp only [execFwRestartExecute, rowFwRestartExecute, hunit hu, restartUnit, hn, settledOut]
  · dsimp only [exec]
    simp only [execFuseBurnDone, hunit hu, burnDone, hn, settledOut]
  · dsimp only [exec]
    simp only [execFuseBurnDone, hunit (u := .eng e) he, burnDone, hb, settledOut]
  · dsimp only [exec]
    simp only [execFuseBurnDone, hunit (u := .sup) rfl, burnDone, hb, settledOut]

end Sys2Proof
end

section
/-! The supply, the resets and the rails, the start of an engine and the supervisor. -/

namespace Sys2Proof.Machine

/-! What the loss of the rails keeps: what sessions and burns that are cut short leave as it is. -/

/-- Everything but flash, sessions and burns is as it was. -/
structure CutShort (s t : State) : Prop where
  part : t.part = s.part
  pending : t.pending = s.pending
  power : t.power = s.power
  log : t.sup.log = s.sup.log
  faultA : t.engA.fault = s.engA.fault
  faultB : t.engB.fault = s.engB.fault

theorem CutShort.trans {s t u : State} (h : CutShort s t) (g : CutShort t u) : CutShort s u :=
  ⟨g.part.trans h.part, g.pending.trans h.pending, g.power.trans h.power, g.log.trans h.log, g.faultA.trans h.faultA, g.faultB.trans h.faultB⟩

theorem abandonSession_cutShort (e : EngId) (s : State) : CutShort s (abandonSession e s) := by
  unfold abandonSession
  split
  · exact ⟨rfl, rfl, rfl, rfl, rfl, rfl⟩
  · cases e <;> exact ⟨rfl, rfl, rfl, rfl, rfl, rfl⟩

theorem abandonSession_sup (e : EngId) (s : State) : (abandonSession e s).sup = s.sup := by
  unfold abandonSession
  split
  · rfl
  · cases e <;> rfl

theorem abandonAll_cutShort (s : State) : CutShort s (abandonAll s) := by
  refine ((abandonSession_cutShort .a s).trans (abandonSession_cutShort .b _)).trans ?_
  unfold abandonAll
  dsimp only
  split <;> exact ⟨rfl, rfl, rfl, rfl, rfl, rfl⟩

theorem abandonAll_supFuses (s : State) : (abandonAll s).sup.fw.burn = s.sup.fw.burn ∧ (abandonAll s).sup.fw.svnFuse = s.sup.fw.svnFuse
    ∧ (abandonAll s).sup.fw.revoked = s.sup.fw.revoked := by
  have hsup : (abandonSession .b (abandonSession .a s)).sup = s.sup := by rw [abandonSession_sup, abandonSession_sup]
  unfold abandonAll
  dsimp only
  split
  · rw [hsup]; exact ⟨rfl, rfl, rfl⟩
  · rw [hsup]; exact ⟨rfl, rfl, rfl⟩

theorem cutEngineBurn_cutShort (e : EngId) (s : State) : CutShort s (cutEngineBurn e s) := by
  unfold cutEngineBurn
  split
  · exact ⟨rfl, rfl, rfl, rfl, rfl, rfl⟩
  · cases e <;> exact ⟨rfl, rfl, rfl, rfl, rfl, rfl⟩

theorem cutEngineBurn_sup (e : EngId) (s : State) : (cutEngineBurn e s).sup = s.sup := by
  unfold cutEngineBurn
  split
  · rfl
  · cases e <;> rfl

theorem cutBurns_cutShort (s : State) : CutShort s (cutBurns s) := by
  refine ((cutEngineBurn_cutShort .a s).trans (cutEngineBurn_cutShort .b _)).trans ?_
  unfold cutBurns
  dsimp only
  split <;> exact ⟨rfl, rfl, rfl, rfl, rfl, rfl⟩

/-- The supervisor's fuses after the burns are cut short: as a burn that a free value cuts leaves them. -/
theorem cutBurns_supFw (s : State) : ∃ n, (cutBurns s).sup.fw = cutBurn n s.sup.fw := by
  have hsup : (cutEngineBurn .b (cutEngineBurn .a s)).sup = s.sup := by rw [cutEngineBurn_sup, cutEngineBurn_sup]
  unfold cutBurns
  dsimp only
  rw [hsup]
  split
  next hb => exact ⟨0, by rw [hsup, cutBurn, Option.isNone_iff_eq_none.mp hb]⟩
  · refine ⟨(takeFree (cutEngineBurn .b (cutEngineBurn .a s))).1, congrArg (cutBurn _) ?_⟩
    exact congrArg SupState.fw hsup

theorem cutBurn_svnFuse (n : Nat) (f : FwUnit) : (cutBurn n f).svnFuse = f.svnFuse ∨ ∃ k, f.burn = some k ∧ (cutBurn n f).svnFuse = k.1 := by
  unfold cutBurn
  split
  · exact .inl rfl
  next svn keys hb =>
    cases h : decide (n % 2 = 1)
    · exact .inl (if_neg (of_decide_eq_false h))
    · exact .inr ⟨(svn, keys), hb, if_pos (of_decide_eq_true h)⟩

theorem cutBurn_revoked_of_none {f : FwUnit} (n : Nat) (h : f.burn = none) : (cutBurn n f).revoked = f.revoked := by
  simp [cutBurn, h]

theorem cutBurn_revoked_of_some {f : FwUnit} (n : Nat) {k : Nat × BitVec 4} (h : f.burn = some k) :
    ∃ j ≤ 4, (cutBurn n f).revoked = f.revoked ||| (k.2 &&& BitVec.ofNat 4 (2 ^ j - 1)) :=
  ⟨n / 2 % 5, by omega, by simp [cutBurn, h]⟩

/-! The supervisor's log, which only `logEntry` writes. -/

theorem foldl_log {α : Type} (f : State → α → State) (h : ∀ t a, (f t a).sup.log = t.sup.log) (l : List α) (s : State) :
    (l.foldl f s).sup.log = s.sup.log := by
  induction l generalizing s with
  | nil => rfl
  | cons a l ih => rw [List.foldl_cons, ih, h]

theorem deliver_log (a : Arrival) (r : Reply) (s : State) : (deliver a r s).sup.log = s.sup.log := by
  unfold deliver
  split
  · rfl
  · rw [modEng_sup]

theorem flushWaiting_log (e : EngId) (s : State) : (flushWaiting e s).sup.log = s.sup.log :=
  (foldl_log _ (fun _ _ => deliver_log _ _ _) _ _).trans (by rw [modEng_sup])

theorem flushSup_log (s : State) : (flushSup s).sup.log = s.sup.log := foldl_log _ (fun _ _ => deliver_log _ _ _) _ _

@[simp] theorem complete_log (e : EngId) (c : Await) (st : Status) (body : Engine → Waiting → List Word) (s : State) :
    (complete e c st body s).sup.log = s.sup.log := (flushWaiting_log e _).trans (by rw [setEng_sup])

@[simp] theorem completeSup_log (c : Await) (st : Status) (body : List Word) (s : State) : (completeSup c st body s).sup.log = s.sup.log :=
  flushSup_log _

@[simp] theorem endPlan_log (st : Status) (s : State) : (endPlan st s).sup.log = s.sup.log := by
  unfold endPlan
  split <;> simp

@[simp] theorem stopRepair_log (e : EngId) (s : State) : (stopRepair e s).sup.log = s.sup.log := by
  unfold stopRepair
  dsimp only
  split
  · cases e <;> rfl
  · rfl

@[simp] theorem dropSwitch_log (e : EngId) (s : State) : (dropSwitch e s).sup.log = s.sup.log := by
  unfold dropSwitch
  repeat' split
  all_goals simp

@[simp] theorem lowBalls_log (e : EngId) (s : State) : (lowBalls e s).sup.log = s.sup.log := by
  unfold lowBalls
  split <;> rfl

@[simp] theorem muteCommands_log (e : EngId) (s : State) : (muteCommands e s).sup.log = s.sup.log := rfl

@[simp] theorem setRole_log (e : EngId) (r : Nat) (s : State) : (setRole e r s).sup.log = s.sup.log := by
  have hreport (t : State) : (reportRole e t).sup.log = t.sup.log := by
    unfold reportRole
    split <;> simp
  unfold setRole idleCopy setCopy
  split <;> simp [hreport]

@[simp] theorem enterCul_log (e : EngId) (s : State) : (enterCul e s).sup.log = s.sup.log := by
  simp [enterCul, abandonSession_sup]

@[simp] theorem enterCulAll_log (s : State) : (enterCulAll s).sup.log = s.sup.log := by
  unfold enterCulAll
  dsimp only
  repeat' split
  all_goals simp

theorem logEntry_log_length (e : EngId) (m : BitVec 64) (s : State) : (logEntry e m s).sup.log.length = min 64 (s.sup.log.length + 1) := by
  simp only [logEntry, List.length_drop, List.length_append, List.length_cons, List.length_nil]
  omega

theorem supervisorFault_log_length (k : Nat) (a : Word) (s : State) : (supervisorFault k a s).sup.log.length = min 64 (s.sup.log.length + 1) := by
  unfold supervisorFault
  dsimp only
  rw [enterCulAll_log, logEntry_log_length, modEng_sup]

/-! The supervisor's boot touches the supervisor's firmware alone. -/

theorem bootUnit_sup (s : State) : ∃ fw, bootUnit .sup s = { s with sup := { s.sup with fw := fw } } := by
  unfold bootUnit
  dsimp only
  split <;> exact ⟨_, rfl⟩

/-! What an engine's repairs and calibration keep: its core, its host's side and its time. -/

structure SameSides (x y : Engine) : Prop where
  core : y.core = x.core
  host : y.host = x.host
  time : y.time = x.time

theorem SameSides.refl (x : Engine) : SameSides x x := ⟨rfl, rfl, rfl⟩

theorem SameSides.trans {x y z : Engine} (h : SameSides x y) (g : SameSides y z) : SameSides x z :=
  ⟨g.core.trans h.core, g.host.trans h.host, g.time.trans h.time⟩

theorem foldl_sameSides {α : Type} {f : Engine → α → Engine} (h : ∀ y a, SameSides y (f y a)) (l : List α) (x : Engine) :
    SameSides x (l.foldl f x) := by
  induction l generalizing x with
  | nil => exact .refl x
  | cons a l ih => exact (h x a).trans (ih _)

theorem modBuf_sameSides (x : Engine) (f : BufState → BufState) : SameSides x (x.modBuf f) := ⟨rfl, rfl, rfl⟩

theorem raise_sameSides (x : Engine) (a k c : Nat) (w : Word) : SameSides x (x.raise a k c w) := ⟨rfl, rfl, rfl⟩

theorem retireCell_sameSides (x : Engine) (c : Nat) : SameSides x (retireCell c x) := by
  unfold retireCell
  dsimp only
  split
  · exact .refl x
  · split
    · exact ((modBuf_sameSides ..).trans (modBuf_sameSides ..)).trans (raise_sameSides ..)
    · exact modBuf_sameSides ..

theorem repairCell_sameSides (v c : Nat) (x : Engine) : SameSides x (repairCell v c x) := by
  unfold repairCell
  dsimp only
  split
  · exact ⟨rfl, rfl, rfl⟩
  · split <;> exact ⟨rfl, rfl, rfl⟩
  · split <;> exact ⟨rfl, rfl, rfl⟩
  · split <;> exact ⟨rfl, rfl, rfl⟩
  · split <;> exact ⟨rfl, rfl, rfl⟩
  · exact .refl x

theorem repairEntry_sameSides (x : Engine) (i : Nat) : SameSides x (repairEntry i x) := by
  unfold repairEntry
  dsimp only
  split <;> exact ⟨rfl, rfl, rfl⟩

theorem SameSides.withCal {x y : Engine} (h : SameSides x y) (c : CalState) : SameSides x { y with cal := c } := ⟨h.core, h.host, h.time⟩

theorem startPass_eng (e : EngId) (s : State) : ∃ x n, startPass e s = { s.setEng e x with freeCtr := n } ∧ SameSides (s.eng e) x := by
  refine ⟨_, _, rfl, ?_⟩
  refine SameSides.trans ?_ (foldl_sameSides repairEntry_sameSides _ _)
  refine SameSides.withCal ?_ _
  exact (foldl_sameSides retireCell_sameSides _ _).trans (foldl_sameSides (fun y _ => repairCell_sameSides _ _ y) _ _)

theorem initialCalibration_eng (e : EngId) (s : State) : ∃ x n, initialCalibration e s = { s.setEng e x with freeCtr := n }
    ∧ SameSides (s.eng e) x ∧ x.cal.initDone = true := by
  have hpath (n k l : Nat) (y : Engine) : SameSides y (calibratePath s.freeCtr n k l y) := ⟨rfl, rfl, rfl⟩
  refine ⟨_, _, rfl, ?_, rfl⟩
  refine SameSides.withCal ?_ _
  refine SameSides.trans ?_ (foldl_sameSides (fun y o => hpath 1 4 o y) _ _)
  exact foldl_sameSides (fun y l => foldl_sameSides (fun z k => hpath 9 k l z) _ y) _ _

/-- The pass before the initial calibration, and the calibration. -/
theorem calibratedStart_eng (e : EngId) (s : State) : ∃ x n, initialCalibration e (startPass e s) = { s.setEng e x with freeCtr := n }
    ∧ SameSides (s.eng e) x ∧ x.cal.initDone = true := by
  obtain ⟨x, n, hstart, hx⟩ := startPass_eng e s
  obtain ⟨y, k, hcal, hy, hdone⟩ := initialCalibration_eng e (startPass e s)
  have heng : (startPass e s).eng e = x := by
    rw [hstart]
    cases e <;> rfl
  refine ⟨y, k, ?_, hx.trans (heng ▸ hy), hdone⟩
  rw [hcal, hstart]
  cases e <;> rfl

end Sys2Proof.Machine

namespace Sys2Proof

open Sys2Proof.Machine

/-- Settles O33: by whether the power was cycled. -/
theorem supplyValidStartsTheModule : Obligations.SupplyValidStartsTheModule := by
  unfold Obligations.SupplyValidStartsTheModule
  refine ⟨fun s h => congrArg _ (startSupply_valid h), fun s hv => ⟨startSupply s, rfl, startSupply_power hv, fun hc => ?_, fun hc => ?_, ?_⟩⟩
  · rw [startSupply_cycled hv hc]
    exact ⟨rfl, rfl, rfl⟩
  · rw [startSupply_uncycled hv hc]
    exact ⟨rfl, rfl, rfl⟩
  · cases hc : s.power.cycled
    · rw [startSupply_uncycled hv hc]
      exact ⟨rfl, rfl, rfl, rfl, rfl, rfl⟩
    · rw [startSupply_cycled hv hc]
      exact ⟨rfl, rfl, rfl, rfl, rfl, rfl⟩

/-- Settles O34: what is cut short keeps power and fuses, read off row by row. -/
theorem supplyLossAndHoldup : Obligations.SupplyLossAndHoldup := by
  unfold Obligations.SupplyLossAndHoldup
  have hloss {s : State} {c : Instr} (hc : c = .brownOut ∨ c = .thermalShutdown) :
      exec c s = .next (if s.power.supplyValid then loseRails true s else s) := by
    obtain rfl | rfl := hc <;> rfl
  have hkept (s : State) : CutShort s (cutBurns (abandonAll s)) := (abandonAll_cutShort s).trans (cutBurns_cutShort _)
  refine ⟨fun s c hc hv => ⟨loseRails true s, ?_, rfl, rfl, rfl, rfl, rfl, rfl, rfl, ?_, rfl, rfl, ?_, ?_, rfl, ?_, ?_, ?_, ?_, ?_, ?_, rfl, rfl, rfl, rfl⟩,
    fun s c hc hv => ?_, fun _ => rfl, fun s hv => ⟨?_, ?_⟩, fun s hv => ⟨?_, ?_⟩⟩
  · rw [hloss hc, if_pos hv]
  · show (cutBurns (abandonAll s)).power.cycled = _
    rw [(hkept s).power]
  · show (cutBurns (abandonAll s)).engA.fault.f4Latched = _
    rw [(hkept s).faultA]
  · show (cutBurns (abandonAll s)).engB.fault.f4Latched = _
    rw [(hkept s).faultB]
  · exact (hkept s).log
  · exact (hkept s).part
  · exact (hkept s).pending
  · obtain ⟨n, hn⟩ := cutBurns_supFw (abandonAll s)
    obtain ⟨hb, hsvn, -⟩ := abandonAll_supFuses s
    show (cutBurns (abandonAll s)).sup.fw.svnFuse = _ ∨ ∃ k, _ ∧ (cutBurns (abandonAll s)).sup.fw.svnFuse = _
    rw [hn, ← hsvn, ← hb]
    exact cutBurn_svnFuse n _
  · intro hnone
    obtain ⟨n, hn⟩ := cutBurns_supFw (abandonAll s)
    obtain ⟨hb, -, hrev⟩ := abandonAll_supFuses s
    show (cutBurns (abandonAll s)).sup.fw.revoked = _
    rw [hn, ← hrev]
    exact cutBurn_revoked_of_none n (hb.trans hnone)
  · intro k hk
    obtain ⟨n, hn⟩ := cutBurns_supFw (abandonAll s)
    obtain ⟨hb, -, hrev⟩ := abandonAll_supFuses s
    show ∃ j ≤ 4, (cutBurns (abandonAll s)).sup.fw.revoked = _
    rw [hn, ← hrev]
    exact cutBurn_revoked_of_some n (hb.trans hk)
  · rw [hloss hc, hv]
    rfl
  · exact congrArg _ (if_pos hv)
  · exact congrArg _ (if_pos hv)
  · exact congrArg _ (if_neg (by simp [hv]))
  · exact congrArg _ (if_neg (by simp [hv]))

/-- Settles O35: each row by the phase of the start. -/
theorem resetLineAndRails : Obligations.ResetLineAndRails := by
  unfold Obligations.ResetLineAndRails
  refine ⟨fun _ => rfl, fun _ => rfl, fun s rail hrun heng => ⟨?_, ?_⟩, fun s rail hrun hA hB => ⟨?_, ?_⟩, supervisorFault_log_length, fun _ => rfl,
    fun s rail hrun => ⟨?_, ?_⟩, fun s hv hrun hfw => ?_, fun s i hv hrun hfw => ?_, fun s hrun hv hr => ?_, fun s e hm => ?_⟩
  · show Host.Outcome.next (powerDieFault 0x01 rail _) = _
    rw [powerDieFault, if_pos hrun, if_pos (by simpa using heng)]
  · show Host.Outcome.next (powerDieFault 0x02 0 s) = _
    rw [powerDieFault, if_pos hrun, if_pos (by simpa using heng)]
  · show Host.Outcome.next (powerDieFault 0x01 rail _) = _
    rw [powerDieFault, if_pos hrun, if_neg (by obtain hB | hB := hB <;> simp [hA, hB])]
  · show Host.Outcome.next (powerDieFault 0x02 0 s) = _
    rw [powerDieFault, if_pos hrun, if_neg (by obtain hB | hB := hB <;> simp [hA, hB])]
  · show Host.Outcome.next (powerDieFault 0x01 rail _) = _
    rw [powerDieFault, if_neg (by simp [hrun])]
  · show Host.Outcome.next (powerDieFault 0x02 0 s) = _
    rw [powerDieFault, if_neg (by simp [hrun])]
  · obtain ⟨fw, hboot⟩ := bootUnit_sup s
    rw [hboot] at hfw
    show ∃ t, execSupervisorBoot s = .next t ∧ _
    rw [execSupervisorBoot, if_neg (by simp [hv, hrun]), hboot]
    exact ⟨_, if_pos (Option.isNone_iff_eq_none.mpr hfw), rfl, hrun, rfl, rfl, rfl, rfl⟩
  · show execSupervisorBoot s = _
    rw [execSupervisorBoot, if_neg (by simp [hv, hrun])]
    exact if_neg (by simp [hfw])
  · show execRailSequenceDone s = _
    rw [execRailSequenceDone, if_pos (by simp [hrun, hv, hr])]
  · have hfit : engFitted s.part e = true := by
      simp only [mayLeave, Bool.and_eq_true, and_assoc] at hm
      exact hm.1
    show execEngineLeaveReset e s = _
    rw [execEngineLeaveReset, if_pos hfit, leaveReset, if_pos hm]

/-- Settles O36: each step of the start by its unit. -/
theorem engineStart : Obligations.EngineStart := by
  unfold Obligations.EngineStart
  refine ⟨fun s e bad h hph => ?_, fun s e hf hph hr => ?_, fun s e hf hph hr hf4 => ?_, fun s ht => ?_⟩
  · intro s1 s2
    show execEngineBoot e bad s = _
    rw [execEngineBoot, if_neg (by simp [h.fitted]), if_neg (by simp [hph])]
    simp only [Option.isNone_iff_eq_none, Bool.and_eq_true, Bool.not_eq_true']
    split_ifs <;> rfl
  · have hawake : (s.eng e).awake = true := by simp [Engine.awake, hph]
    show ∃ x n, execInitialCalibrationDone e s = _ ∧ _
    rw [execInitialCalibrationDone, onEngine_inOperation ⟨hf, hawake⟩, if_pos ⟨hph, hr⟩]
    obtain ⟨x, n, hcal, hx, hdone⟩ :=
      calibratedStart_eng e (s.setEng e { s.eng e with core := { (s.eng e).core with phase := .calibrated } })
    refine ⟨x, n, ?_, ?_, hdone, ?_, ?_⟩
    · rw [hcal]
      cases e <;> rfl
    · rw [hx.core]
      cases e <;> rfl
    · rw [hx.host]
      cases e <;> rfl
    · rw [hx.time]
      cases e <;> rfl
  · have hawake : (s.eng e).awake = true := by simp [Engine.awake, hph]
    show execEngineReady e s = _
    rw [execEngineReady, onEngine_inOperation ⟨hf, hawake⟩, if_pos ⟨hph, hr, hf4⟩]
  · exact if_pos ht

/-- Settles O38: by the two beats, row by row of Table 11.2. -/
theorem activeIsJudgedByItsBeats : Obligations.ActiveIsJudgedByItsBeats := by
  unfold Obligations.ActiveIsJudgedByItsBeats
  intro s w e d hsound hsw hw hd hne hel
  have hrow : judgeActive w s = match (s.sup.view e).beat, fofSeen d s with
      | .giveUp, .giveUp => startSwitch 1 e d s
      | .giveUp, .absent => startSwitch 1 e d s
      | .giveUp, _ => if w then startSwitch 1 e d s else s
      | .absent, .absent => startSwitch 2 e d s
      | _, _ => s := by
    rw [judgeActive, if_neg (by simp [hsound, hsw]), hw, hd]
    exact if_neg (by simp [hne, hel])
  rw [hrow]
  refine ⟨fun hb hf => ?_, fun hb hf => ?_, fun hb => ?_, fun hb hf => ?_⟩
  · cases hv : fofSeen d s <;> simp_all
  · rw [hb, hf]
  · rw [hb]
  · cases hv : fofSeen d s <;> simp_all

/-- Settles O39: each row by the supervisor's state. -/
theorem supervisorFaultsAndRecovery : Obligations.SupervisorFaultsAndRecovery := by
  unfold Obligations.SupervisorFaultsAndRecovery
  have hdue (x : Engine) : (if x.core.supRestart = true then
        supFault { x with core := { x.core with supRestart := false, supOk := false } } else x).core
      = { x.core with supRestart := false, supOk := !x.core.supRestart && x.core.supOk } := by
    cases hx : x.core.supRestart
    · rw [if_neg (by simp), Bool.not_false, Bool.true_and, ← hx]
    · rw [if_pos rfl, supFault_core]
      rfl
  have hreports : supFault = fun x : Engine => if x.running = true then x.raise 0x0E 0x01 2 0 else x := rfl
  refine ⟨fun s c hr hf => ?_, fun s hr hf ht => ?_, fun s hr hf ht => ?_, fun s h => ?_, fun s h => ?_, fun s hA hB => ?_⟩
  · show execSupervisorFault c s = _
    rw [execSupervisorFault, if_pos (by simp [hr, hf]), hreports]
  · show settledOut (rowSupervisorRecovery s) = _
    rw [rowSupervisorRecovery, if_pos (by simp [hr, hf]), recoverSup]
    dsimp only
    rw [if_neg (by simp [ht])]
    rfl
  · show settledOut (rowSupervisorRecovery s) = _
    rw [rowSupervisorRecovery, if_pos (by simp [hr, hf]), recoverSup]
    dsimp only
    rw [if_pos ht]
    rfl
  · show settledOut (rowSupervisorRecovery s) = _
    rw [rowSupervisorRecovery, if_neg (by obtain h | h := h <;> simp [h])]
    rfl
  · refine ⟨_, congrArg Host.Outcome.next (if_pos (by simpa using h)), rfl, rfl, rfl, hdue s.engA, hdue s.engB⟩
  · exact congrArg _ (if_neg (by simp [hA, hB]))

end Sys2Proof
end

section
/-! Heartbeats, the mirroring to the standby, and the event inputs and outputs. -/

namespace Sys2Proof.Machine

theorem modView_sound (p : SupState) (e : EngId) (f : EngView → EngView) : (p.modView e f).sound = p.sound := by cases e <;> rfl
theorem modView_switch (p : SupState) (e : EngId) (f : EngView → EngView) : (p.modView e f).switch = p.switch := by cases e <;> rfl

/-- The standby is read from the part, the roles and the switchover under way. -/
theorem standby_congr {s t : State} (hp : t.part = s.part) (hA : t.engA.core.role = s.engA.core.role) (hB : t.engB.core.role = s.engB.core.role)
    (hs : t.sup.switch = s.sup.switch) : t.standby = s.standby := by
  unfold State.standby
  rw [hp, hA, hB, hs]

/-! ## What records to the host change -/

/-- Only the host's side and the counters of an engine may have changed. -/
def HostSide (x y : Engine) : Prop := y = { x with host := y.host, stats := y.stats }

theorem HostSide.refl (x : Engine) : HostSide x x := rfl

theorem HostSide.trans {x y z : Engine} (h : HostSide x y) (g : HostSide y z) : HostSide x z := by
  unfold HostSide at *
  rw [g, h]

theorem HostSide.core {x y : Engine} (h : HostSide x y) : y.core = x.core := by
  rw [HostSide] at h
  rw [h]
theorem HostSide.twin {x y : Engine} (h : HostSide x y) : y.twin = x.twin := by
  rw [HostSide] at h
  rw [h]
theorem HostSide.time {x y : Engine} (h : HostSide x y) : y.time = x.time := by
  rw [HostSide] at h
  rw [h]
theorem HostSide.rules {x y : Engine} (h : HostSide x y) : y.rules = x.rules := by
  rw [HostSide] at h
  rw [h]

theorem hostSide_modRing (x : Engine) (r : Nat) (f : Ring → Ring) : HostSide x (x.modRing r f) := rfl
theorem hostSide_irq (x : Engine) (b : Nat) : HostSide x (x.irq b) := rfl
theorem hostSide_bump (x : Engine) (i : Nat) : HostSide x (x.bump i) := rfl

theorem hostSide_fillBuffers (r : Nat) (ds : List Desc) (ws : List Word) (b : Bool) (x : Engine) : HostSide x (fillBuffers r ds ws b x) := by
  induction ds generalizing ws b x with
  | nil => cases ws <;> exact .refl x
  | cons d ds ih =>
    cases ws with
    | nil => exact .refl x
    | cons w ws =>
      unfold fillBuffers
      dsimp only
      split
      · exact ((hostSide_modRing x r _).trans (hostSide_bump _ _)).trans (ih ..)
      · exact ((hostSide_modRing x r _).trans ((hostSide_modRing _ r _).trans (hostSide_irq _ _))).trans (ih ..)

theorem hostSide_writeRecord (e : EngId) (r : Nat) (k : RingRec) (x : Engine) : HostSide x (writeRecord e r k x) :=
  (hostSide_fillBuffers ..).trans (hostSide_modRing ..)

theorem hostSide_takesRecord (r n : Nat) (x : Engine) : HostSide x (takesRecord r n x).2 := by
  unfold takesRecord
  split
  · exact .refl x
  · split
    · exact (hostSide_modRing ..).trans (hostSide_irq ..)
    · exact .refl x

theorem hostSide_offerEvent (e : EngId) (k : RingRec) (lost : Nat) (x : Engine) : HostSide x (offerEvent e k lost x) := by
  have hshort (y : Engine) : HostSide y (if ((x.ring 2).waiting.filter fun w => w.type = k.type).length < 64 then waitRecord 2 k y else y.bump lost) := by
    split
    · exact hostSide_modRing ..
    · exact hostSide_bump ..
  cases hw : (x.ring 2).waiting.isEmpty
  · simp only [offerEvent, hw, Bool.false_eq_true, if_false]
    exact hshort x
  · have htaken := hostSide_takesRecord 2 (4 + k.body.length) x
    simp only [offerEvent, hw, if_true]
    split
    · exact htaken.trans (hostSide_writeRecord ..)
    · exact htaken.trans (hshort _)

/-- A twin event reaches one engine's host and nothing else. -/
theorem twinEvent_eng (e : EngId) (ev cause : Nat) (about : EngId) (scrub st gen : Nat) (s : State) (d : EngId) :
    HostSide (s.eng d) ((twinEvent e ev cause about scrub st gen s).eng d) := by
  cases e <;> cases d <;> first | exact .refl _ | exact hostSide_offerEvent ..

@[simp] theorem twinEvent_twin (e : EngId) (ev cause : Nat) (about : EngId) (scrub st gen : Nat) (s : State) (d : EngId) :
    ((twinEvent e ev cause about scrub st gen s).eng d).twin = (s.eng d).twin := (twinEvent_eng ..).twin
@[simp] theorem twinEvent_rules (e : EngId) (ev cause : Nat) (about : EngId) (scrub st gen : Nat) (s : State) (d : EngId) :
    ((twinEvent e ev cause about scrub st gen s).eng d).rules = (s.eng d).rules := (twinEvent_eng ..).rules
@[simp] theorem twinEvent_eng_core (e : EngId) (ev cause : Nat) (about : EngId) (scrub st gen : Nat) (s : State) (d : EngId) :
    ((twinEvent e ev cause about scrub st gen s).eng d).core = (s.eng d).core := (twinEvent_eng ..).core
@[simp] theorem twinEvent_fof (e : EngId) (ev cause : Nat) (about : EngId) (scrub st gen : Nat) (s : State) :
    (twinEvent e ev cause about scrub st gen s).fof = s.fof := modEng_fof ..
@[simp] theorem twinEvent_sup (e : EngId) (ev cause : Nat) (about : EngId) (scrub st gen : Nat) (s : State) :
    (twinEvent e ev cause about scrub st gen s).sup = s.sup := modEng_sup ..

/-! ## What passes with time -/

/-- Time passes on the engines; the rest, the levels and schedules of the outputs among it, stays as it is. -/
structure OnlyTime (s t : State) : Prop where
  part : t.part = s.part
  power : t.power = s.power
  sup : t.sup = s.sup
  fof : t.fof = s.fof
  core (e : EngId) : (t.eng e).core = (s.eng e).core
  evtOut (e : EngId) : (t.eng e).time.evtOut = (s.eng e).time.evtOut

theorem passTime_evtOut (fb : Bool) (n : Nat) (t : TimeState) : (passTime fb n t).evtOut = t.evtOut := by
  unfold passTime
  dsimp only
  split <;> rfl

theorem pass_onlyTime (n : Nat) (s : State) : OnlyTime s (Machine.pass n s) := by
  have heng (x : Engine) : (passEngine n x).core = x.core ∧ (passEngine n x).time.evtOut = x.time.evtOut := by
    unfold passEngine
    split
    · exact ⟨rfl, passTime_evtOut ..⟩
    · exact ⟨rfl, rfl⟩
  exact ⟨rfl, rfl, rfl, rfl, fun e => by cases e <;> exact (heng _).1, fun e => by cases e <;> exact (heng _).2⟩

theorem passTo_onlyTime (e : EngId) (t : Nat) (s : State) : OnlyTime s (passTo e t s) := by
  unfold passTo
  dsimp only
  split
  · exact ⟨rfl, rfl, rfl, rfl, fun _ => rfl, fun _ => rfl⟩
  · exact pass_onlyTime _ s

/-! ## Event inputs -/

theorem evtIn_modEvtIn (n : Fin 8) (f : EvtIn → EvtIn) (x : Engine) : (modEvtIn n.val f x).time.evtIn[n] = f x.time.evtIn[n] := by
  rw [← vget_fin _ evtInReset n, ← vget_fin _ evtInReset n]
  exact vget_vmodN_self _ _ n.isLt f

/-- An input that does not deliver keeps its captures. -/
theorem deliverCapture_held {e : EngId} {n : Fin 8} {x : Engine} (h : x.time.evtIn[n].deliver = false) : deliverCapture e n.val x = x := by
  unfold deliverCapture
  simp only [vget_fin, h, Bool.false_and]
  split <;> simp

/-- The delivery of a capture leaves its input's sequence number. -/
theorem deliverCapture_seq (e : EngId) (n : Fin 8) (x : Engine) : ((deliverCapture e n.val x).time.evtIn[n]).seq = x.time.evtIn[n].seq := by
  unfold deliverCapture
  cases hq : x.time.evtIn[n].queue with
  | nil => simp only [vget_fin, hq]
  | cons k rest =>
    simp only [vget_fin, hq]
    split
    · split
      · rw [evtIn_modEvtIn, ((hostSide_takesRecord ..).trans (hostSide_writeRecord ..)).time]
      · exact congrArg (fun t : TimeState => (t.evtIn[n]).seq) (hostSide_takesRecord ..).time
    · rfl

/-- The input's sequence number is advanced. -/
def advanceSeq (n : Fin 8) (x : Engine) : Engine :=
  modEvtIn n.val (fun r => { r with seq := (x.time.evtIn[n].seq + 1) % 65536 }) x

theorem advanceSeq_evtIn (n : Fin 8) (x : Engine) :
    (advanceSeq n x).time.evtIn[n] = { x.time.evtIn[n] with seq := (x.time.evtIn[n].seq + 1) % 65536 } := evtIn_modEvtIn n _ x

theorem advanceSeq_queue (n : Fin 8) (x : Engine) : ((advanceSeq n x).time.evtIn[n]).queue = x.time.evtIn[n].queue := by
  rw [advanceSeq_evtIn]

/-- An edge close to the one captured before is counted alone. -/
theorem takeEdge_close {n : Fin 8} {at_ l : Nat} {x : Engine} (hl : x.time.evtIn[n].last = some l) (h : at_ < l + 8 * ns16)
    (e : EngId) (rise : Bool) (st : Stamp) : takeEdge e n.val rise at_ st x = (advanceSeq n x).bump (4 + n.val) := by
  simp only [takeEdge, vget_fin, hl, decide_eq_true h, if_true]
  rfl

theorem takeEdge_far {n : Fin 8} {at_ : Nat} {x : Engine} (h : ∀ l, x.time.evtIn[n].last = some l → l + 8 * ns16 ≤ at_)
    (e : EngId) (rise : Bool) (st : Stamp) : takeEdge e n.val rise at_ st x =
      if 64 ≤ x.time.evtIn[n].queue.length then
        (({ advanceSeq n x with time := { (advanceSeq n x).time with evtOvf := (advanceSeq n x).time.evtOvf ||| (1#8 <<< n.val) } } : Engine).bump
          (12 + n.val)).edge (edgeIrqLevel x.time) true 10
      else deliverCapture e n.val (modEvtIn n.val
        (fun r => { r with queue := r.queue ++ [{ seq := (x.time.evtIn[n].seq + 1) % 65536, rise := rise, time := st }], last := some at_ })
        (if x.clk.fallback then (advanceSeq n x).bump 0 else advanceSeq n x)) := by
  cases hl : x.time.evtIn[n].last with
  | none => simp only [takeEdge, vget_fin, hl]; rfl
  | some l =>
    have hnear : ¬ at_ < l + 8 * ns16 := Nat.not_lt.mpr (h l hl)
    simp only [takeEdge, vget_fin, hl, decide_eq_false hnear]
    rfl

/-- The input as it stands when an edge is captured, before the capture is delivered. -/
theorem captured_evtIn (n : Fin 8) (x : Engine) (f : EvtIn → EvtIn) :
    (modEvtIn n.val f (if x.clk.fallback then (advanceSeq n x).bump 0 else advanceSeq n x)).time.evtIn[n]
      = f { x.time.evtIn[n] with seq := (x.time.evtIn[n].seq + 1) % 65536 } := by
  rw [evtIn_modEvtIn, ← advanceSeq_evtIn]
  split <;> rfl

/-- An edge that is taken advances the sequence number, whatever becomes of it. -/
theorem takeEdge_seq (e : EngId) (n : Fin 8) (rise : Bool) (at_ : Nat) (st : Stamp) (x : Engine) :
    ((takeEdge e n.val rise at_ st x).time.evtIn[n]).seq = (x.time.evtIn[n].seq + 1) % 65536 := by
  by_cases hfar : ∀ l, x.time.evtIn[n].last = some l → l + 8 * ns16 ≤ at_
  · rw [takeEdge_far hfar]
    split
    · refine (congrArg (fun t : TimeState => (t.evtIn[n]).seq) (edge_time ..)).trans ?_
      exact congrArg EvtIn.seq (advanceSeq_evtIn n x)
    · rw [deliverCapture_seq, captured_evtIn]
  · push Not at hfar
    obtain ⟨l, hl, hclose⟩ := hfar
    rw [takeEdge_close hl hclose]
    exact congrArg EvtIn.seq (advanceSeq_evtIn n x)

/-! ## Event outputs -/

theorem evtOut_modEvtOut (n : Fin 8) (f : EvtOut → EvtOut) (x : Engine) : (modEvtOut n.val f x).time.evtOut[n] = f x.time.evtOut[n] := by
  rw [← vget_fin _ evtOutReset n, ← vget_fin _ evtOutReset n]
  exact vget_vmodN_self _ _ n.isLt f

theorem evtOut_modEvtOut_ne {m n : Fin 8} (h : m ≠ n) (f : EvtOut → EvtOut) (x : Engine) :
    (modEvtOut n.val f x).time.evtOut[m] = x.time.evtOut[m] := by
  rw [← vget_fin _ evtOutReset m, ← vget_fin _ evtOutReset m]
  exact vget_vmodN_ne _ _ (fun hm => h (Fin.ext hm)) f

/-- The ball of output N follows the level, where engine E owns it and neither the aligner nor a reset holds it. -/
def driveBall (e : EngId) (n : Fin 8) (lvl : Bool) (t : State) : State :=
  if t.power.steer = e ∧ t.power.alignerHolds = false ∧ t.power.alignerLow = false ∧ (t.eng e).core.role ≠ 4 then
    let m := 1#8 <<< n.val
    { t with power := { t.power with evtBalls := if lvl then t.power.evtBalls ||| m else t.power.evtBalls &&& ~~~m } }
  else t

/-- An edge on the fallback is counted. -/
def countFallbackEdge (e : EngId) (n : Fin 8) (t : State) : State :=
  if (t.eng e).clk.fallback then t.modEng e fun x => x.bump (20 + n.val) else t

/-- What an edge of output N does once its instant has come: its entry changes, the edge is counted and the ball follows. -/
def outputEdge (e : EngId) (n : Fin 8) (lvl : Bool) (f : EvtOut → EvtOut) (s : State) : State :=
  driveBall e n lvl (countFallbackEdge e n (s.modEng e (modEvtOut n.val f)))

/-- The output takes the head of its schedule. -/
def headEdge (k : EdgeEntry) (rest : List EdgeEntry) (held : Bool) (r : EvtOut) : EvtOut :=
  { r with sched := rest, level := k.action != 0, fall := if k.action = 2 then some (edgeEnd k) else none,
           missed := r.missed || (k.action == 2 && held) }

theorem driveBall_eng (e : EngId) (n : Fin 8) (lvl : Bool) (t : State) (d : EngId) : (driveBall e n lvl t).eng d = t.eng d := by
  unfold driveBall
  split
  · cases d <;> rfl
  · rfl

theorem countFallbackEdge_fields (e : EngId) (n : Fin 8) (t : State) :
    (countFallbackEdge e n t).power = t.power ∧ ((countFallbackEdge e n t).eng e).time = (t.eng e).time
      ∧ ((countFallbackEdge e n t).eng e).core = (t.eng e).core ∧ (countFallbackEdge e n t).eng (other e) = t.eng (other e) := by
  unfold countFallbackEdge
  split
  · exact ⟨modEng_power .., by rw [modEng_eng]; rfl, by rw [modEng_eng]; rfl, modEng_eng_other ..⟩
  · exact ⟨rfl, rfl, rfl, rfl⟩

theorem outputEdge_time (e : EngId) (n : Fin 8) (lvl : Bool) (f : EvtOut → EvtOut) (s : State) :
    ((outputEdge e n lvl f s).eng e).time = (modEvtOut n.val f (s.eng e)).time := by
  rw [outputEdge, driveBall_eng, (countFallbackEdge_fields ..).2.1, modEng_eng]

theorem outputEdge_other (e : EngId) (n : Fin 8) (lvl : Bool) (f : EvtOut → EvtOut) (s : State) :
    (outputEdge e n lvl f s).eng (other e) = s.eng (other e) := by
  rw [outputEdge, driveBall_eng, (countFallbackEdge_fields ..).2.2.2, modEng_eng_other]

theorem outputEdge_balls {e : EngId} {s : State} (n : Fin 8) (lvl : Bool) (f : EvtOut → EvtOut) (hs : s.power.steer = e)
    (hh : s.power.alignerHolds = false) (hl : s.power.alignerLow = false) (hr : (s.eng e).core.role ≠ 4) :
    (outputEdge e n lvl f s).power.evtBalls = if lvl then s.power.evtBalls ||| (1#8 <<< n.val) else s.power.evtBalls &&& ~~~(1#8 <<< n.val) := by
  obtain ⟨hp, -, hc, -⟩ := countFallbackEdge_fields e n (s.modEng e (modEvtOut n.val f))
  rw [outputEdge, driveBall, hp, hc, modEng_power, modEng_eng, if_pos ⟨hs, hh, hl, hr⟩]

theorem outputEdge_power {e : EngId} {s : State} (n : Fin 8) (lvl : Bool) (f : EvtOut → EvtOut) (hs : s.power.steer ≠ e) :
    (outputEdge e n lvl f s).power = s.power := by
  obtain ⟨hp, -⟩ := countFallbackEdge_fields e n (s.modEng e (modEvtOut n.val f))
  rw [outputEdge, driveBall, hp, modEng_power, if_neg fun hc => hs hc.1, hp, modEng_power]

end Sys2Proof.Machine

namespace Sys2Proof

open Sys2Proof.Machine

/-- Settles O37: each row by the part and the unit that sends. -/
theorem heartbeatsAreJudged : Obligations.HeartbeatsAreJudged := by
  unfold Obligations.HeartbeatsAreJudged
  refine ⟨fun s e g h hsup hrun => ⟨?_, ?_⟩, fun s e g ht hup hlost hA hB hs => ?_, fun s e g ht hA hB => ?_, fun s e h hsup => ?_,
    fun s e h hrun => ?_, fun s e ht hrun => ?_, fun s ht => ?_⟩
  · dsimp only [exec]
    simp only [execSidebandBeat, rowSidebandBeat, onEngine_inOperation h, hsup, hrun, settledOut, beatToSup, Bool.and_eq_true, beq_iff_eq]
    rfl
  · dsimp only [exec]
    simp only [execSidebandBeat, rowSidebandBeat, onEngine_inOperation h, hsup, hrun, settledOut]
    rfl
  · have hboth : ((s.eng e).running && (s.eng (other e)).running) = true := by cases e <;> simp [other, hA, hB]
    have hstandby : (s.modEng e fun x => { x with core := { x.core with fofUp := true } }).standby = s.standby := by cases e <;> rfl
    dsimp only [exec]
    simp only [execFofaeneBeat, rowFofaeneBeat, onTwin_twin ht, settledOut, hboth, if_true, hlost, Bool.false_eq_true, if_false, hup, beatOnFof, hstandby, if_neg hs]
  · have hboth : ((s.eng e).running && (s.eng (other e)).running) = true := by cases e <;> simp [other, hA, hB]
    dsimp only [exec]
    simp only [execFofaeneBeat, rowFofaeneBeat, onTwin_twin ht, settledOut, hboth, if_true]
  · have hstandby : ({ s with sup := s.sup.modView e fun v => { v with beat := .absent } } : State).standby = s.standby :=
      standby_congr rfl rfl rfl (modView_switch ..)
    dsimp only [exec]
    simp only [execHeartbeatLoss, rowHeartbeatLoss, onEngine_inOperation h, hsup, settledOut, lossAtSup, hstandby, modView_sound, if_true]
  · dsimp only [exec]
    simp only [execHeartbeatLoss, rowHeartbeatLoss, onEngine_inOperation h, hrun, settledOut, lossAtEngine, Bool.or_eq_true]
    rfl
  · dsimp only [exec]
    simp only [execHeartbeatLoss, rowHeartbeatLoss, onTwin_twin ht, hrun, settledOut]
    rfl
  · dsimp only [exec]
    simp only [execGiveUpWaitExpiry, rowGiveUpWaitExpiry, onTwin_twin ht, settledOut]

/-- Settles O40: each row by the part and the direction of the link. -/
theorem mirroringReachesTheStandby : Obligations.MirroringReachesTheStandby := by
  unfold Obligations.MirroringReachesTheStandby
  refine ⟨fun s ht => ?_, fun s ht hup => ?_, fun s u d ht hup ha hd hcopy hfit => ?_, fun s u d hm hne => ⟨?_, ?_⟩, fun s u d c rest hm hc hser => ?_,
    fun s u g rest ht ha hack => ?_, fun _ _ => rfl, fun s u d g ht ha hd hup hack => ?_, fun s u d ht ha hd hup hcopy hser => ?_,
    fun s u d ht ha hd hup hsynt => ⟨fun hsync => ?_, fun err held hsync => ?_⟩, fun s u d ht ha hd => ⟨fun hup => ?_, fun p st hup => ?_⟩,
    fun err held u x => ⟨?_, ?_, ?_, ?_⟩, fun s u d p st ht ha hd hup => ?_⟩
  · dsimp only [exec]
    simp only [execFofLinkDown, onTwin_twin ht, settledOut, linkDown]
  · dsimp only [exec]
    simp only [execFofLinkUp, onTwin_twin ht, fofBack, hup, if_true]
  · have ha' : ({ s with fof := { s.fof with up := true, beatLost := false } } : State).active = some u := ha
    have hd' : ({ s with fof := { s.fof with up := true, beatLost := false } } : State).standby = some d := hd
    dsimp only [exec]
    simp only [execFofLinkUp, onTwin_twin ht, fofBack, hup, ha', hd', eng_mk, hcopy, hfit, if_true, Bool.false_eq_true, if_false]
    refine ⟨_, rfl, ?_, ?_, ?_, ?_⟩
    · simp [setCopy]
    · simp [setCopy]
    · simp [setCopy]
    · simp [setCopy]
  · dsimp only [exec]
    simp only [execRunningCommit, onTwin_twin hm.twin, toStandby, hm.act, hm.sby, hm.link, hm.current, hm.serving]
    rfl
  · dsimp only [exec]
    simp only [execProxyMirror, onTwin_twin hm.twin, toStandby, hm.act, hm.sby, hm.link, hm.current, hm.serving]
    rfl
  · dsimp only [exec]
    simp only [execCommitMarkerReceived, onTwin_twin hm.twin, hm.sby, hm.link, hm.current, hser, hc]
    rfl
  · dsimp only [exec]
    simp only [execCommitAckReceived, onTwin_twin ht, commitAck, ha, hack, settledOut]
  · dsimp only [exec]
    simp only [execCopyTimeout, onTwin_twin ht, copyTimeout, ha, hd, hack, hup, settledOut, if_true]
  · dsimp only [exec]
    simp only [execFullCopyEnd, onTwin_twin ht, ha, hd, hup, hser]
    rw [if_pos (by obtain hcopy | hcopy := hcopy <;> simp [hcopy])]
  · have hfol : followsActive s = true := by simp [followsActive, ha, hup, hsynt]
    dsimp only [exec]
    simp only [execTimeWordSync, onTwin_twin ht, timeWord, ha, hd, hfol]
    rw [if_neg (by simp), if_pos hsync]
  · have hfol : followsActive s = true := by simp [followsActive, ha, hup, hsynt]
    dsimp only [exec]
    simp only [execTbPhaseMeasurement, onTwin_twin ht, ha, hd, hfol]
    rw [if_neg (by simp), if_neg hsync]
  · dsimp only [exec]
    simp only [execOccupancyReport, onTwin_twin ht, ha, hd, (passTo_onlyTime ..).fof, hup, if_true]
    rfl
  · dsimp only [exec]
    simp only [execFofTimestampReceived, onTwin_twin ht, ha, hd, hup]
    rfl
  · simp only [phaseMeasured]
    split
    · rfl
    · split <;> rfl
  · intro hsync herr hheld hstep hslew hdue hdef
    have hsound : (!(List.range 4).any x.fofDefault) = true := by simpa using hdef
    rw [phaseMeasured, if_pos ⟨hsync, herr, hheld, hstep, hslew, hdue, hsound⟩]
  · rintro hsync ⟨l, hl, hdef⟩
    have hsound : (!(List.range 4).any x.fofDefault) = false := by
      simpa using ⟨l, hl, hdef⟩
    rw [phaseMeasured, if_neg (by simp [hsound]), if_neg (by simp [hsync])]
    exact hsync
  · intro hsync herr hheld
    rw [phaseMeasured, if_neg (by simp [hsync]), if_pos ⟨hsync, herr, hheld⟩]
    exact ⟨rfl, rfl⟩
  · dsimp only [exec]
    simp only [execFofTimestampReceived, onTwin_twin ht, ha, hd, hup]
    rfl

/-- Settles O44: by whether the edge counts, comes too close, or finds the queue full. -/
theorem eventInputEdges : Obligations.EventInputEdges := by
  unfold Obligations.EventInputEdges
  refine ⟨fun e s n rise held after h => ?_, fun e n rise at_ l st x hl hclose => ?_, takeEdge_seq, fun e n rise at_ st x hfar hfull => ?_,
    fun e n rise at_ st x hfar hroom hdel => ?_⟩
  · dsimp only [exec]
    simp only [execEvtinEdge, onEngine_inOperation h, Bool.and_eq_true, Bool.or_eq_true, beq_iff_eq, decide_eq_true_eq, Bool.not_eq_true', and_assoc,
      or_assoc, ge_iff_le, Int.natCast_add]
  · rw [takeEdge_close hl hclose]
    exact ⟨advanceSeq_queue n x, rfl⟩
  · rw [takeEdge_far hfar, if_pos hfull, edge_time]
    exact ⟨advanceSeq_queue n x, rfl⟩
  · rw [takeEdge_far hfar, if_neg (Nat.not_le.mpr hroom), deliverCapture_held (by rw [captured_evtIn]; exact hdel), captured_evtIn]

/-- Settles O45: by the pulse's fall or the schedule's head. -/
theorem eventOutputEdges : Obligations.EventOutputEdges := by
  unfold Obligations.EventOutputEdges
  have hout {e : EngId} {t : Nat} {s : State} {n : Fin 8} : ((passTo e t s).eng e).time.evtOut[n] = (s.eng e).time.evtOut[n] :=
    congrArg (fun v : Vector EvtOut 8 => v[n]) ((passTo_onlyTime e t s).evtOut e)
  have hentry {e : EngId} {t : Nat} {s : State} (n : Fin 8) (lvl : Bool) (f : EvtOut → EvtOut) :
      ((outputEdge e n lvl f (passTo e t s)).eng e).time.evtOut[n] = f (s.eng e).time.evtOut[n] := by
    simp only [outputEdge_time, evtOut_modEvtOut, hout]
  have hothers {e : EngId} {t : Nat} {s : State} (n : Fin 8) (lvl : Bool) (f : EvtOut → EvtOut) (m : Fin 8) (hm : m ≠ n) :
      ((outputEdge e n lvl f (passTo e t s)).eng e).time.evtOut[m] = (s.eng e).time.evtOut[m] := by
    simp only [outputEdge_time, evtOut_modEvtOut_ne hm, hout]
  have hdev {e : EngId} {s : State} (n : Fin 8) (lvl : Bool) (f : EvtOut → EvtOut) :
      ((outputEdge e n lvl f s).eng e).time.dev = (s.eng e).time.dev := by
    rw [outputEdge_time]
    rfl
  refine ⟨fun e s n f h hf => ?_, fun e s n k rest h hf hs => ?_, fun e s n h hf hs => ?_⟩
  · obtain ⟨-, hpower, -, -, hcore, -⟩ := passTo_onlyTime e f s
    refine ⟨outputEdge e n false (fun r => { r with level := false, fall := none }) (passTo e f s), ?_, hentry .., hothers n _ _, hdev ..,
      outputEdge_other .., fun h1 h2 h3 h4 => ?_, fun hs => ?_⟩
    · dsimp only [exec]
      simp only [execEvtoutEdge, onEngine_inOperation h, hf]
      rfl
    · rw [outputEdge_balls n false _ (by rwa [hpower]) (by rwa [hpower]) (by rwa [hpower]) (by rwa [hcore]), hpower]
      rfl
    · rw [outputEdge_power n false _ (by rwa [hpower]), hpower]
  · obtain ⟨-, hpower, -, -, hcore, -⟩ := passTo_onlyTime e k.at_ s
    have hn := hentry (e := e) (t := k.at_) (s := s) n (k.action != 0) (headEdge k rest s.power.alignerHolds)
    refine ⟨outputEdge e n (k.action != 0) (headEdge k rest s.power.alignerHolds) (passTo e k.at_ s), ?_, congrArg EvtOut.sched hn, ?_,
      congrArg EvtOut.fall hn, hothers n _ _, hdev .., outputEdge_other .., fun h1 h2 h3 h4 => ?_, fun hs => ?_⟩
    · dsimp only [exec]
      simp only [execEvtoutEdge, onEngine_inOperation h, hf, hs]
      rfl
    · refine (congrArg EvtOut.level hn).trans ?_
      show (k.action != 0) = decide (k.action ≠ 0)
      by_cases hk : k.action = 0 <;> simp [hk]
    · rw [outputEdge_balls n _ _ (by rwa [hpower]) (by rwa [hpower]) (by rwa [hpower]) (by rwa [hcore]), hpower]
      by_cases hk : k.action = 0 <;> simp [hk]
    · rw [outputEdge_power n _ _ (by rwa [hpower]), hpower]
  · dsimp only [exec]
    simp only [execEvtoutEdge, onEngine_inOperation h, hf, hs]

end Sys2Proof
end

section
/-! The frame path, the servo and the anchors. -/

namespace Sys2Proof.Machine

theorem frameHead_ignored {e : EngId} {s : State} {p : Nat} (i : Nat) (bs : List Byte)
    (h : p = 32 ∨ (s.eng e).holdsQueues s.part p = false ∨ (findAt p (s.eng e).buf.arriving).isSome = true) : frameHead e p i bs s = s := by
  unfold frameHead
  rw [if_pos (by simpa only [Bool.or_eq_true, decide_eq_true_eq, Bool.not_eq_true', or_assoc] using h)]

theorem frameTail_ignored {e : EngId} {s : State} {p : Nat} (w : Word) (h : findAt p (s.eng e).buf.arriving = none) : frameTail e p w s = s := by
  simp only [frameTail, h]

theorem endTx_idle (part : Part) (e : EngId) {p : Nat} {x : Engine} (h : (x.eg p).tx = none) : endTx part e p x = x := by
  simp only [endTx, h]

theorem vmodN_id {α : Type} {n : Nat} {v : Vector α n} {d : α} {i : Nat} {f : α → α} (h : f (vget v d i) = vget v d i) : vmodN v i f = v := by
  unfold vmodN
  split
  next hi =>
    rw [vget_of_lt v d hi] at h
    simp [vmod, vset, h]
  · rfl

theorem vmodN_congr {α : Type} {n : Nat} {v : Vector α n} {d : α} {i : Nat} {f g : α → α} (h : f (vget v d i) = g (vget v d i)) :
    vmodN v i f = vmodN v i g := by
  unfold vmodN
  split
  next hi =>
    rw [vget_of_lt v d hi] at h
    simp [vmod, h]
  · rfl

/-- A build-out that slews is over: nothing of it is left. -/
def endBuildOut (q : Slot) : Slot := if q.boRate = 0 then q else { q with buildOut := 0, boRate := 0, boRest := 0 }

theorem modSlot_endBuildOut (d : Nat) (y : Engine) :
    (if (y.slot d).boRate = 0 then y else y.modSlot d fun q => { q with buildOut := 0, boRate := 0, boRest := 0 }) = y.modSlot d endBuildOut := by
  split
  next h =>
    have hid : vmodN y.net.slots d endBuildOut = y.net.slots := vmodN_id (d := slotReset d) (if_pos h)
    rw [Engine.modSlot, hid]
  next h =>
    have hsame : vmodN y.net.slots d endBuildOut = vmodN y.net.slots d fun q => { q with buildOut := 0, boRate := 0, boRest := 0 } :=
      vmodN_congr (d := slotReset d) (if_neg h)
    rw [Engine.modSlot, Engine.modSlot, hsame]

theorem ptp_modPtp_self {d p : Nat} (hd : d < 2) (hp : p < 32) (f : PtpPort → PtpPort) (x : Engine) : (x.modPtp d p f).ptp d p = f (x.ptp d p) := by
  show vget (vget (vmodN _ _ _) _ _) _ _ = _
  rw [vget_vmodN_self _ _ hd, vget_vmodN_self _ _ hp]
  rfl

theorem ptp_modPtp_ne {d k : Nat} (h : d ≠ k) (p : Nat) (f : PtpPort → PtpPort) (x : Engine) : (x.modPtp k p f).ptp d p = x.ptp d p := by
  show vget (vget (vmodN _ _ _) _ _) _ _ = _
  rw [vget_vmodN_ne _ _ h]
  rfl

theorem ptp_modPtps {d p : Nat} (hd : d < 2) (hp : p < 32) (f : PtpPort → PtpPort) (x : Engine) : (x.modPtps p f).ptp d p = f (x.ptp d p) := by
  obtain rfl | rfl : d = 0 ∨ d = 1 := by omega
  · rw [Engine.modPtps, ptp_modPtp_ne (by decide), ptp_modPtp_self hd hp]
  · rw [Engine.modPtps, ptp_modPtp_self hd hp, ptp_modPtp_ne (by decide)]

end Sys2Proof.Machine

namespace Sys2Proof

open Sys2Proof.Machine

/-- Settles O51: each event by its engine's row, what the Crossing did since the last one first. -/
theorem framePathEvents : Obligations.FramePathEvents := by
  unfold Obligations.FramePathEvents
  refine ⟨fun p after bs hands => does_of_onEngine fun _ _ => rfl, fun e s p bs i h => frameHead_ignored i bs h, fun p w => does_of_onEngine fun _ _ => rfl,
    fun e s p w h => frameTail_ignored w h, fun p op v q len => changes_of_onEngine fun e s => ?_, fun e s h hr => ?_, fun e s k rest h hr => ?_,
    fun p after r => does_of_onEngine fun _ _ => rfl, fun p => does_of_onEngine fun _ _ => rfl, fun part e p x h => endTx_idle part e h,
    fun flaws => does_of_onEngine fun _ _ => rfl, fun p c => does_of_onEngine fun _ _ => rfl, fun part e p c x k rest f hk hf => ?_,
    fun p c e s h hl => ?_, fun p c e s h hl => ⟨fun hn => ?_, fun t k hk => ?_⟩, fun c => does_of_onEngine fun _ _ => rfl, fun e s r h hr => ?_,
    fun e s r h hr hnot => ?_⟩
  · dsimp only [exec]
    simp only [execMacControlReceived, Bool.and_eq_true]
  · dsimp only [exec]
    simp only [execRoundaboutPass1, onEngine_inOperation h, hr]
  · dsimp only [exec]
    simp only [execRoundaboutPass1, onEngine_inOperation h, hr]
    rfl
  · simp only [retryResidue, hk, hf, Bool.and_eq_true, Bool.not_eq_true']
  · dsimp only [exec]
    simp only [execMcResidueAgeExpiry, onEngine_inOperation h, hl, if_true]
  · dsimp only [exec]
    simp only [execMcResidueAgeExpiry, onEngine_inOperation h, hl, hn, Bool.false_eq_true, if_false]
  · dsimp only [exec]
    simp only [execMcResidueAgeExpiry, onEngine_inOperation h, hl, hk, Bool.false_eq_true, if_false]
  · have hskip : (!(s.eng e).sendReady r.val || (r.val == 0 && (s.eng e).sendReady 1)) = true := by
      obtain hr | ⟨rfl, hr⟩ := hr
      · simp [hr]
      · simp [hr]
    dsimp only [exec]
    simp only [execHostSendFetch, onEngine_inOperation h, hskip, if_true]
  · have hfetch : (!(s.eng e).sendReady r.val || (r.val == 0 && (s.eng e).sendReady 1)) = false := by
      cases h1 : (s.eng e).sendReady 1
      · simp [hr]
      · have hne : r.val ≠ 0 := fun h0 => hnot ⟨Fin.ext h0, h1⟩
        simp [hr, hne]
    dsimp only [exec]
    simp only [execHostSendFetch, onEngine_inOperation h, hfetch, Bool.false_eq_true, if_false]
    rfl

/-- Settles O49: each row on the engine that it names; an update by what it writes. -/
theorem servoAndAnchorEvents : Obligations.ServoAndAnchorEvents := by
  unfold Obligations.ServoAndAnchorEvents
  refine ⟨fun e s h hr => ?_, fun e s h hr => ?_, changes_of_onEngine fun e s => ?_, fun e s o h ho => ?_, fun e s o h ho => ⟨fun hrest => ?_, fun hrest => ?_⟩,
    fun p => changes_of_onEngine fun e s => ?_, fun p d x hd hp => ?_, fun e s h hk => ?_, fun e s k h hk => ?_, fun p phi => changes_of_onEngine fun _ _ => rfl,
    fun p => changes_of_onEngine fun _ _ => rfl⟩
  · dsimp only [exec]
    simp only [execServoUpdate, rowServoUpdate, onEngine_inOperation h, hr, settledOut]
    rfl
  · intro x peer y s1 s2
    have hrow : exec (.servoUpdate e) s = .next (settled (if x.net.switch.isSome then complete e .domainSwitch .ok (fun x _ => switchReply x) s2 else s2)) := by
      have hactive (n : Nat) : ({ s with freeCtr := n } : State).active = s.active := rfl
      have hfollows (n : Nat) : followsActive { s with freeCtr := n } = followsActive s := rfl
      dsimp only [exec]
      simp only [execServoUpdate, rowServoUpdate, onEngine_inOperation h, hr, settledOut, if_true, takeFree, eng_mk, hactive, hfollows,
        Bool.and_eq_true, decide_eq_true_eq, beq_iff_eq, and_assoc, Option.isNone_iff_eq_none, Option.isSome_iff_ne_none, Nat.add_assoc, Nat.reduceAdd,
        s2, s1, y, peer, x] <;> rfl
    refine ⟨fun hn => ?_, fun k hk => ?_⟩
    · rw [hrow, hn]
      rfl
    · rw [hrow, hk]
      rfl
  · dsimp only [exec]
    simp only [execBuildOutSlewDone, modSlot_endBuildOut]
    rfl
  · dsimp only [exec]
    simp only [execOutputSlewDone, rowOutputSlewDone, onEngine_inOperation h, ho, settledOut]
    rfl
  · have hkeep : (aligned (1#12 <<< o.val) { s.eng e with refs := { (s.eng e).refs with align := (s.eng e).refs.align &&& ~~~(1#12 <<< o.val) } }).refs.align
        ≠ 0 := hrest
    dsimp only [exec]
    simp only [execOutputSlewDone, rowOutputSlewDone, onEngine_inOperation h, ho, settledOut, if_true, if_neg hkeep]
  · have hdone : (aligned (1#12 <<< o.val) { s.eng e with refs := { (s.eng e).refs with align := (s.eng e).refs.align &&& ~~~(1#12 <<< o.val) } }).refs.align
        = 0 := hrest
    dsimp only [exec]
    simp only [execOutputSlewDone, rowOutputSlewDone, onEngine_inOperation h, ho, settledOut, if_true, if_pos hdone]
  · dsimp only [exec]
    rfl
  · rw [Engine.dropAnchors, ptp_modPtps hd hp]
    exact ⟨rfl, rfl⟩
  · dsimp only [exec]
    simp only [execCalAsymWindowEnd, rowCalAsymWindowEnd, onEngine_inOperation h, hk, settledOut]
  · intro s1 mean eps write s2 s3 s4
    refine ⟨fun hc => ?_, fun hf hh hw => ?_⟩
    · have hbad : (k.failed || !calAsymHolds (s.eng e) k.port || decide (2 * k.edges < k.windowS)) = true := by
        simpa only [Bool.or_eq_true, Bool.not_eq_true', decide_eq_true_eq, or_assoc] using hc
      dsimp only [exec]
      simp only [execCalAsymWindowEnd, rowCalAsymWindowEnd, onEngine_inOperation h, hk, settledOut, hbad, if_true]
      rfl
    · have hgood : (k.failed || !calAsymHolds (s.eng e) k.port || decide (2 * k.edges < k.windowS)) = false := by
        simp [hf, hh, hw]
      dsimp only [exec]
      simp only [execCalAsymWindowEnd, rowCalAsymWindowEnd, onEngine_inOperation h, hk, settledOut, hgood, Bool.false_eq_true, if_false,
        Bool.and_eq_true, decide_eq_true_eq, and_assoc]
      rfl

end Sys2Proof
end

section
/-! The digests and the fast scrub. -/

namespace Sys2Proof.Machine

@[simp] theorem other_other (e : EngId) : other (other e) = e := by cases e <;> rfl

theorem eq_other_of_ne {e d : EngId} (h : e ≠ d) : d = other e := by
  cases e <;> cases d <;> first | rfl | exact absurd rfl h

theorem forall_eng {P : EngId → Prop} (e : EngId) : (∀ d, P d) ↔ P e ∧ P (other e) :=
  ⟨fun h => ⟨h e, h (other e)⟩, fun ⟨h1, h2⟩ d => by cases e <;> cases d <;> assumption⟩

@[simp] theorem modOther_eng (s : State) (e : EngId) (f : Engine → Engine) : (s.modEng (other e) f).eng e = s.eng e := by cases e <;> rfl

/-! ## The fast scrub -/

/-- The standby's differing buckets are those of the active, and no scrub runs. -/
def resynced (e : EngId) (s : State) : State :=
  let bs := differing (s.eng e).rules.fdb (s.eng (other e)).rules.fdb
  ((s.modBoth scrubOver).modEng (other e) fun y => y.modFdb (resyncFdb bs (s.eng e).rules.fdb)).modBoth fun x => x.bumpN 86 bs.length

@[simp] theorem resynced_twin (e d : EngId) (s : State) : ((resynced e s).eng d).twin = (scrubOver (s.eng d)).twin := by cases e <;> cases d <;> rfl
theorem modEng_eng_core {f : Engine → Engine} (hf : ∀ x, (f x).core = x.core) (e d : EngId) (s : State) :
    ((s.modEng e f).eng d).core = (s.eng d).core := by
  by_cases h : e = d
  · rw [h, modEng_eng, hf]
  · rw [eq_other_of_ne h, modEng_eng_other]

@[simp] theorem resynced_core (e d : EngId) (s : State) : ((resynced e s).eng d).core = (s.eng d).core := by
  rw [resynced, modBoth_eng, Engine.bumpN_core, modEng_eng_core fun _ => Engine.modFdb_core .., modBoth_eng, scrubOver_core]

theorem resynced_fdb (e : EngId) (s : State) : ((resynced e s).eng (other e)).rules.fdb =
    resyncFdb (differing (s.eng e).rules.fdb (s.eng (other e)).rules.fdb) (s.eng e).rules.fdb (s.eng (other e)).rules.fdb := by
  cases e <;> rfl

/-- What the scrub does with an engine whose words it found wrong. -/
def blame (e : EngId) (wa wd : Nat) (s : State) : State :=
  let fa := decide (wa > 0)
  let fd := decide (wd > 0)
  let s3 := if fa then s.modEng e (scrubFailed (if fd then 2 else 3) wa) else s
  let s4 := if fd then s3.modEng (other e) (if fa then markFaulty else scrubFailed 3 wd) else s3
  let s5 := if fa || fd then s4 else s4.modEng e fun x => (x.bump 85).raise 0x0C 0x02 1 (word x.twin.digestWindow)
  twinEvent e 7 0 e (2 * bit fa + bit fd) 0 0 s5

@[simp] theorem markFaulty_twin (x : Engine) : (markFaulty x).twin = { x.twin with selfFaulty := true } := rfl
@[simp] theorem scrubFailed_twin (cls words : Nat) (x : Engine) : (scrubFailed cls words x).twin = { x.twin with selfFaulty := true } := rfl

theorem raise_twin (x : Engine) (a k c : Nat) (w : Word) : (x.raise a k c w).twin = x.twin := rfl

theorem bump_twin (x : Engine) (i : Nat) : (x.bump i).twin = x.twin := rfl

theorem blame_twin (e : EngId) (wa wd : Nat) (s : State) :
    ((blame e wa wd s).eng e).twin = { (s.eng e).twin with selfFaulty := (s.eng e).twin.selfFaulty || decide (0 < wa) }
      ∧ ((blame e wa wd s).eng (other e)).twin
        = { (s.eng (other e)).twin with selfFaulty := (s.eng (other e)).twin.selfFaulty || decide (0 < wd) } := by
  simp only [blame, twinEvent_twin]
  cases decide (wa > 0) <;> cases decide (wd > 0) <;> simp [raise_twin, bump_twin]

theorem blame_core (e : EngId) (wa wd : Nat) (s : State) (d : EngId) : ((blame e wa wd s).eng d).core = (s.eng d).core := by
  simp only [blame, twinEvent_eng_core]
  cases decide (wa > 0) <;> cases decide (wd > 0) <;> simp [modEng_eng_core]

theorem blame_fdb (e : EngId) (wa wd : Nat) (s : State) : ((blame e wa wd s).eng (other e)).rules.fdb = (s.eng (other e)).rules.fdb := by
  simp only [blame, twinEvent_rules]
  cases decide (wa > 0) <;> cases decide (wd > 0) <;> cases e <;> rfl

/-- The fast scrub of a module whose standby follows. -/
theorem fastScrubEnd_standby {s : State} {e : EngId} (ht : twinPart s.part = true) (ha : s.active = some e) (hd : s.standby = some (other e))
    (hrun : (s.eng e).twin.scrubRunning = true) (wa wd : Nat) : exec (.fastScrubEnd wa wd) s = .next
      (if (decide (wa > 0) && decide (wd > 0)) = true then giveUp (other e) (blame e wa wd (resynced e s)) else blame e wa wd (resynced e s)) := by
  dsimp only [exec]
  simp only [execFastScrubEnd, onTwin_twin ht, ha, hd, hrun]
  rfl

/-- The frames of a window are compared where the link is up, no scrub runs and a frame was counted. -/
theorem digestJudgement (up run : Bool) (fa fd : List (Nat × BitVec 64)) :
    (if (up && !run && !(fa.isEmpty && fd.isEmpty)) = true then some (fa.length == fd.length && digestSum fa == digestSum fd) else none)
      = if up = true ∧ run = false ∧ ¬(fa = [] ∧ fd = []) then some (decide (fa.length = fd.length ∧ digestSum fa = digestSum fd)) else none := by
  have hcompared : (up && !run && !(fa.isEmpty && fd.isEmpty)) = true ↔ up = true ∧ run = false ∧ ¬(fa = [] ∧ fd = []) := by
    simp only [Bool.and_eq_true, Bool.not_eq_true', and_assoc, ← Bool.not_eq_true, List.isEmpty_iff]
  have halike : (fa.length == fd.length && digestSum fa == digestSum fd) = decide (fa.length = fd.length ∧ digestSum fa = digestSum fd) := by
    simp only [Bool.decide_and, beq_eq_decide]
  rw [halike]
  by_cases h : up = true ∧ run = false ∧ ¬(fa = [] ∧ fd = [])
  · rw [if_pos h, if_pos (hcompared.mpr h)]
  · rw [if_neg h, if_neg fun hc => h (hcompared.mp hc)]

end Sys2Proof.Machine

namespace Sys2Proof

open Sys2Proof.Machine

/-- Settles O41: the window's rows by the active and the count, the scrub by whom it blames. -/
theorem digestsAndScrub : Obligations.DigestsAndScrub := by
  unfold Obligations.DigestsAndScrub
  refine ⟨fun s u ht ha => ?_, fun _ _ => ⟨rfl, rfl, rfl⟩, fun s ht ha => ⟨?_, ?_⟩, fun s u ht ha hc => ?_, fun s u w rest ht ha hc => ?_,
    fun n b x => ⟨rfl, rfl, ?_, fun ok => ?_, rfl⟩, fun s u d wa wd ht ha hd hrun hne hw => ?_, fun s u d wa wd ht ha hd hrun hne hwa hwd => ?_,
    fun s u d wa wd ht ha hd hrun => ?_, fun s wa wd ht ha => ?_, fun s u wa wd ht ha hd hrun => ?_⟩
  · dsimp only [exec]
    simp only [execDigestWindowClose, onTwin_twin ht, ha] <;> rfl
  · dsimp only [exec]
    simp only [execDigestWindowClose, onTwin_twin ht, ha]
  · dsimp only [exec]
    simp only [execDigestCompare, onTwin_twin ht, ha]
  · dsimp only [exec]
    simp only [execDigestCompare, onTwin_twin ht, ha, hc]
  · dsimp only [exec]
    simp only [execDigestCompare, onTwin_twin ht, ha, hc, digestJudgement] <;> rfl
  · show (x.twin.scrubRunning || decide (x.twin.mismatchRun + 1 ≥ 3)) = true ↔ _
    have hthird : x.twin.mismatchRun + 1 ≥ 3 ↔ 2 ≤ x.twin.mismatchRun := by omega
    rw [Bool.or_eq_true, decide_eq_true_eq, hthird]
  · cases ok <;> rfl
  · obtain rfl := eq_other_of_ne hne
    obtain ⟨hA, hD⟩ := blame_twin u wa wd (resynced u s)
    refine ⟨_, (fastScrubEnd_standby ht ha hd hrun wa wd).trans (congrArg _ (if_neg (by simp; omega))), (forall_eng u).mpr ⟨?_, ?_⟩, ?_, ?_, ?_⟩
    · rw [hA, resynced_twin]
      exact ⟨rfl, rfl⟩
    · rw [hD, resynced_twin]
      exact ⟨rfl, rfl⟩
    · rw [hA, resynced_twin]
      simp [scrubOver]
    · rw [hD, resynced_twin]
      simp [scrubOver]
    · rw [blame_fdb, resynced_fdb]
  · obtain rfl := eq_other_of_ne hne
    obtain ⟨hA, hD⟩ := blame_twin u wa wd (resynced u s)
    refine ⟨_, (fastScrubEnd_standby ht ha hd hrun wa wd).trans (congrArg _ (if_pos (by simp [hwa, hwd]))), (forall_eng u).mpr ⟨?_, ?_⟩, ?_, ?_⟩
    · rw [hA, resynced_twin]
      simp [scrubOver, hwa]
    · rw [hD, resynced_twin]
      simp [scrubOver, hwd]
    · rw [blame_core, resynced_core]
    · rw [blame_core, resynced_core]
  · dsimp only [exec]
    simp only [execFastScrubEnd, onTwin_twin ht, ha, hd, hrun, Bool.not_false, if_true]
  · dsimp only [exec]
    simp only [execFastScrubEnd, onTwin_twin ht, ha] <;> rfl
  · have hrow : exec (.fastScrubEnd wa wd) s = .next (twinEvent u 7 0 u (2 * bit (decide (wa > 0))) 0 0
        (if decide (wa > 0) = true then (s.modBoth scrubOver).modEng u (scrubFailed 3 wa) else s.modBoth scrubOver)) := by
      dsimp only [exec]
      simp only [execFastScrubEnd, onTwin_twin ht, ha, hd, hrun]
      rfl
    refine ⟨_, hrow, ?_, ?_⟩
    · intro e
      rw [twinEvent_twin]
      split <;> cases u <;> cases e <;> exact ⟨rfl, rfl⟩
    · rw [twinEvent_twin]
      by_cases hw : 0 < wa
      · rw [if_pos (by simpa using hw), modEng_eng]
        exact iff_of_true rfl (.inr hw)
      · rw [if_neg (by simpa using hw), modBoth_eng]
        exact ⟨.inl, fun h => h.resolve_right hw⟩

end Sys2Proof
end

section
/-! The steps of a switchover and of a planned swap. -/

namespace Sys2Proof.Machine

/-! ## Replies -/

theorem hostSide_withHost (x : Engine) (h : HostState) : HostSide x { x with host := h } := rfl

theorem hostSide_deliver (a : Arrival) (r : Reply) (s : State) (d : EngId) : HostSide (s.eng d) ((deliver a r s).eng d) := by
  have hring (e : EngId) (x : Engine) : HostSide x (ringReply e r x) := by
    cases hw : (x.ring 1).waiting.isEmpty
    · simp only [ringReply, hw, Bool.false_eq_true, if_false]
      split
      · rfl
      · exact hostSide_modRing ..
    · have htaken := hostSide_takesRecord 1 (4 + (replyWords r).length) x
      simp only [ringReply, hw, if_true]
      split
      · rfl
      · split
        · exact (htaken.trans (hostSide_writeRecord ..)).trans (hostSide_withHost ..)
        · exact htaken.trans (hostSide_modRing ..)
  unfold deliver
  split
  · cases d <;> exact .refl _
  next e _ =>
    have hreply (x : Engine) : HostSide x (if x.serving then
        match a.chan with
        | .ring => ringReply e r x
        | .mailbox => mailboxReply r x
        | .mgmt => mgmtReply a r x
        | .spi => x
      else x) := by
      split
      · split
        · exact hring e x
        · rfl
        · rfl
        · exact .refl x
      · exact .refl x
    cases e <;> cases d <;> first | exact .refl _ | exact hreply _

/-- What replies change: the host's side of the engines, and of the supervisor what waits and its SPI port. -/
structure Answered (s t : State) : Prop where
  power : t.power = s.power
  sup : t.sup = { s.sup with waiting := t.sup.waiting, spi := t.sup.spi }
  eng (e : EngId) : HostSide (s.eng e) (t.eng e)

theorem Answered.refl (s : State) : Answered s s := ⟨rfl, rfl, fun _ => .refl _⟩

theorem Answered.trans {s t u : State} (h : Answered s t) (g : Answered t u) : Answered s u :=
  ⟨g.power.trans h.power, by rw [g.sup, h.sup], fun e => (h.eng e).trans (g.eng e)⟩

theorem Answered.switch {s t : State} (h : Answered s t) : t.sup.switch = s.sup.switch := by rw [h.sup]

theorem deliver_answered (a : Arrival) (r : Reply) (s : State) : Answered s (deliver a r s) := by
  refine ⟨?_, ?_, hostSide_deliver a r s⟩
  · unfold deliver
    split
    · rfl
    · exact modEng_power ..
  · unfold deliver
    split
    · rfl
    · rw [modEng_sup]

theorem foldl_answered {α : Type} {f : State → α → State} (h : ∀ t a, Answered t (f t a)) (l : List α) (s : State) : Answered s (l.foldl f s) := by
  induction l generalizing s with
  | nil => exact .refl s
  | cons a l ih => exact (h s a).trans (ih _)

theorem modEng_answered {f : Engine → Engine} (hf : ∀ x, HostSide x (f x)) (e : EngId) (s : State) : Answered s (s.modEng e f) :=
  ⟨modEng_power .., by rw [modEng_sup], fun d => by cases e <;> cases d <;> first | exact .refl _ | exact hf _⟩

theorem flushWaiting_answered (e : EngId) (s : State) : Answered s (flushWaiting e s) :=
  (modEng_answered (f := fun x => { x with host := { x.host with waiting := x.host.waiting.filter fun w => !w.done } }) (fun _ => rfl) e s).trans
    (foldl_answered (fun _ _ => deliver_answered ..) _ _)

theorem complete_answered (e : EngId) (c : Await) (st : Status) (body : Engine → Waiting → List Word) (s : State) :
    Answered s (complete e c st body s) := by
  refine Answered.trans ?_ (flushWaiting_answered e _)
  exact ⟨setEng_power .., by rw [setEng_sup], fun d => by cases e <;> cases d <;> rfl⟩

theorem completeSup_answered (c : Await) (st : Status) (body : List Word) (s : State) : Answered s (completeSup c st body s) := by
  refine Answered.trans ?_ (foldl_answered (fun _ _ => deliver_answered ..) ..)
  exact ⟨rfl, rfl, fun d => by cases d <;> exact .refl _⟩

/-! ## The steering -/

@[simp] theorem endPlan_switch (st : Status) (s : State) : (endPlan st s).sup.switch = s.sup.switch := by
  unfold endPlan
  split
  · rfl
  · rw [((complete_answered ..).trans ((complete_answered ..).trans (completeSup_answered ..))).switch, modBoth_sup]

@[simp] theorem endPlan_power (st : Status) (s : State) : (endPlan st s).power = s.power := by
  unfold endPlan
  split
  · rfl
  · rw [((complete_answered ..).trans ((complete_answered ..).trans (completeSup_answered ..))).power, modBoth_power]

@[simp] theorem dropSwitch_steer (e : EngId) (s : State) : (dropSwitch e s).power.steer = s.power.steer := by
  unfold dropSwitch
  split
  · rfl
  · split
    · rw [endPlan_power]
    · rfl

@[simp] theorem lowBalls_steer (e : EngId) (s : State) : (lowBalls e s).power.steer = s.power.steer := by
  unfold lowBalls
  split <;> rfl

@[simp] theorem muteCommands_power (e : EngId) (s : State) : (muteCommands e s).power = s.power := modEng_power ..

@[simp] theorem setRole_power (e : EngId) (r : Nat) (s : State) : (setRole e r s).power = s.power := by
  have hreport (t : State) : (reportRole e t).power = t.power := by
    unfold reportRole
    split
    · exact modEng_power ..
    · rfl
  have hidle (t : State) : (idleCopy t).power = t.power := by
    unfold idleCopy setCopy
    split
    · exact modBoth_power ..
    · rfl
  rw [setRole, hidle, hreport, modEng_power]

@[simp] theorem resetLink_power (e : EngId) (s : State) : (resetLink e s).power = s.power := by
  have hlast (t : State) : (lastMarker t).power = t.power := by
    unfold lastMarker
    split
    · rfl
    · dsimp only
      split <;> rfl
  unfold resetLink activeStops
  dsimp only
  split
  · split
    · exact hlast _
    · rfl
  · exact modEng_power ..

@[simp] theorem resetEngine_steer (e : EngId) (s : State) : (resetEngine e s).power.steer = s.power.steer := by
  unfold resetEngine
  dsimp only
  simp only [setRole_power, modEng_power, muteCommands_power, lowBalls_steer, dropSwitch_steer, (abandonSession_cutShort ..).power,
    (cutEngineBurn_cutShort ..).power, resetLink_power]

@[simp] theorem twinEvent_power (e : EngId) (ev cause : Nat) (about : EngId) (scrub st gen : Nat) (s : State) :
    (twinEvent e ev cause about scrub st gen s).power = s.power := modEng_power ..

theorem resetOrFence_steer (e : EngId) (s : State) : (resetOrFence e s).power.steer = s.power.steer := by
  unfold resetOrFence
  dsimp only
  split
  · rw [resetEngine_steer]
  · rw [fenceEngine]
    simp only [twinEvent_power, modEng_power, resetEngine_steer]

theorem setSteer_steer (e : EngId) (s : State) : (setSteer e s).power.steer = e := by
  unfold setSteer
  split
  · assumption
  · rw [modBoth_power]

theorem moveSteering_steer (r : SwitchRun) (s : State) : (moveSteering r s).power.steer = r.dst := by
  unfold moveSteering
  dsimp only
  split
  · rw [resetOrFence_steer]
    simp only [modEng_power, setSteer_steer]
  · simp only [modEng_power, setSteer_steer]

/-! ## The outputs' handover -/

theorem handEdge_held (e : EngId) (n : Nat) (s : State) :
    (handEdge e s n).sup = s.sup ∧ (handEdge e s n).power.alignerHolds = s.power.alignerHolds := by
  unfold handEdge
  dsimp only
  split
  · exact ⟨setEng_sup .., rfl⟩
  · exact ⟨setEng_sup .., by rw [setEng_power]⟩

theorem handEdges_held (e : EngId) (l : List Nat) (s : State) :
    (l.foldl (handEdge e) s).sup = s.sup ∧ (l.foldl (handEdge e) s).power.alignerHolds = s.power.alignerHolds := by
  induction l generalizing s with
  | nil => exact ⟨rfl, rfl⟩
  | cons n l ih =>
    obtain ⟨hsup, hholds⟩ := handEdge_held e n s
    exact ⟨(ih _).1.trans hsup, (ih _).2.trans hholds⟩

theorem handOver_sup (r : SwitchRun) (d : Vector Int 12) (s : State) : (handOver r d s).sup.switch = some { r with step := 7 } := by
  rw [handOver, (handEdges_held ..).1, modEng_sup]

theorem handOver_alignerHolds (r : SwitchRun) (d : Vector Int 12) (s : State) : (handOver r d s).power.alignerHolds = false := by
  rw [handOver, (handEdges_held ..).2, modEng_power]

/-! ## The end of a switchover -/

theorem modEvtIn_twin (n : Nat) (f : EvtIn → EvtIn) (x : Engine) : (modEvtIn n f x).twin = x.twin := rfl

@[simp] theorem deliverCapture_twin (e : EngId) (n : Nat) (x : Engine) : (deliverCapture e n x).twin = x.twin := by
  unfold deliverCapture
  dsimp only
  split
  · rfl
  next k rest _ =>
    have htaken := hostSide_takesRecord 2 (4 + (captureWords n k).length) x
    split
    · split
      · rw [modEvtIn_twin, (hostSide_writeRecord ..).twin, htaken.twin]
      · exact htaken.twin
    · rfl

theorem foldl_twin {α : Type} {f : Engine → α → Engine} (h : ∀ y a, (f y a).twin = y.twin) (l : List α) (x : Engine) :
    (l.foldl f x).twin = x.twin := by
  induction l generalizing x with
  | nil => rfl
  | cons a l ih => exact (ih _).trans (h x a)

theorem completed_twin (swap : Bool) (r : SwitchRun) (x : Engine) : (completed swap r x).twin =
    { x.twin with last := { cause := r.cause, newOwner := engCode r.dst, stale := r.stale, lost := r.lost } } :=
  foldl_twin (fun _ _ => foldl_twin (fun _ _ => deliverCapture_twin ..) ..) ..

theorem completed_core (swap : Bool) (r : SwitchRun) (x : Engine) : (completed swap r x).core = { x.core with mayStart := true } :=
  deliverCaptures_core ..

theorem completed_switches (swap : Bool) (r : SwitchRun) (d e : EngId) (s : State) :
    ((s.modEng d (completed swap r)).eng e).twin.switches = (s.eng e).twin.switches := by
  by_cases h : d = e
  · rw [h, modEng_eng, completed_twin]
  · rw [eq_other_of_ne h, modEng_eng_other]

/-- The end of a planned swap leaves the run, what the engines may do and their counts as they are. -/
theorem endSwap_kept (r : SwitchRun) (s : State) : (endSwap r s).sup.switch = s.sup.switch
    ∧ ∀ e, ((endSwap r s).eng e).core = (s.eng e).core ∧ ((endSwap r s).eng e).twin.switches = (s.eng e).twin.switches := by
  unfold endSwap
  split
  · exact ⟨rfl, fun _ => ⟨rfl, rfl⟩⟩
  · have hreplied (b : List Word) (t : State) := (complete_answered .a .swap .ok (fun _ _ => b) t).trans
      ((complete_answered .b .swap .ok (fun _ _ => b) _).trans (completeSup_answered .swap .ok b _))
    refine ⟨by rw [(hreplied ..).switch, modBoth_sup], fun e => ⟨?_, ?_⟩⟩
    · rw [((hreplied ..).eng e).core, modBoth_eng]
      cases e <;> rfl
    · rw [((hreplied ..).eng e).twin, modBoth_eng]
      cases e <;> rfl

theorem endSwitch_switch (r : SwitchRun) (s : State) : (endSwitch r s).sup.switch = none := by
  rw [endSwitch, (endSwap_kept ..).1]
  simp only [nextSchedule, twinEvent_sup, modEng_sup, modBoth_sup]

theorem endSwitch_mayStart (r : SwitchRun) (s : State) : ((endSwitch r s).eng r.dst).core.mayStart = true := by
  rw [endSwitch, ((endSwap_kept ..).2 _).1]
  show ((twinEvent _ _ _ _ _ _ _ _).eng r.dst).core.mayStart = true
  rw [twinEvent_eng_core, modEng_eng, completed_core]

theorem endSwitch_switches (r : SwitchRun) (s : State) (e : EngId) :
    ((endSwitch r s).eng e).twin.switches = (s.eng e).twin.switches + 1 := by
  rw [endSwitch, ((endSwap_kept ..).2 _).2]
  show ((twinEvent _ _ _ _ _ _ _ _).eng e).twin.switches = _
  rw [twinEvent_twin]
  refine (completed_switches _ r r.dst e _).trans ?_
  cases e <;> rfl

/-! ## The rows of a run -/

theorem grantSwap_none {s : State} (hr : s.sup.switch = none) : grantSwap s = s := by
  rw [grantSwap, hr]

theorem grantSwap_made {s : State} {r : SwitchRun} (hr : s.sup.switch = some r) (h : r.step ≠ 3 ∨ s.sup.sound = false) : grantSwap s = s := by
  rw [grantSwap, hr]
  exact if_neg fun ⟨h3, hsound, _⟩ => h.elim (· h3) (by simp [hsound])

/-- The three rows of a run, with what each does while the run holds. -/
theorem steeringMoveDone_run {s : State} {r : SwitchRun} (ht : twinPart s.part = true) (hr : s.sup.switch = some r)
    (hg : r.step ≠ 3 ∨ s.sup.sound = false) : exec .steeringMoveDone s = .next (settled
      (if (!runHolds r s) = true then endRun s else if (r.step = 5 && s.sup.sound) = true then moveSteering r s else s)) := by
  dsimp only [exec]
  simp only [execSteeringMoveDone, rowSteeringMoveDone, onTwin_twin ht, grantSwap_made hr hg, hr]
  rfl

theorem outputAlignerHandover_run {s : State} {r : SwitchRun} (d : Vector Int 12) (ht : twinPart s.part = true) (hr : s.sup.switch = some r) :
    exec (.outputAlignerHandover d) s = .next
      (if (!runHolds r s) = true then endRun s else if r.step = 6 then handOver r d s else s) := by
  dsimp only [exec]
  simp only [execOutputAlignerHandover, onTwin_twin ht, hr]

theorem switchoverComplete_run {s : State} {r : SwitchRun} (ht : twinPart s.part = true) (hr : s.sup.switch = some r) :
    exec .switchoverComplete s = .next (settled
      (if (!runHolds r s) = true then endRun s else if r.step = 7 then judgeGrants (endSwitch r s) else s)) := by
  dsimp only [exec]
  simp only [execSwitchoverComplete, switchoverComplete, onTwin_twin ht, hr]
  rfl

theorem holding {s : State} {r : SwitchRun} (h : Switching s r) : ¬(!runHolds r s) = true := by simp [h.holds]

/-! ## The rows of a planned swap -/

theorem swapAt_prepared {s : State} {p : SwapPlan} (ht : twinPart s.part = true) (hr : s.sup.switch = none) (hp : s.sup.swap = some p)
    (hprep : p.prepared = true) : exec .swapAt s = .next (settled (performSwap p s)) := by
  have hprepare : swapPrepare s = s := by
    simp only [swapPrepare, hp, hprep, Bool.true_or, if_true]
  dsimp only [exec]
  simp only [execSwapAt, onTwin_twin ht, swapAtEvent, hr, hprepare, hp, hprep, Option.isSome_none, Bool.false_eq_true, if_false, if_true, settledOut]

theorem swapPrepare_planned {s : State} {p : SwapPlan} (ht : twinPart s.part = true) (hr : s.sup.switch = none) (hp : s.sup.swap = some p)
    (hprep : p.prepared = false) : exec .swapPrepare s = .next (settled (prepareSwap p s)) := by
  dsimp only [exec]
  simp only [execSwapPrepare, onTwin_twin ht, swapPrepare, hr, hp, hprep, Option.isSome_none, Bool.or_self, Bool.false_eq_true, if_false, settledOut]

/- Unfolded by name: an equation of `performSwap p s` would have the kernel evaluate the refusal after the time that passes. -/

theorem performSwap_refused {p : SwapPlan} {s : State} {st : Status}
    (h : swapRefusal (passTo (s.active.getD s.power.steer) p.swAt s) = some st) :
    performSwap p s = abandonSwap p st (passTo (s.active.getD s.power.steer) p.swAt s) := by
  conv_lhs =>
    fun
    fun
    delta performSwap
  dsimp only
  split
  next _ _ hnone _ _ => cases h.symm.trans hnone
  next st' hst => rw [Option.some.inj (h.symm.trans hst)]
  next _ _ hnone _ => cases h.symm.trans hnone

theorem performSwap_granted {p : SwapPlan} {s : State} {u d : EngId}
    (h : swapRefusal (passTo (s.active.getD s.power.steer) p.swAt s) = none)
    (ha : (passTo (s.active.getD s.power.steer) p.swAt s).active = some u)
    (hd : (passTo (s.active.getD s.power.steer) p.swAt s).standby = some d) :
    performSwap p s = switchAt p u d (passTo (s.active.getD s.power.steer) p.swAt s) := by
  conv_lhs =>
    fun
    fun
    delta performSwap
  dsimp only
  split
  next u' d' _ hu hd' => rw [Option.some.inj (ha.symm.trans hu), Option.some.inj (hd.symm.trans hd')]
  next st hst => cases h.symm.trans hst
  next hnot => exact (hnot u d ha hd).elim
theorem attemptFrom_eq (s1 : State) : attemptFrom s1 =
    if s1.sup.swap.isSome = true ∨ (swapRefusal s1).isSome = true ∨ switching s1 = true then failSchedule s1
    else { s1 with sup := { s1.sup with swap := some {
      swAt := ownerNow s1 + (s1.sup.swapPrepUs + 100) * us16, prepUs := s1.sup.swapPrepUs, commanded := false, prepared := false } } } := by
  simp only [attemptFrom, Bool.or_eq_true, or_assoc]

end Sys2Proof.Machine

namespace Sys2Proof

open Sys2Proof.Machine

/-- Settles O42: the rows of a run by the step that it has reached, those of a swap by what its conditions answer. -/
theorem switchoverAndSwapSteps : Obligations.SwitchoverAndSwapSteps := by
  unfold Obligations.SwitchoverAndSwapSteps
  refine ⟨fun s r h hstep hsound => ⟨?_, moveSteering_steer r s⟩, fun s r h hstep => ?_,
    fun s r hr hstep hrole hrun => ⟨fun hs => ?_, fun hs => grantSwap_made hr (.inr hs)⟩,
    fun s r d h hstep => ⟨?_, handOver_alignerHolds r d s, handOver_sup r d s⟩, fun s r d h hstep => ?_,
    fun s r h hstep => ⟨?_, endSwitch_switch r s, endSwitch_mayStart r s, endSwitch_switches r s⟩, fun s r h hstep => ?_,
    fun s r d ht hr hstep hlost => ⟨?_, ?_, ?_⟩, fun s d ht hr => ⟨?_, ?_, ?_⟩, fun s p ht hr hp hprep => ⟨fun st href => ?_, fun u d href ha hd => ?_⟩,
    fun s p ht hr hp hprep => ⟨fun st href => ?_, fun u d href ha hd => ?_⟩, fun s ht hp => ⟨?_, ?_⟩, fun s t ht hnext hrun => ⟨fun h0 => ?_, fun h0 => ?_⟩,
    fun s ht hnext => ⟨?_, ?_⟩⟩
  · rw [steeringMoveDone_run h.twin h.run (.inl (by omega)), if_neg (holding h), if_pos (by simp [hstep, hsound])]
  · have hgrant : r.step ≠ 3 ∨ s.sup.sound = false := hstep.imp_left (by omega)
    have hstay : ¬(r.step = 5 && s.sup.sound) = true := by
      rcases hstep with h6 | hs
      · simp; omega
      · simp [hs]
    rw [steeringMoveDone_run h.twin h.run hgrant, if_neg (holding h), if_neg hstay]
  · rw [grantSwap, hr]
    exact if_pos ⟨hstep, hs, hrole, hrun⟩
  · rw [outputAlignerHandover_run d h.twin h.run, if_neg (holding h), if_pos hstep]
  · rw [outputAlignerHandover_run d h.twin h.run, if_neg (holding h), if_neg hstep]
  · rw [switchoverComplete_run h.twin h.run, if_neg (holding h), if_pos hstep]
  · rw [switchoverComplete_run h.twin h.run, if_neg (holding h), if_neg hstep]
  · rw [steeringMoveDone_run ht hr (.inl hstep), if_pos (by simp [hlost])]
    rfl
  · rw [outputAlignerHandover_run d ht hr, if_pos (by simp [hlost])]
    rfl
  · rw [switchoverComplete_run ht hr, if_pos (by simp [hlost])]
    rfl
  · dsimp only [exec]
    simp only [execSteeringMoveDone, rowSteeringMoveDone, onTwin_twin ht, grantSwap_none hr, hr]
    rfl
  · dsimp only [exec]
    simp only [execOutputAlignerHandover, onTwin_twin ht, hr]
  · dsimp only [exec]
    simp only [execSwitchoverComplete, switchoverComplete, onTwin_twin ht, hr]
    rfl
  · rw [swapPrepare_planned ht hr hp hprep, prepareSwap, prepareAt, prepareFrom, href]
  · rw [swapPrepare_planned ht hr hp hprep, prepareSwap, prepareAt, prepareFrom, href, ha, hd]
  · rw [swapAt_prepared ht hr hp hprep, performSwap_refused href]
  · rw [swapAt_prepared ht hr hp hprep, performSwap_granted href ha hd]
  · dsimp only [exec]
    simp only [execSwapPrepare, swapPrepare, onTwin_twin ht, hp]
    rfl
  · dsimp only [exec]
    simp only [execSwapAt, swapAtEvent, swapPrepare, onTwin_twin ht, hp, ite_self]
    rfl
  · dsimp only [exec]
    simp only [execSwapSchedule, onTwin_twin ht, hnext, hrun, h0, beq_self_eq_true, Bool.and_self, if_true, attemptSwap, attemptAt, attemptFrom_eq]
  · dsimp only [exec]
    simp only [execSwapRetry, onTwin_twin ht, hnext, hrun, Bool.true_and, if_pos (bne_iff_ne.mpr h0), attemptSwap, attemptAt, attemptFrom_eq]
  · dsimp only [exec]
    simp only [execSwapSchedule, onTwin_twin ht, hnext]
  · dsimp only [exec]
    simp only [execSwapRetry, onTwin_twin ht, hnext]

end Sys2Proof
end

end
